-- ==== Sys2Proof/Word.lean ====
section
/-! DEFINITION. The word types of the block and the identifiers of its units (00 R1 to R17, 01 R19 to R28).
Nothing here computes an effect: field extraction, sign extension and byte order live under Machine/. -/

namespace Sys2Proof

/-- A byte of memory. -/
abbrev Byte := BitVec 8
/-- A scalar register of a curd core, an instruction word, a 32-bit message (R103). -/
abbrev Word := BitVec 32
/-- A register of up to 64 bits, a global address (R32), a churn register (R209). -/
abbrev Dword := BitVec 64
/-- A 64-byte line; also one vector register of 512 bits (R103). Byte k lies in bits [8k+7:8k] (R10). -/
abbrev Line := BitVec 512
/-- The byte mask of a line: bit k selects byte k. -/
abbrev Mask := BitVec 64
/-- The integer A of one long-accumulator lane (R155). -/
abbrev Acc := BitVec 640

/-- A logical curd core 0 to 4,095 (R24). -/
abbrev CoreId := Fin 4096
/-- A vat 0 to 63 (R24). -/
abbrev VatId := Fin 64
/-- A ladle 0 to 3 of a vat. -/
abbrev LadleIx := Fin 4
/-- A task slot 0 to 255 of a vat (R190). -/
abbrev SlotIx := Fin 256
/-- A tally ID, `vat[5:0] index[7:0]` (R198). -/
abbrev TallyId := BitVec 14
/-- A reduction entry 0 to 63 of a churn (R206). -/
abbrev EntryIx := Fin 64
/-- A device channel of the crock 0 to 127: crock × 16 + channel (R28). -/
abbrev ChanId := Fin 128
/-- A cellar position 0 to 7. -/
abbrev CelId := Fin 8
/-- A Decyth port 0 to 47. -/
abbrev PortId := Fin 48
/-- A lane 0 to 7 of a port. -/
abbrev LaneIx := Fin 8
/-- A face site 0 to 5. -/
abbrev SiteId := Fin 6
/-- A command ring 0 to 63 (R506). -/
abbrev RingId := Fin 64
/-- A partition 0 to 63. -/
abbrev PartId := Fin 64
/-- A power domain 0 to 79 (R26, R539). -/
abbrev DomId := Fin 80
/-- A target of the device interrupt controller 0 to 14 (R526). -/
abbrev TargetIx := Fin 15

end Sys2Proof
end

