-- ==== Sys2Proof/Syntax.lean ====
section
/-! DEFINITION. The commands of the block: one constructor per row of the opcode table (406 rows), with the operands
each takes, and the data types of those operands. -/

namespace Sys2Proof

/-! ### Requests and replies (02 R55) -/

/-- A requester or responder of the device. -/
inductive Agent where
  | core (c : Nat)
  | ladle (v l : Nat)
  | churn (v : Nat)
  | redEntry (v e lane : Nat)
  | specUnit (v : Nat)
  | vatUnit (v : Nat)
  | walker (i : Nat)
  | migration
  | faultRing (p : Nat)
  | site (s : Nat)
  /-- A requester of partition `part` on another device; `part` 64 is its management core or host (15 R451). -/
  | fabric (dev part : Nat)
  | ring (r : Nat)
  | host
  | mgmt
  | rind
  | twin
  deriving DecidableEq, Repr

/-- What a memory or register request asks for. A read or write of `size` bytes starts at the request's address. -/
inductive MemOp where
  | read (size : Nat)
  | write (mask : Mask) (data : Line)
  | zero
  | atomic (fn : Nat) (operand expected : Word)
  | regRead (size : Nat)
  | regWrite (size : Nat) (data : Dword)
  deriving DecidableEq, Repr

/-- What comes back for a request (02 R55): data, a completion, or a bus error. -/
inductive Reply where
  | data (d : Line)
  | word (w : Dword)
  | done
  | busError
  deriving DecidableEq, Repr

/-! ### Fields of curd core instruction words (04 R113) -/

/-- Format R: the fields below the function code. -/
structure RArg where
  rd : BitVec 5
  rs1 : BitVec 5
  rs2 : BitVec 5
  fx : BitVec 5
  deriving DecidableEq, Repr

/-- Format I. -/
structure IArg where
  rd : BitVec 5
  rs1 : BitVec 5
  imm : BitVec 16
  deriving DecidableEq, Repr

/-- Format S. -/
structure SArg where
  rs2 : BitVec 5
  rs1 : BitVec 5
  imm : BitVec 16
  deriving DecidableEq, Repr

/-- The six conditions of the branch opcodes 0x18 to 0x1D (R114). -/
inductive BrOp where
  | beq | bne | blt | bge | bltu | bgeu
  deriving DecidableEq, Repr

/-- Format V. -/
structure VArg where
  vd : BitVec 4
  vs1 : BitVec 4
  vs2 : BitVec 4
  pm : BitVec 3
  fmt : BitVec 4
  fn : BitVec 7
  deriving DecidableEq, Repr

/-- Format VS. -/
structure VSArg where
  vd : BitVec 4
  vs1 : BitVec 4
  rs : BitVec 5
  lane : BitVec 4
  res : BitVec 2
  fn : BitVec 7
  deriving DecidableEq, Repr

/-- Format VM below its register field: the streaming bit, the base and the offset. -/
structure VMArg where
  st : BitVec 1
  rs1 : BitVec 5
  imm : BitVec 16
  deriving DecidableEq, Repr

/-- Format D below its function code. -/
structure DArg where
  ad : BitVec 2
  res : BitVec 2
  vA : BitVec 4
  vB : BitVec 4
  pm : BitVec 3
  fmt : BitVec 4
  sel : BitVec 4
  deriving DecidableEq, Repr

/-- Format X. -/
structure XArg where
  ad : BitVec 2
  ss : BitVec 5
  vs1 : BitVec 4
  vs2 : BitVec 4
  fmt : BitVec 4
  afmt : BitVec 2
  sel : BitVec 3
  fn : BitVec 2
  deriving DecidableEq, Repr

/-- The read-modify-write functions of `ATOM` fn 0 to 8 (R115). -/
inductive AmoFn where
  | aadd | aand | aor | axor | aswap | amin | amax | aminu | amaxu
  deriving DecidableEq, Repr

/-- What returns to a blocked core (R105, R127): a 64-byte line, a 4-byte word, or an error reply. -/
inductive FarRes where
  | line (d : Line)
  | word (w : Word)
  | err
  deriving DecidableEq, Repr

/-- What a reply to a store, a zero-fill or a prefetch says. -/
inductive Ack where
  | ok | err
  deriving DecidableEq, Repr

/-- Which outstanding request of a core times out (R127). -/
inductive CoreReq where
  /-- The blocking request of a member. -/
  | blocking (member : Nat)
  /-- The far store or zero-fill of this tag. -/
  | store (tag : Nat)
  /-- The prefetch of this virtual line address. -/
  | prefetch (line : Nat)
  deriving DecidableEq, Repr

/-! ### Tasks and tallies (06) -/

/-- The two kinds of a tally release (07 R245). -/
inductive RelKind where
  | reach | reset
  deriving DecidableEq, Repr

/-! ### The churn (06 R205 to R212) -/

/-- The fields of a churn instruction (06 R210). -/
structure CArg where
  rd : BitVec 4
  ra : BitVec 4
  rb : BitVec 4
  imm : BitVec 14
  deriving DecidableEq, Repr

/-- The churn integer operations 0x01 to 0x0B (06 R210). -/
inductive ChurnOp where
  | add | sub | and | or | xor | sll | srl | minu | maxu | min | max
  deriving DecidableEq, Repr

/-- The churn binary32 operations 0x13 to 0x15. -/
inductive ChurnF where
  | fadd | fsub | fmul
  deriving DecidableEq, Repr

/-- The churn branches 0x1A to 0x1C. -/
inductive ChurnBr where
  | beq | bne | bltu
  deriving DecidableEq, Repr

/-- A window of a partial: `W` and `POS` (05 R179). -/
structure Window where
  w : BitVec 128
  pos : Nat
  deriving DecidableEq, Repr

/-- A long-form partial (05 R179). `merged` is `MERGED`, `expect` the 8-bit `EXPECT`; `NWIN` is the length of `wins`. -/
structure Partial where
  tag : BitVec 16
  lane : BitVec 4
  expect : BitVec 8
  merged : Nat
  p : Bool
  n : Bool
  q : Bool
  aov : Bool
  wins : List Window
  deriving DecidableEq, Repr

/-- A request of a churn (06 R208, R212, R218): the one of its program, or a result write. -/
inductive ChurnReq where
  | prog
  | red (e : EntryIx) (lane : Fin 16) (va : Nat)
  deriving DecidableEq, Repr



/-! ### Networks (07) -/

/-- What the check of a header finds (07 R237): nothing, a corrected bit, or an uncorrectable error. -/
inductive HdrErr where
  | ok | corrected | uncorrectable
  deriving DecidableEq, Repr

/-! ### Speculation units (08) -/

/-- A message between speculation units (08 R259, R269 to R272, R281): a forwarded `OPEN`, its answer (`E` and `S`, none
for DROP), a forwarded `TOKEN`, a forwarded `END`, a verdict with its E, S and n, the notice of a fault. -/
inductive SpecMsg where
  | open (data : Dword)
  | answer (accept : Option (Word × Word))
  | token (data : Dword)
  | fin (data : Dword)
  | verdict (data : Dword) (e s : Word) (n : BitVec 3)
  | lost
  deriving DecidableEq, Repr





/-- What the training of a cellar position meets (11 R357): whether the stack answers, its marked capacity in GB, height
and rating as reported, the failing lanes of its pseudo-channels (0 to 35 in use, 36 and 37 the spares), and the channels
with a failing command-address lane. -/
structure CelTrain where
  answer : Bool
  cap : BitVec 8
  height : BitVec 5
  rating : BitVec 8
  lanes : List (Fin 64 × BitVec 38)
  ca : List (Fin 32)
  deriving DecidableEq, Repr



/-- How an offset calibration of a lane ends (14 R436). -/
inductive CalResult where
  | ok | inputActive | range
  deriving DecidableEq, Repr

/-- What a lane receives with a frame besides its units (14 R422, R427, R428, R442): the coded symbols in error as
positions with the difference, the stuffed symbols in error, the blocks in the elastic buffer, and what the pattern
checker counts when it has locked. -/
structure FrameErrs where
  syms : List (Fin 2176 × BitVec 10)
  stuff : Nat
  occ : Fin 17
  chk : Option Nat
  deriving DecidableEq, Repr



/-! ### Face sites (16) -/

/-- A beat of a face slice: 128 data bits, the frame wires and the check wires (16 R484). -/
structure Beat where
  data : BitVec 128
  fr : BitVec 2
  crc : BitVec 8
  deriving DecidableEq, Repr

/-! ### The host (16) -/

/-- A BAR of a function, with the MSI-X table as a space of its own (16 R503, R504). -/
inductive HostBar where
  | bar0 | bar2 | msix
  deriving DecidableEq, Repr

/-- A request of the host (16 R503, R517): a read or write of `size` bytes at an offset of a BAR, a request that the
endpoint does not support, a malformed TLP. -/
inductive HostReq where
  | read (bar : HostBar) (off size : Nat)
  | write (bar : HostBar) (off size : Nat) (data : Dword) (poisoned : Bool)
  | unsupported
  | malformed
  deriving DecidableEq, Repr

/-- A PCIe completion (16 R517): the data of the line that was read, or why there is none. -/
inductive HostCpl where
  | data (d : Line)
  | ur | ca | poisoned
  deriving DecidableEq, Repr



/-! ### Power (18) -/

/-- A regulator that faults (18 R556, 22 R646): of a domain, of a vat's mesh section, of the arrays of a crock. -/
inductive Regulator where
  | dom (d : DomId)
  | mesh (v : VatId)
  | crock (k : Fin 8)
  deriving DecidableEq, Repr

/-- The reason of a regulator fault (18 R561). -/
inductive RegReason where
  | overcurrent | undervoltage | overvoltage
  deriving DecidableEq, Repr

/-! ### Bring-up (19) -/

/-- What the fuse map holds: the device identifier, the four bits of 21 R615 (`CODE_V` lowest), the defective cores of
vats, and the spare rows in use, each in the layout of 10 R335 without its row. -/
structure FuseMap where
  uid : Dword := 0
  rind : BitVec 4 := 0
  cores : List (VatId × BitVec 72) := []
  spares : List (BitVec 31) := []
  deriving DecidableEq, Repr

/-- A record of MRAM with no valid copy (19 R575, 21 R621): the boot control record, a calibration block, a slot of the
journal, a keep entry, an item of the Rind's area, a firmware bank. -/
inductive BadRecord where
  | bank (b : Fin 2)
  | boot
  | cal (block : BitVec 12)
  | jrnl (slot : BitVec 12)
  | keep (e : BitVec 7)
  | rind (item : Fin 5)
  deriving DecidableEq, Repr

/-- A router's datapath slice that fails the test of a start (19 R576): the router, its network, and whether its spare is in
use already or fails too. -/
structure RouterFind where
  loc : BitVec 13
  net : Fin 3
  lost : Bool
  deriving DecidableEq, Repr

/-- A checker of memory (12 R384): of a crock channel, of a pseudo-channel of a cellar position, of a vat. -/
inductive CheckerUnit where
  | crock (c : ChanId)
  | cellar (p : CelId) (pc : Fin 64)
  | vat (v : VatId)
  deriving DecidableEq, Repr

/-- What the core tests of a start find in a vat (19 R579, R580): physical indices that fail the structural test, the first
functional run, the second one. -/
structure CoreTest where
  v : VatId
  structural : BitVec 72
  first : BitVec 72
  second : BitVec 72
  deriving DecidableEq, Repr

/-- What a start finds (19 R566): the fuse map, records without a valid copy, whether MRAM answers,
the words of MRAM that it corrects (low half) and those that it cannot (19 R574), the row of 21 R618 that
fails, a hold-up shorter than 30 µs, authentic recovery firmware in the SPI flash, failing routers, a mesh regulator
fault, failed sensors, a checker that fails with the index of its pattern, failed crock rows in the layout of 10 R335, the core tests, the image in the
SPI flash, the times of phases 1 to 7 and of the start. -/
structure StartRun where
  fuse : FuseMap := {}
  bad : List BadRecord := []
  mramDead : Bool := false
  mramErr : Word := 0
  kat : Option (Fin 8) := none
  shortHold : Bool := false
  recovery : Bool := false
  routers : List RouterFind := []
  mesh : Option (VatId × RegReason) := none
  sensors : List (Fin 136) := []
  checker : Option (CheckerUnit × Word) := none
  rows : List (BitVec 27) := []
  cores : List CoreTest := []
  spi : Option (List Byte) := none
  times : List Word := []
  ready : Word := 0
  deriving DecidableEq, Repr





/-! ### Sideband and test (22) -/

/-- An access that the sideband ports answer by 4 or 8 bytes (22 R654). -/
inductive SbSize where
  | four | eight
  deriving DecidableEq, Repr

/-! ### Images, the ledger and register space (00, 02, 03) -/

/-- A command of the block. Each constructor is one row of spec/opcode_table.json. -/
inductive Instr where
  /-- `REGISTER_WRITE` (R13): A write to a register field that has no row of its own, including misaligned or out-of-block accesses that complete with a bus error. -/
  | registerWrite (src : Agent) (tag : Nat) (ga : Dword) (size : Nat) (data : Dword)
  /-- `READ_CLEAR_REGISTER_READ` (R13): A read of an RC field returns its value and clears it as one indivisible action. -/
  | readClearRegisterRead (src : Agent) (tag : Nat) (ga : Dword) (size : Nat)
  /-- `LATE_REPLY_DISCARD` (R55): A reply whose epoch no longer matches its requester slot arrives, is discarded and counted, and its credit is returned. -/
  | lateReplyDiscard (dst : Agent) (tag : Nat) (res : Reply)
  /-- `LEDGER_AUDIT_START` (R63): At each 1 ms mark of MC_TSC the ledger injects audit markers into every network and pool-owning unit. -/
  | ledgerAuditStart 
  /-- `LEDGER_MARKER_PASS` (R63): An audit marker reaches a unit, which records its counts and counts in-flight arrivals until each channel's marker arrives, then reports. -/
  | ledgerMarkerPass (pool : Fin 15) (inst : BitVec 16) (diff : Int)
  /-- `LEDGER_COMPARE` (R64): The ledger has every report of an audit, sums each pool instance and compares it with its base. -/
  | ledgerCompare 
  /-- `LEDGER_TEST_GO` (R66): A write of TEST_GO schedules a ledger self-test on TEST_POOL, or sets TEST_REJ. -/
  | ledgerTestGo (data : Word)
  /-- `MC_QUEUE_NEXT` (R94): When one management-core operation ends, the next queued image, zeroisation, twin-sync or Rind command starts. -/
  | mcQueueNext (img : List Byte) (unitFail : Bool)
  /-- `RELOAD_CANCEL_TIMEOUT` (R99): Cores of a reloading partition still running 10 ms after the cancel are reset. -/
  | reloadCancelTimeout 
  /-- `UNDEFINED_OPCODE` (R123): An instruction word with an undefined major opcode raises ILLEGAL with sub-code 0. -/
  | undefinedOpcode (c : CoreId) (w : Word)
  /-- `ALU` (R115): A register-register scalar operation selected by fn is executed modulo 2^32. -/
  | alu (c : CoreId) (r : RArg) (fn : BitVec 6)
  /-- `ADDI` (R114): Adds a sign-extended immediate to a scalar register. -/
  | addi (c : CoreId) (a : IArg)
  /-- `ANDI` (R114): ANDs a zero-extended immediate into a scalar register. -/
  | andi (c : CoreId) (a : IArg)
  /-- `ORI` (R114): ORs a zero-extended immediate into a scalar register. -/
  | ori (c : CoreId) (a : IArg)
  /-- `SHI` (R114): Shifts a scalar register by an immediate amount, left, logical right or arithmetic right. -/
  | shi (c : CoreId) (a : IArg)
  /-- `LUI` (R114): Loads an immediate into the upper 16 bits of a scalar register. -/
  | lui (c : CoreId) (a : IArg)
  /-- `DIV` (R115): Starts a signed or unsigned division or remainder; later independent instructions issue while it runs. -/
  | div (c : CoreId) (r : RArg) (fn : BitVec 6)
  /-- `DIV_COMPLETE` (R105): A running DIV finishes and writes its destination register. -/
  | divComplete (c : CoreId)
  /-- `LW` (R114): Loads a word from the core store, forwarded or delayed by the store buffer under R129. -/
  | lw (c : CoreId) (a : IArg)
  /-- `SW` (R114): Stores a word to the core store through the store buffer. -/
  | sw (c : CoreId) (a : SArg)
  /-- `LSUB` (R115): Byte or halfword load or store at a core-store address. -/
  | lsub (c : CoreId) (r : RArg) (fn : BitVec 6)
  /-- `FLD` (R114): A blocking 4-byte far load through translation and the curd cache. -/
  | fld (c : CoreId) (a : IArg) (parity : Bool)
  /-- `FST` (R114): A posted 4-byte far store through the store buffer. -/
  | fst (c : CoreId) (a : SArg)
  /-- `VLD` (R114): Loads 64 bytes from the core store into a vector register. -/
  | vld (c : CoreId) (vr : BitVec 4) (a : VMArg)
  /-- `VST` (R114): Stores a vector register as 64 bytes to the core store. -/
  | vst (c : CoreId) (vr : BitVec 4) (a : VMArg)
  /-- `VLDF` (R114): A blocking 64-byte far load into a vector register, optionally as a streaming fill. -/
  | vldf (c : CoreId) (vr : BitVec 4) (a : VMArg) (parity : Bool)
  /-- `VSTF` (R114): A posted 64-byte far store of a vector register. -/
  | vstf (c : CoreId) (vr : BitVec 4) (a : VMArg)
  /-- `CACHE_PREF` (R134): Requests a line into the prefetch side buffer without blocking. -/
  | cachePref (c : CoreId) (a : VMArg)
  /-- `CACHE_ZERO` (R135): Allocates a zero line as pending and sends a zero-fill through the store buffer. -/
  | cacheZero (c : CoreId) (a : VMArg)
  /-- `CACHE_INVL` (R115): Invalidates the curd cache and side-buffer line of an address if present and not pending. -/
  | cacheInvl (c : CoreId) (a : VMArg)
  /-- `CACHE_INVALL` (R138): Waits for outstanding fills, then invalidates every non-pending entry and clears the side buffer. -/
  | cacheInvall (c : CoreId) (a : VMArg)
  /-- `BRANCH` (R114): A conditional branch compares two scalar registers and may refill the fetch buffer. -/
  | branch (c : CoreId) (op : BrOp) (rs1 : BitVec 5) (rs2 : BitVec 5) (off : BitVec 16)
  /-- `JAL` (R114): Jumps by a signed word offset and writes the link address to s31. -/
  | jal (c : CoreId) (off : BitVec 26)
  /-- `JALR` (R114): Jumps to a register plus immediate and writes the link address. -/
  | jalr (c : CoreId) (a : IArg)
  /-- `VALU` (R115): A predicated lane-wise integer vector operation. -/
  | valu (c : CoreId) (v : VArg)
  /-- `VFP` (R166): A predicated lane-wise IEEE floating-point vector operation rounded once under FRM. -/
  | vfp (c : CoreId) (v : VArg)
  /-- `VMOV` (R115): Moves between scalar, vector and predicate registers. -/
  | vmov (c : CoreId) (v : VSArg)
  /-- `VPERM` (R115): A vector shuffle or rotate, over 32 lanes in a whisk with W set. -/
  | vperm (c : CoreId) (v : VArg)
  /-- `VCMP` (R167): Compares vector lanes into a predicate register. -/
  | vcmp (c : CoreId) (v : VArg)
  /-- `DOT` (R117): Accumulates 16 lanes of exact block dot products into a long accumulator. -/
  | dot (c : CoreId) (d : DArg)
  /-- `DOT_P` (R120): The press form of DOT, each member multiplying the leader's weights by its own activations. -/
  | dotP (c : CoreId) (d : DArg)
  /-- `DOTMX` (R118): Accumulates scaled MX or OB4 block dot products into all 16 lanes. -/
  | dotmx (c : CoreId) (x : XArg)
  /-- `ACC_CLR` (R155): Clears the predicated lanes of an accumulator set. -/
  | accClr (c : CoreId) (d : DArg)
  /-- `ACC_RD` (R168): Reads out and rounds predicated accumulator lanes into a vector register. -/
  | accRd (c : CoreId) (d : DArg)
  /-- `ACC_RDC` (R168): Reads out and rounds predicated accumulator lanes, then clears them. -/
  | accRdc (c : CoreId) (d : DArg)
  /-- `ACC_ADDV` (R168): Adds vector lane operands exactly into accumulator lanes. -/
  | accAddv (c : CoreId) (d : DArg)
  /-- `ACC_PART` (R184): Emits a long-form partial for each predicated lane under PTAG. -/
  | accPart (c : CoreId) (d : DArg)
  /-- `CVT` (R169): Converts every element of a vector between formats, choosing MX scales where needed. -/
  | cvt (c : CoreId) (v : VArg)
  /-- `SEND` (R242): Sends a 32-bit message to a logical core on C-net VC0. -/
  | send (c : CoreId) (r : RArg)
  /-- `SENDU` (R241): Sends a 32-bit message to a logical core on urgent C-net VC1. -/
  | sendu (c : CoreId) (r : RArg)
  /-- `DBELL` (R522): Sends a doorbell for a source to a vat of the partition. -/
  | dbell (c : CoreId) (r : RArg)
  /-- `RECV` (R242): Takes the oldest message, or suspends the task until one arrives. -/
  | recv (c : CoreId) (r : RArg)
  /-- `RECVNB` (R115): Takes the oldest message, or returns 0xFFFF_FFFF without waiting. -/
  | recvnb (c : CoreId) (r : RArg)
  /-- `TINC` (R198): Posts an increment to a tally of the partition. -/
  | tinc (c : CoreId) (r : RArg)
  /-- `TWAIT` (R203): Registers a wait at a tally and suspends until released. -/
  | twait (c : CoreId) (r : RArg)
  /-- `TRD` (R198): Reads a tally's count, blocking until the reply returns. -/
  | trd (c : CoreId) (r : RArg)
  /-- `TSETT` (R198): Posts a new threshold to a tally. -/
  | tsett (c : CoreId) (r : RArg)
  /-- `LSUBMIT` (R215): Checks a ladle descriptor and queues it, returning a submission code at once. -/
  | lsubmit (c : CoreId) (r : RArg)
  /-- `ATOM` (R305): A blocking 32-bit atomic performed by the home churn, sent after earlier stores drain. -/
  | atom (c : CoreId) (r : RArg) (fn : AmoFn)
  /-- `ACAS` (R115): A blocking compare-and-swap performed by the home churn. -/
  | acas (c : CoreId) (r : RArg)
  /-- `CSR` (R121): Writes, sets, clears or reads a control and status register, returning the old value. -/
  | csr (c : CoreId) (a : IArg)
  /-- `SYNC_I` (R112): Drains the store buffer, then discards and refills the fetch buffer. -/
  | syncI (c : CoreId) (r : RArg)
  /-- `FENCE` (R126): Waits until the store buffer is empty, far stores are acknowledged and no line is pending. -/
  | fence (c : CoreId) (r : RArg)
  /-- `YIELD` (R196): A yield point where a pending cancel aborts the task. -/
  | yield (c : CoreId) (r : RArg)
  /-- `WFE` (R523): Completes if the core's event latch is set, otherwise suspends until it is. -/
  | wfe (c : CoreId) (r : RArg)
  /-- `TRAP` (R115): Raises BREAK with sub-code fx. -/
  | trap (c : CoreId) (r : RArg)
  /-- `RDTSC` (R115): Reads the vat copy of MC_TSC into a scalar pair. -/
  | rdtsc (c : CoreId) (r : RArg) (lag : Fin 5)
  /-- `HALT` (R196): Performs the FENCE waits, re-registers a gated rearmed task, increments OUT and ends the task. -/
  | halt (c : CoreId) (r : RArg)
  /-- `TRET` (R125): Returns from a trap handler to TEPC. -/
  | tret (c : CoreId) (r : RArg)
  /-- `FAR_LOAD_REPLY` (R105): The data or error of a blocking far load or atomic returns and the core resumes issue. -/
  | farLoadReply (c : CoreId) (member : Fin 4) (res : FarRes)
  /-- `STORE_BUFFER_DRAIN` (R128): The head store-buffer entry is accepted by its core-store bank or the network. -/
  | storeBufferDrain (c : CoreId)
  /-- `FAR_STORE_ACK` (R126): The acknowledgement or error of a far store returns; an error is taken as STORE_ERROR. -/
  | farStoreAck (c : CoreId) (tag : Nat) (res : Ack)
  /-- `ZERO_FILL_ACK` (R135): A zero-fill is acknowledged and its line leaves the pending state, or is invalidated on error. -/
  | zeroFillAck (c : CoreId) (tag : Nat) (res : Ack)
  /-- `PREFETCH_FILL` (R134): A prefetched line arrives and is placed in the side buffer, or is dropped on error. -/
  | prefetchFill (c : CoreId) (line : Nat) (res : FarRes)
  /-- `CORE_REQUEST_TIMEOUT` (R127): A core request outstanding for 1 ms ends with BUS_ERROR, STORE_ERROR or a dropped prefetch. -/
  | coreRequestTimeout (c : CoreId) (req : CoreReq)
  /-- `LADLE_INJECTION_ARRIVAL` (R139): A ladle injection reaches a curd cache and is installed as class L or dropped and counted. -/
  | ladleInjectionArrival (c : CoreId) (line : Nat) (data : Line) (rtime : Nat)
  /-- `CORE_STORE_EXTERNAL_ACCESS` (R111): A ladle, B-net or far access reaches a core store through its external port. -/
  | coreStoreExternalAccess (c : CoreId) (src : Agent) (tag : Nat) (off : Nat) (op : MemOp)
  /-- `CORE_CACHE_INIT_DONE` (R138): Reset invalidation of all 48 curd cache entries ends and CC_INIT clears. -/
  | coreCacheInitDone (c : CoreId)
  /-- `MESSAGE_DELIVERY` (R242): A C-net message enters a core's receive queue, waking a task suspended in RECV. -/
  | messageDelivery (c : CoreId) (urgent : Bool) (sender : Word) (payload : Word)
  /-- `TASK_DESC_WRITE` (R191): A write to VAT_TASK_DESC or VAT_TASK_ARG takes effect only while the slot is FREE. -/
  | taskDescWrite (v : VatId) (slot : SlotIx) (arg : Bool) (data : Dword)
  /-- `TASK_LOAD` (R194): CMD LOAD captures a slot's registers and registers its gate, or is dropped. -/
  | taskLoad (v : VatId) (slot : SlotIx)
  /-- `TASK_READY` (R194): CMD READY moves a LOADED task to READY, or is dropped and counted. -/
  | taskReady (v : VatId) (slot : SlotIx)
  /-- `TASK_CANCEL` (R195): CMD CANCEL cancels a task, or sets ABORT on a running one. -/
  | taskCancel (v : VatId) (slot : SlotIx)
  /-- `TASK_RELEASE` (R194): CMD RELEASE returns a finished slot to FREE. -/
  | taskRelease (v : VatId) (slot : SlotIx)
  /-- `TASK_CMD_RESERVED` (R192): A reserved CMD value is ignored and counted in VAT_PC_CMD_REJ. -/
  | taskCmdReserved (v : VatId) (slot : SlotIx)
  /-- `TASK_DISPATCH` (R197): When a target becomes idle the dispatcher grants a READY task round robin and starts it. -/
  | taskDispatch (v : VatId) (k : VatId)
  /-- `TALLY_INCREMENT` (R198): An increment is applied at a tally, saturating, and may cause a reach. -/
  | tallyIncrement (t : TallyId) (n : Word) (org : Nat)
  /-- `TALLY_REGISTRATION` (R203): A wait registration reaches a tally and is released at once or acknowledged and recorded in the waiting-vat mask. -/
  | tallyRegistration (t : TallyId) (w : VatId) (org : Nat)
  /-- `TALLY_REGISTRATION_ACK` (R203): An acknowledgement reaches the registering vat, which arms the waiter. -/
  | tallyRegistrationAck (w : VatId) (t : TallyId)
  /-- `TALLY_RELEASE` (R203): A REACH or RESET release reaches a vat, which wakes its armed waiters. -/
  | tallyRelease (w : VatId) (t : TallyId) (count : Word) (kind : RelKind) (answer : Bool)
  /-- `TALLY_READ` (R198): A read reaches a tally, which replies with its count. -/
  | tallyRead (t : TallyId) (c : CoreId)
  /-- `TALLY_READ_REPLY` (R198): A tally read reply returns to the blocked core. -/
  | tallyReadReply (c : CoreId) (t : TallyId) (count : Word)
  /-- `TALLY_SET_THRESHOLD` (R199): A TSETT reaches a tally, sets THRESH and releases waiters if already met. -/
  | tallySetThreshold (t : TallyId) (value : Word) (org : Nat)
  /-- `TALLY_CNT_WRITE` (R199): A write of VAT_TALLY_CNT sets the count at the arbiter and may release waiters. -/
  | tallyCntWrite (t : TallyId) (value : Word)
  /-- `TALLY_THR_WRITE` (R199): A write of VAT_TALLY_THR sets THRESH at the arbiter and may release waiters. -/
  | tallyThrWrite (t : TallyId) (value : Word)
  /-- `TALLY_STEP_WRITE` (R198): A write of VAT_TALLY_STEP sets the threshold advance. -/
  | tallyStepWrite (t : TallyId) (value : Word)
  /-- `CHURN_PARTIAL` (R207): A partial reaches its reduction entry and is dropped, held early or merged. -/
  | churnPartial (v : VatId) (src : Nat) (p : Partial)
  /-- `RED_RESULT_WRITE_ACK` (R208): A reduction result write completes, or fails and sets FAULT. -/
  | redResultWriteAck (v : VatId) (e : EntryIx) (lane : Fin 16) (va : Nat) (res : Ack)
  /-- `RED_CFG_WRITE` (R208): A write of VAT_RED_CFG is ignored while busy, or clears a faulted entry before applying. -/
  | redCfgWrite (v : VatId) (e : EntryIx) (data : Dword)
  /-- `RED_DST_WRITE` (R206): A write of VAT_RED_DST is ignored and counted while the entry is busy and not faulted. -/
  | redDstWrite (v : VatId) (e : EntryIx) (data : Dword)
  /-- `RED_XFWD_WRITE` (R474): A write of VAT_RED_XFWD under the busy rule of VAT_RED_CFG. -/
  | redXfwdWrite (v : VatId) (e : EntryIx) (data : Dword)
  /-- `CHURN_INVOCATION_START` (R209): The churn takes the next queued invocation and starts its program. -/
  | churnInvocationStart (v : VatId)
  /-- `CHURN_CALL_WRITE` (R209): A write of VAT_CHURN_CALL queues an invocation. -/
  | churnCallWrite (v : VatId) (data : Dword)
  /-- `CHURN_SEED_WRITE` (R208): A write of VAT_CHURN_SEED sets the rounding seed and zeroes the churn's counter. -/
  | churnSeedWrite (v : VatId) (seed : Word)
  /-- `CHURN_RSEED_WRITE` (R211): A write of VAT_CHURN_RSEED sets the RNG state. -/
  | churnRseedWrite (v : VatId) (seed : Dword)
  /-- `CHURN_ALU` (R210): A churn integer operation on 64-bit registers. -/
  | churnAlu (v : VatId) (op : ChurnOp) (a : CArg)
  /-- `CHURN_ADDI` (R210): Adds a sign-extended immediate to a churn register. -/
  | churnAddi (v : VatId) (a : CArg)
  /-- `CHURN_SHLI` (R210): Shifts a churn register left by 14 and inserts an immediate. -/
  | churnShli (v : VatId) (a : CArg)
  /-- `CHURN_LD` (R210): Loads 8 bytes from a partition virtual address. -/
  | churnLd (v : VatId) (a : CArg)
  /-- `CHURN_ST` (R210): Stores 8 bytes to a partition virtual address. -/
  | churnSt (v : VatId) (a : CArg)
  /-- `CHURN_MEMORY_REPLY` (R212): The reply to a churn LD or ST returns, or a bus error ends the program with a fault. -/
  | churnMemoryReply (v : VatId) (res : Reply)
  /-- `CHURN_LDL` (R210): Loads a word from churn scratch memory. -/
  | churnLdl (v : VatId) (a : CArg)
  /-- `CHURN_STL` (R210): Stores a word to churn scratch memory. -/
  | churnStl (v : VatId) (a : CArg)
  /-- `CHURN_FLT` (R210): Compares two binary32 values. -/
  | churnFlt (v : VatId) (a : CArg)
  /-- `CHURN_FARITH` (R210): A churn binary32 add, subtract or multiply rounded to nearest even. -/
  | churnFarith (v : VatId) (op : ChurnF) (a : CArg)
  /-- `CHURN_FEXP2` (R210): Computes 2^x of a binary32 value, correctly rounded. -/
  | churnFexp2 (v : VatId) (a : CArg)
  /-- `CHURN_FRCP` (R210): Computes 1/x of a binary32 value, correctly rounded. -/
  | churnFrcp (v : VatId) (a : CArg)
  /-- `CHURN_RNG` (R211): Advances the RNG state and returns the next output. -/
  | churnRng (v : VatId) (a : CArg)
  /-- `CHURN_TOPK` (R211): Inserts an entry into a top-k list in scratch memory. -/
  | churnTopk (v : VatId) (a : CArg)
  /-- `CHURN_BRANCH` (R210): A churn conditional branch. -/
  | churnBranch (v : VatId) (op : ChurnBr) (a : CArg)
  /-- `CHURN_TINC` (R210): Sends a tally increment from a churn program. -/
  | churnTinc (v : VatId) (a : CArg)
  /-- `CHURN_DBELL` (R210): Sends a doorbell from a churn program. -/
  | churnDbell (v : VatId) (a : CArg)
  /-- `CHURN_SEND` (R210): Sends a C-net message from a churn program. -/
  | churnSend (v : VatId) (a : CArg)
  /-- `CHURN_END` (R210): Ends the churn invocation. -/
  | churnEnd (v : VatId) (a : CArg)
  /-- `CHURN_RESERVED_OP` (R212): A reserved churn op or non-zero reserved field causes a program fault. -/
  | churnReservedOp (v : VatId) (w : Word)
  /-- `CHURN_INSTRUCTION_LIMIT` (R212): An invocation exceeding 65,536 instructions ends with a program fault. -/
  | churnInstructionLimit (v : VatId)
  /-- `CHURN_REQUEST_TIMEOUT` (R218): A churn request outstanding for 1 ms completes with a bus error. -/
  | churnRequestTimeout (v : VatId) (req : ChurnReq)
  /-- `LADLE_STAGE_START` (R216): A write of STG0 starts a new staged descriptor, discarding any partial one. -/
  | ladleStageStart (v : VatId) (l : LadleIx) (data : Dword)
  /-- `LADLE_STAGE_WORD` (R216): A write of STG1–STG6 is taken in order or dropped and sets DISCARD. -/
  | ladleStageWord (v : VatId) (l : LadleIx) (w : Fin 8) (data : Dword)
  /-- `LADLE_STAGE_COMMIT` (R216): Taking STG7 submits the staged descriptor and records its code and sequence number. -/
  | ladleStageCommit (v : VatId) (l : LadleIx) (data : Dword) (privileged : Bool)
  /-- `LADLE_COPY` (R214): A ladle begins a COPY descriptor of rows from SRC to DST. -/
  | ladleCopy (v : VatId) (l : LadleIx)
  /-- `LADLE_FILL` (R214): A ladle begins a FILL descriptor writing the AUX pattern. -/
  | ladleFill (v : VatId) (l : LadleIx)
  /-- `LADLE_INJECT` (R214): A ladle begins an INJECT descriptor copying lines into a core's curd cache. -/
  | ladleInject (v : VatId) (l : LadleIx)
  /-- `LADLE_UNPACK6` (R214): A ladle begins unpacking MXFP6 blocks to 8-bit containers. -/
  | ladleUnpack6 (v : VatId) (l : LadleIx)
  /-- `LADLE_PACK6` (R214): A ladle begins packing 8-bit containers to MXFP6 blocks. -/
  | ladlePack6 (v : VatId) (l : LadleIx)
  /-- `LADLE_CALL` (R214): A ladle queues a churn invocation in a vat of the partition. -/
  | ladleCall (v : VatId) (l : LadleIx)
  /-- `LADLE_READ_REPLY` (R218): A ladle read returns data or an error, which ends the descriptor and stops the ladle. -/
  | ladleReadReply (v : VatId) (l : LadleIx) (res : Reply)
  /-- `LADLE_WRITE_ACK` (R213): A ladle write or HFENCE read-back completes, and the last one completes the descriptor and increments its tally. -/
  | ladleWriteAck (v : VatId) (l : LadleIx) (tag : Nat) (res : Ack)
  /-- `LADLE_REQUEST_TIMEOUT` (R218): A ladle request outstanding for 1 ms ends the descriptor and stops the ladle. -/
  | ladleRequestTimeout (v : VatId) (l : LadleIx) (tag : Nat)
  /-- `LADLE_FLUSH` (R217): VAT_LADLE_CTL.FLUSH stops the active descriptor, discards the queue and staging. -/
  | ladleFlush (v : VatId) (l : LadleIx)
  /-- `LADLE_FLUSH_COMPLETE` (R217): A flush ends and the ladle leaves FLUSHING for IDLE. -/
  | ladleFlushComplete (v : VatId) (l : LadleIx)
  /-- `LADLE_RESUME` (R218): VAT_LADLE_CTL.RESUME restarts a STOPPED ladle at the next queued descriptor. -/
  | ladleResume (v : VatId) (l : LadleIx)
  /-- `VAT_RESET` (R219): VAT_RESET.GO resets the vat's cores, dispatcher, tallies, churn, ladles, event unit and TLB. -/
  | vatReset (v : VatId)
  /-- `VAT_RESET_COMPLETE` (R219): Phase 6 of a vat reset clears RESETTING, serves held requests and readies ungated tasks. -/
  | vatResetComplete (v : VatId)
  /-- `ROUTER_PACKET` (R228): A B-net or C-net packet arrives at a router input, is checked and forwarded by dimension order. -/
  | routerPacket (cnet : Bool) (v : VatId) (pcol : Fin 8) (prow : Fin 9) (hdr : Dword) (err : HdrErr) (parity : Bool) (msg : Nat)
  /-- `ROUTER_PARTIAL` (R249): A partial arrives on VC2 at a merging router and passes, merges or opens a slot. -/
  | routerPartial (v : VatId) (pcol : Fin 8) (prow : Fin 9) (src : Nat) (p : Partial)
  /-- `REDUCTION_SLOT_HOLD_EXPIRY` (R250): A slot's hold timer reaches HOLD and the slot is marked for forwarding. -/
  | reductionSlotHoldExpiry (v : VatId) (pcol : Fin 8) (prow : Fin 9) (slot : Fin 8)
  /-- `REDUCTION_SLOT_FORWARD` (R249): A marked slot gains a credit, sends its partial and frees. -/
  | reductionSlotForward (v : VatId) (pcol : Fin 8) (prow : Fin 9) (slot : Fin 8)
  /-- `CREDIT_RETURN` (R252): A credit returns to a sender when its flit or message leaves the receiver buffer. -/
  | creditReturn (pool : BitVec 4) (inst : BitVec 16) (vc : Fin 3)
  /-- `FIRMWARE_BROADCAST` (R235): A management-core broadcast is replicated along the tree into masked core stores. -/
  | firmwareBroadcast (off : BitVec 16) (vats : BitVec 64) (lines : List Line)
  /-- `TNET_MESSAGE` (R244): A T-net message arrives at a tree node and is passed up or down. -/
  | tnetMessage (v : VatId) (bits : BitVec 104) (err : HdrErr) (link : Option (BitVec 16)) (msg : Nat)
  /-- `DTAB_WRITE` (R256): A write of VAT_NET_DTAB takes effect only from management firmware. -/
  | dtabWrite (v : VatId) (n : Fin 4096) (data : Word) (firmware : Bool)
  /-- `SPEC_OPEN` (R268): An OPEN command at the drafter unit is checked and forwarded to the verifier. -/
  | specOpen (v : VatId) (data : Dword)
  /-- `SPEC_TOKEN` (R268): A TOKEN command at the drafter unit is forwarded to the verifier. -/
  | specToken (v : VatId) (data : Dword)
  /-- `SPEC_VERDICT` (R271): A VERDICT at the lead unit is checked, forwarded, commits the epoch and retires or keeps later epochs. -/
  | specVerdict (v : VatId) (data : Dword)
  /-- `SPEC_END` (R280): An END command ends the stream with its reason. -/
  | specEnd (v : VatId) (data : Dword)
  /-- `SPEC_CMD_RESERVED` (R267): A command with a reserved OP or field is dropped and counted in BAD_CMD. -/
  | specCmdReserved (v : VatId) (data : Dword)
  /-- `SPEC_PEER_OPEN` (R269): A forwarded OPEN reaches the verifier unit, which answers ACCEPT with allocation or DROP. -/
  | specPeerOpen (v : VatId) (data : Dword)
  /-- `SPEC_OPEN_ANSWER` (R269): An ACCEPT or DROP reaches the drafter unit, which allocates its blocks on ACCEPT. -/
  | specOpenAnswer (v : VatId) (accept : Option (Word × Word))
  /-- `SPEC_PEER_TOKEN` (R268): A forwarded TOKEN reaches the verifier unit and is written into the open epoch. -/
  | specPeerToken (v : VatId) (data : Dword)
  /-- `SPEC_PEER_END` (R280): A forwarded END reaches the verifier unit and ends the stream. -/
  | specPeerEnd (v : VatId) (data : Dword)
  /-- `SPEC_FOLLOWER_VERDICT` (R272): A verdict message reaches a follower verifier, which checks skew and applies it. -/
  | specFollowerVerdict (v : VatId) (dev : BitVec 14) (data : Dword) (e st : Word) (n : BitVec 3)
  /-- `SPEC_DRAFTER_VERDICT` (R271): A verdict reaches a drafter unit, which updates its blocks and increments VERD. -/
  | specDrafterVerdict (v : VatId) (data : Dword) (e st : Word) (n : BitVec 3)
  /-- `SPEC_PEER_LOST` (R281): A fault notice from another unit of the group makes the unit FAULTED with PEER_LOST. -/
  | specPeerLost (v : VatId)
  /-- `SPEC_MEMORY_WRITE_ACK` (R270): A block-table, draft-buffer or ring write of the unit completes, or fails with MEM_ERR or RING_ERR. -/
  | specMemoryWriteAck (v : VatId) (tag : Nat) (res : Ack)
  /-- `SPEC_REQUEST_TIMEOUT` (R282): A speculation-unit memory request outstanding for 1 ms is treated as a bus error. -/
  | specRequestTimeout (v : VatId) (tag : Nat)
  /-- `SPEC_PRESENT` (R266): The oldest SUBMITTED epoch with its record writes acknowledged is presented and SUBMIT incremented. -/
  | specPresent (v : VatId)
  /-- `SPEC_RING_READBACK` (R285): The ring read-back after a batch of records returns, PROD is written and the ring source raised. -/
  | specRingReadback (v : VatId) (res : Ack)
  /-- `SPEC_CTL_START` (R279): CTL.START checks the configuration and starts a stream. -/
  | specCtlStart (v : VatId)
  /-- `SPEC_CTL_STOP` (R280): CTL.STOP ends the stream with reason 2. -/
  | specCtlStop (v : VatId)
  /-- `SPEC_CTL_CLEAR` (R278): CTL.CLEAR releases every block, zeroes the table and frees every pool page. -/
  | specCtlClear (v : VatId)
  /-- `SPEC_CONS_WRITE` (R289): The host writes CONS, letting held records be written. -/
  | specConsWrite (v : VatId) (data : Word)
  /-- `SPEC_CONFIG_WRITE` (R295): A write of a speculation configuration register takes effect only while IDLE. -/
  | specConfigWrite (v : VatId) (off : BitVec 16) (data : Dword)
  /-- `SPEC_END_DRAINED` (R280): The output queue of an ENDING unit drains, the END record is written and STATE becomes IDLE. -/
  | specEndDrained (v : VatId)
  /-- `SLICE_REQUEST` (R301): A read or write is granted at a home slice and served on a hit or sent to memory. -/
  | sliceRequest (src : Agent) (tag : Nat) (ga : Dword) (op : MemOp) (err : HdrErr)
  /-- `SLICE_FILL` (R301): A line returns from memory to the slice, is allocated under the requester's mask and served. -/
  | sliceFill (v : VatId) (id : Nat) (res : Option Line)
  /-- `SCRATCHPAD_ACCESS` (R298): A scratchpad access is served by its slice or refused with a bus error. -/
  | scratchpadAccess (src : Agent) (tag : Nat) (ga : Dword) (op : MemOp) (err : HdrErr)
  /-- `ATOMIC_REQUEST` (R305): An atomic is performed in the home slice's atomic buffer by its churn. -/
  | atomicRequest (src : Agent) (tag : Nat) (ga : Dword) (fn : Fin 10) (operand expected : Word) (err : HdrErr)
  /-- `VICTIM_OFFER` (R304): A victim offer reaches its home slice and is installed or declined. -/
  | victimOffer (c : CoreId) (ga : Dword) (data : Line) (rtime : Nat)
  /-- `CREAM_REGULATOR_TICK` (R312): At each MC_TSC period an enabled slice regulator's level rises by RATE up to BURST. -/
  | creamRegulatorTick (v : VatId) (j : Fin 8)
  /-- `CREAM_REGULATOR_WRITE` (R312): A write of VAT_CRM_REG; setting EN sets the level to BURST. -/
  | creamRegulatorWrite (v : VatId) (j : Fin 8) (data : Dword)
  /-- `CROCK_READ` (R324): A crock controller reads and decodes a line for its home slice. -/
  | crockRead (ch : ChanId) (line : BitVec 21) (errs : List (BitVec 20)) (share : Option (List (BitVec 20))) (acts : Nat)
  /-- `CROCK_WRITE` (R374): A crock controller writes a line, by read-modify-write for narrow writes. -/
  | crockWrite (ch : ChanId) (line : BitVec 21) (errs : List (BitVec 20)) (share : Option (List (BitVec 20))) (acts : Nat)
  /-- `CROCK_REFRESH` (R329): A crock controller issues a row refresh at the interval of the channel's level. -/
  | crockRefresh (ch : ChanId)
  /-- `CROCK_TEMP_SAMPLE` (R328): Every 10 µs the controller samples its layer sensors and may change thermal level. -/
  | crockTempSample (ch : ChanId) (t0 t1 t2 t3 t4 : BitVec 8)
  /-- `CROCK_SR_IDLE_TIMEOUT` (R332): A channel under a powered-off vat idle for SR_IDLE µs enters SR_VAT_OFF. -/
  | crockSrIdleTimeout (ch : ChanId)
  /-- `CROCK_SR_EXIT_DONE` (R333): A channel completes leaving self-refresh and serves its waiting requests. -/
  | crockSrExitDone (ch : ChanId)
  /-- `CROCK_SCRUB_READ` (R377): A patrol scrub read of a crock line corrects it in place or logs it. -/
  | crockScrubRead (ch : ChanId) (line : BitVec 21) (errs : List (BitVec 20))
  /-- `CRK_CH_TEST_WRITE` (R332): A write of CRK_CH_CTL.TEST moves a free channel into or out of TEST, clearing its share. -/
  | crkChTestWrite (ch : ChanId) (data : Dword)
  /-- `CRK_THR_WRITE` (R340): A write of CRK_THR clamps T1 and T2 and is ignored if T2 would not exceed T1. -/
  | crkThrWrite (k : Fin 8) (data : Dword)
  /-- `CRK_TG_GO` (R339): A write of CRK_TG_CTL.GO starts a generator run or sets REJ. -/
  | crkTgGo (ch : ChanId) (data : Dword)
  /-- `CRK_TG_ABORT` (R339): A write of CRK_TG_CTL.ABORT stops a run at the next line. -/
  | crkTgAbort (ch : ChanId) (data : Dword) (done : Nat) (errs : List (Nat × List (BitVec 20)))
  /-- `CRK_TG_RUN_END` (R338): A crock generator run completes its lines and sets DONE. -/
  | crkTgRunEnd (ch : ChanId) (errs : List (Nat × List (BitVec 20)))
  /-- `CELLAR_READ` (R349): A cellar controller reads, decodes and decrypts a line. -/
  | cellarRead (p : CelId) (pc : Fin 64) (line : BitVec 24) (errs : BitVec 72) (odec acts : Nat)
  /-- `CELLAR_WRITE` (R354): A cellar controller writes a line, by read-modify-write for narrow writes. -/
  | cellarWrite (p : CelId) (pc : Fin 64) (line : BitVec 24) (errs : BitVec 72) (odec acts : Nat)
  /-- `CELLAR_TRAINING_COMPLETE` (R357): Cellar training and initialisation of a position end and it becomes SERVING or FAILED. -/
  | cellarTrainingComplete (p : CelId) (t : CelTrain)
  /-- `CELLAR_RETRAIN` (R360): A write of CEL_CTL.RETRAIN, a failing lane or a repeated parity error retrains the position. -/
  | cellarRetrain (p : CelId)
  /-- `CELLAR_RETRAIN_COMPLETE` (R360): A service retrain ends and the position serves its waiting requests. -/
  | cellarRetrainComplete (p : CelId)
  /-- `CELLAR_TEMP_READ` (R361): Every 1 ms the controller reads the stack temperature and sets refresh and thermal level. -/
  | cellarTempRead (p : CelId) (temp : BitVec 8) (hot : Bool)
  /-- `CELLAR_TEMP_TIMEOUT` (R362): No valid temperature reading for 10 ms applies level 2 and raises the over-temperature source. -/
  | cellarTempTimeout (p : CelId)
  /-- `CELLAR_CA_PARITY` (R362): The stack reports a command-address parity error and the command is reissued once. -/
  | cellarCaParity (p : CelId) (cmd : Nat)
  /-- `CELLAR_SCRUB_READ` (R377): A patrol scrub read of a cellar line. -/
  | cellarScrubRead (p : CelId) (pc : Fin 64) (line : BitVec 24) (errs : BitVec 72) (odec : Nat)
  /-- `CEL_TEST_WRITE` (R365): A write of CEL_CTL.TEST moves a free position into or out of TEST. -/
  | celTestWrite (p : CelId) (data : Dword)
  /-- `CELLAR_INIT_COMPLETE` (R365): The initialisation after TEST ends and the position returns to SERVING. -/
  | cellarInitComplete (p : CelId)
  /-- `CEL_TG_GO` (R366): A write of CEL_TG_CTL.GO starts a pseudo-channel generator run or sets REJ. -/
  | celTgGo (p : CelId) (c : Fin 32) (data : Dword)
  /-- `CEL_TG_ABORT` (R365): A write of CEL_TG_CTL.ABORT stops a cellar generator run. -/
  | celTgAbort (p : CelId) (c : Fin 32) (data : Dword) (done : Nat) (errs : List (Nat × List (BitVec 72)))
  /-- `CEL_TG_RUN_END` (R365): A cellar generator run completes and sets DONE. -/
  | celTgRunEnd (p : CelId) (c : Fin 32) (errs : List (Nat × List (BitVec 72)))
  /-- `CEL_THR_WRITE` (R367): A write of CEL_THR clamps thresholds and is ignored if T2 would not exceed T1. -/
  | celThrWrite (p : CelId) (data : Dword)
  /-- `CEL_REGULATOR_TICK` (R364): At each MC_TSC period a cellar regulator's level rises by RATE up to BURST. -/
  | celRegulatorTick (p : CelId) (j : Fin 8)
  /-- `VAT_SCRUB_READ` (R377): A patrol scrub read of slice, core-store or tally storage. -/
  | vatScrubRead (v : VatId) (target : Fin 3) (a : Nat) (err : HdrErr)
  /-- `FQ_HEAD_WRITE` (R387): A write of MC_FQ_HEAD consumes fault records, ignored if it would move backwards or past TAIL. -/
  | fqHeadWrite (data : Dword)
  /-- `WALK_START` (R400): A free walker takes a queued walk request. -/
  | walkStart (p : PartId) (vpage : BitVec 23)
  /-- `WALK_TABLE_READ_REPLY` (R400): An L1 or L2 entry read returns to the walker, which reads on or checks and returns the result. -/
  | walkTableReadReply (k : Fin 16) (res : Reply) (ue : Bool)
  /-- `WALK_READ_TIMEOUT` (R401): A walker table read unanswered for 0.5 ms ends the walk as an uncorrectable error. -/
  | walkReadTimeout (k : Fin 16)
  /-- `WALK_RESULT` (R400): A walk result reaches the vat, which installs the entry or delivers the fault to each waiter. -/
  | walkResult (p : PartId) (vpage : BitVec 23)
  /-- `MIGRATION_START` (R408): The migration engine takes the next queued page, pops a frame and starts the copy. -/
  | migrationStart 
  /-- `MIGRATION_COPY_COMPLETE` (R408): A page copy ends; the entry is rechecked and written, a record written and the page resumed. -/
  | migrationCopyComplete (lines : Option (List (BitVec 19 × Line)))
  /-- `XLT_SHOOT` (R410): A write of XLT_SHOOT starts a shootdown or sets REJ. -/
  | xltShoot (data : Dword)
  /-- `SHOOTDOWN_VAT_DRAINED` (R410): A vat's requests issued before its cut have all replied. -/
  | shootdownVatDrained (v : VatId)
  /-- `SHOOTDOWN_COMPLETE` (R410): The last vat has drained; BUSY clears and DONE is set. -/
  | shootdownComplete 
  /-- `XLT_RESUME` (R405): A write of XLT_RESUME resumes the partition's suspended tasks and held ladles in a range. -/
  | xltResume (data : Dword)
  /-- `XLT_FR_CONS_WRITE` (R406): A write of XLT_FR_CONS, ignored if it moves backwards or past PROD. -/
  | xltFrConsWrite (p : PartId) (data : Dword)
  /-- `XLT_MIG_TAIL_WRITE` (R413): A write of XLT_MIG_TAIL supplies frames, ignored if out of range. -/
  | xltMigTailWrite (p : PartId) (data : Dword)
  /-- `FAULT_RING_WRITE_ACK` (R406): A fault-ring record write completes and PROD advances, or it fails and goes to the device queue. -/
  | faultRingWriteAck (p : PartId) (res : Reply)
  /-- `FAULT_RING_WRITE_TIMEOUT` (R407): A fault-ring record write unanswered for 1 ms is lost to the ring and queued on the device. -/
  | faultRingWriteTimeout (p : PartId)
  /-- `LANE_REF_LOST` (R416): A lane-group reference is lost; every port goes OFF and REF_LOST is set. -/
  | laneRefLost (g : Fin 4)
  /-- `LANE_FRAME_TRANSMIT` (R421): A sender encodes, scrambles and sends a frame of units, inserting fillers every FILL_INT frames. -/
  | laneFrameTransmit (p : PortId)
  /-- `LANE_FRAME_RECEIVE` (R422): A receiver decodes a whole frame and delivers its 80 units, marked bad if uncorrectable. -/
  | laneFrameReceive (p : PortId) (j : LaneIx) (units : List (BitVec 257)) (e : FrameErrs)
  /-- `FILLER` (R427): A received FILLER control block is deleted or passed by the elastic buffer. -/
  | filler (p : PortId) (j : LaneIx) (occ : Fin 17)
  /-- `ENTER_SHALLOW` (R439): A received ENTER_SHALLOW puts the receiver's loops in the shallow state. -/
  | enterShallow (p : PortId) (j : LaneIx)
  /-- `ENTER_DEEP` (R439): A received ENTER_DEEP puts the receiver's loops in the deep state. -/
  | enterDeep (p : PortId) (j : LaneIx)
  /-- `RETRAIN` (R432): A received RETRAIN control block takes the port from ACTIVE or HELD to TRAIN. -/
  | retrain (p : PortId) (j : LaneIx)
  /-- `CAPX` (R434): A received CAPX block; three identical ones accept the record and admission is decided. -/
  | capx (p : PortId) (j : LaneIx) (rec : BitVec 128)
  /-- `CONTROL_BLOCK_RESERVED` (R425): A reserved or bad control block is counted in BAD_CTL and handled as FILLER. -/
  | controlBlockReserved (p : PortId) (j : LaneIx) (type : BitVec 8) (comp : BitVec 8) (second : Bool)
  /-- `LANE_TRAINING_MARKER` (R433): A training marker arrives and a lane may become done. -/
  | laneTrainingMarker (p : PortId) (j : LaneIx) (payload : BitVec 32) (sent : Nat) (inverted : Bool)
  /-- `LANE_PARTNER_DETECT` (R432): A partner termination detected for 100 µs takes the port from DETECT to TRAIN. -/
  | lanePartnerDetect (p : PortId) (lanes : BitVec 8)
  /-- `PORT_STATE_TIMEOUT` (R432): The TRAIN, LOCK, CAPX or WAKE limit expires and the port moves on or returns to DETECT. -/
  | portStateTimeout (p : PortId)
  /-- `LANE_SIGNAL_LOSS` (R432): Signal or frame lock is lost on every lane without ENTER, returning the port to DETECT. -/
  | laneSignalLoss (p : PortId) (signal : Bool) (boundary : Bool)
  /-- `LANE_WAKE_DETECT` (R439): A low-power end's signal detector sees training blocks and the end wakes. -/
  | laneWakeDetect (p : PortId)
  /-- `LANE_REFRESH_BURST` (R438): Every 100 µs in SHALLOW the transmitter sends a 1 µs refresh burst. -/
  | laneRefreshBurst (p : PortId)
  /-- `LANE_CAL_COMPLETE` (R436): A lane's offset calibration ends with OK, CAL_INPUT_ACTIVE or RANGE. -/
  | laneCalComplete (p : PortId) (j : LaneIx) (res : CalResult) (trim : Nat)
  /-- `LNK_CAL_GO` (R436): A write of LNK_CAL.GO starts calibration, or marks each lane REJECTED. -/
  | lnkCalGo (p : PortId)
  /-- `LNK_CTL_START` (R432): A write of LNK_CTL.START begins bring-up from OFF. -/
  | lnkCtlStart (p : PortId)
  /-- `LNK_CTL_STOP` (R432): A write of LNK_CTL.STOP sends the port to OFF. -/
  | lnkCtlStop (p : PortId)
  /-- `LPREQ_SHALLOW` (R439): LPREQ 1 requests entry to SHALLOW. -/
  | lpreqShallow (p : PortId)
  /-- `LPREQ_DEEP` (R439): LPREQ 2 requests entry to DEEP. -/
  | lpreqDeep (p : PortId)
  /-- `LPREQ_WAKE` (R439): LPREQ 3 wakes the port from a low-power state. -/
  | lpreqWake (p : PortId)
  /-- `LNK_LOOP_WRITE` (R441): A write of LNK_CTL.LOOP selects a loopback, and 0 leaves LOOPBACK for CAL. -/
  | lnkLoopWrite (p : PortId) (loop : BitVec 2)
  /-- `SEQUENCER_FAULT` (R444): A lane-group sequencer faults and every port of the group goes OFF. -/
  | sequencerFault (g : Fin 4)
  /-- `EYE_SCAN_GO` (R440): A write of LNK_LN_EYE_CTL.GO starts an eye scan or sets EYE_REJ. -/
  | eyeScanGo (p : PortId) (j : LaneIx) (data : Word)
  /-- `EYE_SCAN_ABORT` (R446): A write of ABORT ends a scan with EYE_ABORTED. -/
  | eyeScanAbort (p : PortId) (j : LaneIx) (data : Word) (smp : Nat) (err : Nat)
  /-- `EYE_SCAN_COMPLETE` (R440): An eye scan takes its 2^LOGN samples and sets EYE_DONE. -/
  | eyeScanComplete (p : PortId) (j : LaneIx) (err : Nat)
  /-- `LINK_DATA_UNIT_RECEIVE` (R455): A data unit is accepted in sequence, or discarded with a NACK. -/
  | linkDataUnitReceive (p : PortId) (bits : BitVec 256) (bad : Bool)
  /-- `ACK` (R455): A received ACK releases replay-buffer units. -/
  | ack (p : PortId) (seq : BitVec 16)
  /-- `NACK` (R455): A received NACK makes the sender replay from the named unit. -/
  | nack (p : PortId) (seq : BitVec 16)
  /-- `REPLAY` (R455): A received REPLAY resumes acceptance at the named unit. -/
  | replay (p : PortId) (seq : BitVec 16)
  /-- `CREDIT` (R456): A received CREDIT updates the running credit count of a pool. -/
  | credit (p : PortId) (pool : BitVec 3) (count : BitVec 13)
  /-- `IDLE` (R454): A received IDLE control unit carries nothing. -/
  | idle (p : PortId)
  /-- `WREQ` (R460): A received WREQ is answered with WACK for the proposed or current mask. -/
  | wreq (p : PortId) (mask : BitVec 8)
  /-- `WACK` (R460): A received WACK lets the end switch to the new mask and send WSW. -/
  | wack (p : PortId) (mask : BitVec 8)
  /-- `WSW` (R460): A received WSW switches the receiver to the new lane mask. -/
  | wsw (p : PortId)
  /-- `CONTROL_UNIT_RESERVED` (R454): A reserved control unit is ignored and counted in BAD_CU. -/
  | controlUnitReserved (p : PortId) (bits : BitVec 256)
  /-- `LINK_REPLAY_TIMEOUT` (R455): No ACK advance for 10 µs replays from the oldest unit; the fourth requests a retrain. -/
  | linkReplayTimeout (p : PortId)
  /-- `WREQ_RESEND_TIMEOUT` (R460): A WREQ unanswered for 1 µs is sent again. -/
  | wreqResendTimeout (p : PortId)
  /-- `HELD_RETRAIN_TIMER` (R458): Every 100 ms a port held for MISMATCH or WIDTH sends a RETRAIN. -/
  | heldRetrainTimer (p : PortId)
  /-- `LNK_FAB_RELEASE` (R458): A write of RELEASE sends RETRAIN from HELD. -/
  | lnkFabRelease (p : PortId)
  /-- `LNK_FAB_HOLD` (R458): A write of HOLD puts the port in HELD with reason SOFTWARE. -/
  | lnkFabHold (p : PortId)
  /-- `LNK_FAB_RETRAIN` (R459): A write of RETRAIN requests a retrain. -/
  | lnkFabRetrain (p : PortId)
  /-- `LNK_FAB_WMASK` (R460): A non-zero write of WMASK starts a narrowing. -/
  | lnkFabWmask (p : PortId) (mask : BitVec 8)
  /-- `FABRIC_PACKET_RECEIVE` (R468): A link delivers a packet in LSEQ order, which is served locally or routed on. -/
  | fabricPacketReceive (p : PortId) (vc : Fin 3)
  /-- `REMOTE_REQUEST` (R471): A request from another device is admitted or refused with DENY at the target. -/
  | remoteRequest (src : BitVec 14) (txn : BitVec 16)
  /-- `LINK_REQUEST_SLOT_TIMEOUT` (R465): A link request slot 1 ms old frees and its requester receives a bus error. -/
  | linkRequestSlotTimeout (txn : BitVec 16)
  /-- `FAB_ROUTE_WRITE` (R467): A write of MC_FAB_RT changes the route for later packets. -/
  | fabRouteWrite (dev : BitVec 14) (data : Dword)
  /-- `FACE_DATA_PACKET_RECEIVE` (R486): A guest packet is accepted in sequence on a slice, or discarded on CRC error with a NACK. -/
  | faceDataPacketReceive (n : SiteId) (sl : Fin 20) (beats : List Beat) (short : Nat)
  /-- `FACE_READ` (R491): A guest READ of lines or a register is checked and sent to its home. -/
  | faceRead (n : SiteId) (sl : Fin 20)
  /-- `FACE_WRITE` (R491): A guest WRITE of whole lines is checked and sent to its home. -/
  | faceWrite (n : SiteId) (sl : Fin 20)
  /-- `FACE_WRITE_MASKED` (R491): A guest masked one-line or register write. -/
  | faceWriteMasked (n : SiteId) (sl : Fin 20)
  /-- `FACE_ATOMIC` (R491): A guest atomic is performed at its home. -/
  | faceAtomic (n : SiteId) (sl : Fin 20)
  /-- `FACE_DOORBELL` (R490): A guest doorbell is delivered to a vat of OWNER, or dropped. -/
  | faceDoorbell (n : SiteId) (sl : Fin 20)
  /-- `FACE_REPLY_RETURN` (R491): A reply to a guest request returns and the response is sent on its slice. -/
  | faceReplyReturn (n : SiteId) (tag : Nat) (r : Reply)
  /-- `FACE_ACK` (R486): A received ACK control beat releases replay packets. -/
  | faceAck (n : SiteId) (sl : Fin 20) (seq : BitVec 12)
  /-- `FACE_NACK` (R486): A received NACK beat makes Bodra replay from the named packet. -/
  | faceNack (n : SiteId) (sl : Fin 20) (seq : BitVec 12)
  /-- `FACE_REPLAY` (R486): A received REPLAY beat resumes acceptance. -/
  | faceReplay (n : SiteId) (sl : Fin 20) (seq : BitVec 12)
  /-- `FACE_CREDIT` (R488): A received CREDIT beat updates a VC's credits. -/
  | faceCredit (n : SiteId) (sl : Fin 20) (vc : BitVec 2) (count : BitVec 14)
  /-- `FACE_CAP` (R495): A received CAP beat is accepted if version 1 and a large enough VC1 buffer. -/
  | faceCap (n : SiteId) (sl : Fin 20) (version : BitVec 8) (depth : BitVec 12)
  /-- `FACE_CONTROL_RESERVED` (R487): A reserved control beat is ignored and counted. -/
  | faceControlReserved (n : SiteId) (sl : Fin 20) (ctype : BitVec 4)
  /-- `FACE_REPLAY_TIMEOUT` (R486): No ACK progress for 2 µs replays from the oldest packet. -/
  | faceReplayTimeout (n : SiteId) (sl : Fin 20)
  /-- `FACE_STROBE_RETRIM` (R485): Every 1 ms the transmit delay line is retrimmed against MC_TSC. -/
  | faceStrobeRetrim (n : SiteId)
  /-- `FACE_CTL_START` (R494): FACE_CTL.START starts a site with OCC 2 from OFF. -/
  | faceCtlStart (n : SiteId)
  /-- `FACE_CTL_STOP` (R494): FACE_CTL.STOP sends the site to OFF. -/
  | faceCtlStop (n : SiteId)
  /-- `FACE_CTL_HOLD` (R494): FACE_CTL.HOLD puts the site in HELD with reason SOFTWARE. -/
  | faceCtlHold (n : SiteId)
  /-- `FACE_CTL_RELEASE` (R494): FACE_CTL.RELEASE leaves HELD for TRAIN, or for POWER after a power hold. -/
  | faceCtlRelease (n : SiteId)
  /-- `FACE_FPG_RISE` (R494): FPG rises with Gs good and the site leaves POWER for RESET. -/
  | faceFpgRise (n : SiteId) (gsGood : Bool)
  /-- `FACE_FPG_FALL` (R494): FPG falls and an ACTIVE or HELD site goes to RESET. -/
  | faceFpgFall (n : SiteId)
  /-- `FACE_POWER_TIMEOUT` (R494): 50 ms in POWER without Gs good and FPG makes the site FAILED. -/
  | facePowerTimeout (n : SiteId)
  /-- `FACE_RESET_RELEASE` (R494): After FRST_N low 10 µs and released 100 µs the site enters TRAIN. -/
  | faceResetRelease (n : SiteId)
  /-- `FACE_SLICE_TRAINED` (R495): A slice receives 65,536 error-free pattern beats and is trained. -/
  | faceSliceTrained (n : SiteId) (sl : Fin 20)
  /-- `FACE_TRAIN_TIMEOUT` (R494): 20 ms in TRAIN without enough slices returns to RESET, or FAILED at the fourth try. -/
  | faceTrainTimeout (n : SiteId)
  /-- `FACE_ALARM` (R496): FALM_N asserted writes FACE_ALARM and raises the site's alarm source. -/
  | faceAlarm (n : SiteId)
  /-- `FACE_OVERCURRENT` (R496): A guest draws above BUDGET; its current is limited and FACE_PWR written. -/
  | faceOvercurrent (n : SiteId) (amps : BitVec 16)
  /-- `FACE_OVERCURRENT_TIMEOUT` (R496): An excess lasting 10 ms switches Gs off and holds the site with reason POWER. -/
  | faceOvercurrentTimeout (n : SiteId) (amps : BitVec 16)
  /-- `GUEST_SUPPLY_SHORT` (R543): Gs below 50 % of VSET for 10 µs is switched off and the site held. -/
  | guestSupplyShort (n : SiteId) (amps : BitVec 16)
  /-- `FACE_STALL_TIMEOUT` (R500): No VC1 credit for 1 ms while a response waits holds the site with reason STALL. -/
  | faceStallTimeout (n : SiteId) (sl : Fin 20)
  /-- `HOST_BAR_ACCESS` (R503): A PCIe memory request through a BAR reaches register space or is answered as an error. -/
  | hostBarAccess (fn : Fin 64) (req : HostReq)
  /-- `CMD_W0_WRITE` (R506): A write of CMD_W0 starts a ring item, discarding any partial one. -/
  | cmdW0Write (r : RingId) (data : Dword)
  /-- `CMD_WORD_WRITE` (R506): A write of CMD_W1 to CMD_W6 is taken in order or dropped and sets DISCARD. -/
  | cmdWordWrite (r : RingId) (w : Fin 6) (data : Dword)
  /-- `CMD_W7_COMMIT` (R507): Taking CMD_W7 commits the item, which is accepted with a handle or refused. -/
  | cmdW7Commit (r : RingId) (who : Option (Fin 64)) (data : Dword)
  /-- `NOP` (R508): Command NOP completes with DETAIL zero. -/
  | nop (r : RingId)
  /-- `IMAGE_LOAD` (R508): Command IMAGE_LOAD loads a full or partition image from the host window. -/
  | imageLoad (r : RingId) (img : List Byte)
  /-- `ZEROISE` (R631): Command ZEROISE writes zero to crock or cellar units of the ring's partition. -/
  | zeroise (r : RingId)
  /-- `MIGRATE` (R508): Command MIGRATE migrates pages under steps 2–6 of R408. -/
  | migrate (r : RingId) (copies : List (Option (List (BitVec 19 × Line))))
  /-- `TEST` (R508): Command TEST runs a crock or cellar generator on a free channel. -/
  | test (r : RingId) (crk : List (Nat × List (BitVec 20))) (cel : List (Nat × List (BitVec 72)))
  /-- `TWIN_SYNC` (R606): Command TWIN_SYNC pairs with the partner's command and synchronises the twin. -/
  | twinSync (r : RingId)
  /-- `KEEP_QUERY` (R508): Command KEEP_QUERY writes the keep table to the host window. -/
  | keepQuery (r : RingId)
  /-- `KEEP_TAG` (R508): Command KEEP_TAG sets the tag of a keep entry. -/
  | keepTag (r : RingId)
  /-- `KEEP_DROP` (R508): Command KEEP_DROP removes a keep entry unless it is active. -/
  | keepDrop (r : RingId)
  /-- `CMD_RESERVED_OPCODE` (R507): A committed item with a reserved opcode is refused MALFORMED. -/
  | cmdReservedOpcode (r : RingId) (who : Option (Fin 64)) (data : Dword)
  /-- `CQ_RECORD_READBACK` (R509): After a batch of completion records the read-back returns, PROD is written and the ring source raised. -/
  | cqRecordReadback (r : RingId)
  /-- `CQ_CONS_WRITE` (R509): A write of CQ_CONS consumes completion records, or is ignored and counted. -/
  | cqConsWrite (r : RingId) (data : Word)
  /-- `RING_FLUSH` (R511): RING_CTL.FLUSH discards staging and unstarted items with FLUSHED. -/
  | ringFlush (r : RingId)
  /-- `RING_ENABLE_WRITE` (R509): A write of RING_CTL.EN; going to 1 zeroes ring bytes 4–63. -/
  | ringEnableWrite (r : RingId) (data : Word)
  /-- `HOST_LINK_DOWN` (R515): Link down, hot reset or PERST# resets PD_HOST, flushes rings and disables windows. -/
  | hostLinkDown 
  /-- `FLR_VF` (R515): An FLR of a VF flushes its partition's ring and disables its windows. -/
  | flrVf (n : Fin 64)
  /-- `FLR_PF` (R515): An FLR of the PF acts as a hot reset without the link event. -/
  | flrPf 
  /-- `HOST_COMPLETION` (R517): A PCIe completion for a device read arrives, or is unexpected and dropped. -/
  | hostCompletion (tag : Nat) (c : HostCpl)
  /-- `HOST_COMPLETION_TIMEOUT` (R517): No completion within 750 µs gives the requester a bus error. -/
  | hostCompletionTimeout (tag : Nat)
  /-- `POWER_FAIL_WARNING` (R516): PFW_N or PWR_OK falling enters the keep state, placing kept memory in self-refresh. -/
  | powerFailWarning (noCrk : BitVec 128) (noCel : BitVec 8)
  /-- `DOORBELL` (R522): A doorbell reaches a vat event unit and sets its source's pending bit. -/
  | doorbell (v : VatId) (src : BitVec 8)
  /-- `VAT_EV_DBELL_WRITE` (R522): A write of VAT_EV_DBELL delivers a doorbell. -/
  | vatEvDbellWrite (v : VatId) (data : Word)
  /-- `VAT_EVENT` (R523): A hardware source sets its pending bit, possibly a core's event latch, and updates the summary. -/
  | vatEvent (v : VatId) (src : Fin 16)
  /-- `DIC_LEVEL_CHANGE` (R525): A source level change reaches the DIC, setting or withdrawing its pending bit and counting. -/
  | dicLevelChange (n : Fin 256)
  /-- `DIC_CLAIM` (R529): A read of a claim address claims a seen source or returns 0x3FF. -/
  | dicClaim (t : TargetIx) (fast : Bool) (n : Fin 256)
  /-- `DIC_COMPLETE` (R530): A write of a completion register ends service and re-samples the level, or is counted. -/
  | dicComplete (t : TargetIx) (fast : Bool) (data : Word)
  /-- `DIC_RESAMPLE` (R535): A write of DIC_RESAMPLE sets pending bits of active sources not in service. -/
  | dicResample (fast : Bool) (data : Word)
  /-- `DIC_MASK_WRITE` (R531): A write of DIC_MASK; unmasking a seen source counts toward delivery. -/
  | dicMaskWrite (fast : Bool) (w : Fin 4) (data : Dword)
  /-- `DIC_SRC_WRITE` (R527): A write of DIC_SRC changes targets or class, moving the pending bit between banks. -/
  | dicSrcWrite (n : Fin 256) (data : Dword)
  /-- `DIC_COAL_TIMEOUT` (R531): A coalescing timer reaches TIME and the target and class deliver. -/
  | dicCoalTimeout (t : TargetIx) (fast : Bool)
  /-- `DIC_AUTO_COMPLETE` (R533): An AUTO source's MSI-X messages are sent and hardware completes and re-samples it. -/
  | dicAutoComplete (n : Fin 256)
  /-- `VAT_VOLTAGE_LOOP` (R546): Every 10 µs a vat's loop measures busy fraction and sets its applied voltage. -/
  | vatVoltageLoop (v : VatId) (b : Fin 1025)
  /-- `POWER_GOVERNOR` (R548): Every 100 µs the governor measures Bodra power and moves the device cap. -/
  | powerGovernor (bodra guest gloss : BitVec 16)
  /-- `DIE_CAP_STEP` (R548): At each 100 µs mark an active die cap falls or rises by 10 mV. -/
  | dieCapStep (v : VatId)
  /-- `VAT_CURRENT_LIMIT` (R548): A vat regulator reaches 24 A and the current cap falls. -/
  | vatCurrentLimit (v : VatId) (amps : BitVec 16)
  /-- `SENSOR_SAMPLE` (R544): Every 10 µs each temperature sensor is sampled and the alerts of R550 judged. -/
  | sensorSample (n : Fin 136) (temp : BitVec 8)
  /-- `POWER_OVER_LIMIT` (R550): Power above LIMIT for 1 ms with the cap at 0.55 V sets PWR_EVT.OVER. -/
  | powerOverLimit 
  /-- `THERMAL_TRIP` (R551): A sensor at 120 °C trips the device off without firmware. -/
  | thermalTrip (src : BitVec 12) (temp : BitVec 8) (mram : Fin 4)
  /-- `REGULATOR_FAULT` (R556): A regulator faults and its domain is switched off into FAULT. -/
  | regulatorFault (u : Regulator) (reason : RegReason)
  /-- `DOMAIN_REQ_ON` (R542): PWR_DOM_CTL.REQ ON starts a permitted domain ramp, or is counted. -/
  | domainReqOn (d : DomId)
  /-- `DOMAIN_REQ_OFF` (R542): PWR_DOM_CTL.REQ OFF starts a permitted domain drain, or is counted. -/
  | domainReqOff (d : DomId)
  /-- `DOMAIN_RAMP_COMPLETE` (R555): A domain's ramp and initialisation end and it becomes ON. -/
  | domainRampComplete (d : DomId)
  /-- `DOMAIN_DRAIN_COMPLETE` (R555): A domain's drain ends and it becomes OFF. -/
  | domainDrainComplete (d : DomId)
  /-- `PWR_DOM_SHADOW_WRITE` (R559): A management-core write of a domain shadow, clearing the skew bit when equal. -/
  | pwrDomShadowWrite (d : DomId) (data : Word)
  /-- `STATE_SKEW` (R559): A shadow differing from STATE for SKEW_T raises STATE_SKEW. -/
  | stateSkew (d : DomId)
  /-- `PWR_VAT_V_WRITE` (R563): A write of FLOOR, CAP or POLICY takes effect next interval, or is ignored and counted. -/
  | pwrVatVWrite (v : VatId) (data : Dword)
  /-- `PWR_LIMIT_WRITE` (R562): A write of PWR_LIMIT clamped to POWER_LIMIT. -/
  | pwrLimitWrite (data : Word)
  /-- `PWR_G_CFG_WRITE` (R564): A write of VSET ramps the guest supply, or is ignored and counted. -/
  | pwrGCfgWrite (n : SiteId) (data : Word)
  /-- `AUX_POWER_ON` (R647): VAUX and the 100 MHz reference appear and PD_AON starts MC_TSC. -/
  | auxPowerOn 
  /-- `AUX_POWER_LOSS` (R515): Auxiliary power is lost and everything, including keep entries, is lost. -/
  | auxPowerLoss 
  /-- `POWER_OK_RISE` (R647): PWR_OK rises and a start begins. -/
  | powerOkRise (vret : Bool) (noCel : BitVec 8)
  /-- `SYS_RESET_PIN` (R565): SYS_RST_N held low requests a start with cause 2. -/
  | sysResetPin 
  /-- `SYS_REFCLK_LOST` (R650): REFCLK_SYS shows no edge for 2 µs and the device becomes fatal. -/
  | sysRefclkLost 
  /-- `DEVICE_START` (R566): A start runs its phases: boot, networks, memories, links, core tests and image load. -/
  | deviceStart (r : StartRun)
  /-- `MC_BOOT_RESET` (R591): Writing 0xB0 to MC_BOOT_CTL.RESET resets the device with cause 3. -/
  | mcBootReset (data : Word)
  /-- `BOOT_WATCHDOG_EXPIRY` (R571): RESULT still RUNNING 10 s after power-good resets the device with cause 4. -/
  | bootWatchdogExpiry 
  /-- `VAT_TEST_GO_S` (R579): A write of GO_S starts the structural test of a vat's cores. -/
  | vatTestGoS (v : VatId)
  /-- `VAT_TEST_GO_F` (R580): A write of GO_F starts the functional test run of a vat's cores. -/
  | vatTestGoF (v : VatId)
  /-- `VAT_TEST_RUN_END` (R580): A core test run ends with passes, traps or timeouts recorded in VAT_TEST_FAIL. -/
  | vatTestRunEnd (v : VatId) (fails : BitVec 72)
  /-- `TOPOLOGY_CHECK_TIMEOUT` (R586): TOPO_WAIT passes with expected ports missing and RESULT becomes READY_DEGRADED. -/
  | topologyCheckTimeout 
  /-- `TWIN_OWN_RECORD` (R599): A closed window's record reaches the TWIN block, is stored or compared and sent to the partner. -/
  | twinOwnRecord (v : VatId) (st : Fin 129) (err : HdrErr) (agree : Bool)
  /-- `TWIN_PARTNER_RECORD` (R599): A partner signature record arrives and is stored or compared. -/
  | twinPartnerRecord (rec : BitVec 124) (err : HdrErr) (agree : Bool)
  /-- `TWIN_MATCH_TIMEOUT` (R600): A delay-ring entry unmatched for MATCH_T is a missing record. -/
  | twinMatchTimeout (e : Fin 4096)
  /-- `TWIN_INJECTED_TEST` (R601): At each 10 ms mark the comparators are given test pairs. -/
  | twinInjectedTest (good : Bool)
  /-- `TWIN_TEST_GO` (R601): A write of TWIN_CTL.TEST_GO runs an injected test. -/
  | twinTestGo (good : Bool)
  /-- `TWIN_LEAD` (R612): A write of TWIN_CTL.LEAD in ALONE or BROKEN makes the device leader. -/
  | twinLead 
  /-- `TWIN_NOTICE` (R603): A notice arrives from the partner and the device takes the same transition. -/
  | twinNotice (code : BitVec 8) (peer : Option (Bool × Bool))
  /-- `TWIN_LINK_LOST_TIMEOUT` (R603): No usable twin port for LOST_T moves the pair to ALONE. -/
  | twinLinkLostTimeout 
  /-- `TWIN_SYNC_PAIR_TIMEOUT` (R606): A TWIN_SYNC unpaired within SYNC_T fails. -/
  | twinSyncPairTimeout 
  /-- `TWIN_SYNC_WRITE` (R609): A sync write from the source arrives at the sink and is acknowledged. -/
  | twinSyncWrite (addr : Dword)
  /-- `TWIN_SYNC_COPY_DONE` (R607): The sync copy ends and SYNC_DONE notices enter CHECKED. -/
  | twinSyncCopyDone 
  /-- `ENROLL` (R624): Rind command ENROLL makes an empty slot ACTIVE, or claims the device. -/
  | enroll (blk : List Byte)
  /-- `REVOKE` (R624): Rind command REVOKE revokes a slot for ever. -/
  | revoke (blk : List Byte)
  /-- `SET_MINSEQ` (R624): Rind command SET_MINSEQ raises the image sequence minimum. -/
  | setMinseq (blk : List Byte)
  /-- `FW_UPDATE` (R627): Rind command FW_UPDATE writes an authentic firmware bank and sets it on trial. -/
  | fwUpdate (blk : List Byte)
  /-- `SET_FWSVN` (R624): Rind command SET_FWSVN raises MIN_SVN. -/
  | setFwsvn (blk : List Byte)
  /-- `DEBUG_UNLOCK` (R635): Rind command DEBUG_UNLOCK zeroises and opens debug until the next start. -/
  | debugUnlock (blk : List Byte)
  /-- `DECOMMISSION` (R632): Rind command DECOMMISSION returns the device to its unclaimed state. -/
  | decommission (blk : List Byte)
  /-- `ATTEST` (R634): Rind command ATTEST writes a signed attestation report. -/
  | attest (blk : List Byte)
  /-- `RIND_CMD_RESERVED` (R626): A Rind block with a reserved CODE fails with BAD_FORMAT. -/
  | rindCmdReserved (blk : Option (List Byte))
  /-- `RIND_SELFTEST` (R618): A write of RIND_CTL.SELFTEST runs the known-answer tests. -/
  | rindSelftest (fail : Option (Fin 8))
  /-- `RIND_ENTROPY_SAMPLE` (R618): An entropy sample passes the continuous tests, or their failure makes the device fatal. -/
  | rindEntropySample (ok : Bool)
  /-- `DRBG_RESEED` (R617): After 2^20 requests the DRBG is reseeded. -/
  | drbgReseed 
  /-- `SIDEBAND_READ` (R654): An I3C or SMBus read transaction returns a permitted register. -/
  | sidebandRead (off : Word) (size : SbSize)
  /-- `SIDEBAND_WRITE` (R654): An I3C or SMBus write transaction reaches MC_BOOT_CTL or is not acknowledged. -/
  | sidebandWrite (off data : Word)
  /-- `EXTEST` (R656): JTAG instruction EXTEST, permitted only while RESULT is FAILED or READY_UNCONF. -/
  | extest 
  /-- `IDCODE` (R656): JTAG instruction IDCODE selects the identification register. -/
  | idcode 
  /-- `SAMPLE_PRELOAD` (R656): JTAG instruction SAMPLE/PRELOAD. -/
  | samplePreload 
  /-- `FACE_SEL` (R656): JTAG instruction FACE_SEL places a site's IEEE 1838 port in the chain. -/
  | faceSel (n : SiteId)
  /-- `DIE_WRAP` (R656): JTAG instruction DIE_WRAP selects the die wrapper, or acts as BYPASS while locked. -/
  | dieWrap 
  /-- `IJTAG` (R656): JTAG instruction IJTAG selects the IEEE 1687 network, or acts as BYPASS while locked. -/
  | ijtag 
  /-- `MC_DEBUG` (R656): JTAG instruction MC_DEBUG selects the management core's debug module, or acts as BYPASS while locked. -/
  | mcDebug 
  /-- `BYPASS` (R656): JTAG instruction BYPASS, also taken by reserved codes. -/
  | bypass (code : BitVec 8)
  /-- `BLOCK_LOCK` (R429): A receiving lane tests the header of each block on the line, and so finds or loses block lock, and from first blocks at 85-block spacing finds or loses frame lock. -/
  | blockLock (p : PortId) (j : LaneIx) (hdr : BitVec 2)
  /-- `LANE_REF_PRESENT` (R578): A lane-group reference appears, the PLL locks, REF_OK is set and the group's ports may start. -/
  | laneRefPresent (g : Fin 4)
  /-- `HOST_LINK_UP` (R519): The PCIe link trains and the data link comes up, setting DL_UP, WIDTH, SPEED and FLIT. -/
  | hostLinkUp (width speed : Nat) (flit : Bool)
  /-- `CONFIGURATION_REQUEST` (R568): A PCIe configuration request is answered with Request Retry Status during a start, and normally afterwards, including by disabled VFs. -/
  | configurationRequest (fn : Fin 64)
  /-- `CELLAR_REFRESH` (R345): The cellar controller issues per-bank refresh to its stack at the rate set from the stack's temperature readout. -/
  | cellarRefresh (p : CelId)
  /-- `FALM_N_DEASSERT` (R496): A guest releases FALM_N, clearing FACE_STAT.FALM and dropping the level of DIC source FACE_ALARM so its pending bit is withdrawn. -/
  | falmNDeassert (n : SiteId)
  deriving DecidableEq, Repr

end Sys2Proof
end

