-- ==== Sys2Proof/Machine/Encode.lean ====
section
/-! DEFINITION. The instruction words of the curd core (04 R113 to R119): each format packed into 32 bits. A trap
record needs the word (`TINSN`, R124); the decoder in Decode.lean is the other direction. -/

namespace Sys2Proof.Machine

open Sys2Proof

/-- Format R. -/
def encR (op : BitVec 6) (r : RArg) (fn : BitVec 6) : Word := op ++ r.rd ++ r.rs1 ++ r.rs2 ++ r.fx ++ fn
/-- Format I. -/
def encI (op : BitVec 6) (a : IArg) : Word := op ++ a.rd ++ a.rs1 ++ a.imm
/-- Format S. -/
def encS (op : BitVec 6) (a : SArg) : Word := op ++ a.rs2 ++ a.rs1 ++ a.imm
/-- Format B. -/
def encB (op : BitVec 6) (rs1 rs2 : BitVec 5) (off : BitVec 16) : Word := op ++ rs1 ++ rs2 ++ off
/-- Format J. -/
def encJ (op : BitVec 6) (off : BitVec 26) : Word := op ++ off
/-- Format V. -/
def encV (op : BitVec 6) (v : VArg) : Word := op ++ v.vd ++ v.vs1 ++ v.vs2 ++ v.pm ++ v.fmt ++ v.fn
/-- Format VS. -/
def encVS (op : BitVec 6) (v : VSArg) : Word := op ++ v.vd ++ v.vs1 ++ v.rs ++ v.lane ++ v.res ++ v.fn
/-- Format VM. -/
def encVM (op : BitVec 6) (vr : BitVec 4) (a : VMArg) : Word := op ++ vr ++ a.st ++ a.rs1 ++ a.imm
/-- Format D. -/
def encD (op : BitVec 6) (d : DArg) (fn : BitVec 3) : Word :=
  op ++ d.ad ++ d.res ++ d.vA ++ d.vB ++ d.pm ++ d.fmt ++ d.sel ++ fn
/-- Format X. -/
def encX (op : BitVec 6) (x : XArg) : Word :=
  op ++ x.ad ++ x.ss ++ x.vs1 ++ x.vs2 ++ x.fmt ++ x.afmt ++ x.sel ++ x.fn

/-- The major opcode of a branch (R114). -/
def brCode : BrOp → BitVec 6
  | .beq => 0x18 | .bne => 0x19 | .blt => 0x1A | .bge => 0x1B | .bltu => 0x1C | .bgeu => 0x1D

/-- The function code of an atomic (R115). -/
def amoCode : AmoFn → BitVec 6
  | .aadd => 0 | .aand => 1 | .aor => 2 | .axor => 3 | .aswap => 4 | .amin => 5 | .amax => 6 | .aminu => 7 | .amaxu => 8

end Sys2Proof.Machine
end

