-- ==== Sys2Proof/Decode.lean ====
section
/-! DEFINITION. The commands that words spell. No row of the opcode table has bits, so that `decodeTableWord` knows no
word. The words of curd core instructions are the spec's own (04 R113 to R119): `coreDecode` says which command each
stands for, `coreWord` which word a command carries. -/

namespace Sys2Proof

open Sys2Proof.Machine

/-- The table gives no row a word (each row's `fields` is empty). -/
def decodeTableWord (_nbits _w : Nat) : Option Instr := none

/-! ### Fields of a word (04 R113) -/

/-- Bits [lo + n - 1 : lo] of a word. -/
def fieldOf (w : Word) (lo n : Nat) : BitVec n := w.extractLsb' lo n

/-- The fields of each format. -/
def decR (w : Word) : RArg := ⟨fieldOf w 21 5, fieldOf w 16 5, fieldOf w 11 5, fieldOf w 6 5⟩
def decI (w : Word) : IArg := ⟨fieldOf w 21 5, fieldOf w 16 5, fieldOf w 0 16⟩
def decS (w : Word) : SArg := ⟨fieldOf w 21 5, fieldOf w 16 5, fieldOf w 0 16⟩
def decV (w : Word) : VArg :=
  ⟨fieldOf w 22 4, fieldOf w 18 4, fieldOf w 14 4, fieldOf w 11 3, fieldOf w 7 4, fieldOf w 0 7⟩
def decVS (w : Word) : VSArg :=
  ⟨fieldOf w 22 4, fieldOf w 18 4, fieldOf w 13 5, fieldOf w 9 4, fieldOf w 7 2, fieldOf w 0 7⟩
def decVM (w : Word) : VMArg := ⟨fieldOf w 21 1, fieldOf w 16 5, fieldOf w 0 16⟩
def decD (w : Word) : DArg :=
  ⟨fieldOf w 24 2, fieldOf w 22 2, fieldOf w 18 4, fieldOf w 14 4, fieldOf w 11 3, fieldOf w 7 4, fieldOf w 3 4⟩
def decX (w : Word) : XArg :=
  ⟨fieldOf w 24 2, fieldOf w 19 5, fieldOf w 15 4, fieldOf w 11 4, fieldOf w 7 4, fieldOf w 5 2, fieldOf w 2 3, fieldOf w 0 2⟩

/-- The branch of a major opcode. -/
def branchOf (op : BitVec 6) : Option BrOp :=
  if op = 0x18 then some .beq else if op = 0x19 then some .bne else if op = 0x1A then some .blt
  else if op = 0x1B then some .bge else if op = 0x1C then some .bltu else if op = 0x1D then some .bgeu else none

/-- The atomic of a function code. -/
def atomicOf (fn : BitVec 6) : Option AmoFn :=
  if fn = 0 then some .aadd else if fn = 1 then some .aand else if fn = 2 then some .aor else if fn = 3 then some .axor
  else if fn = 4 then some .aswap else if fn = 5 then some .amin else if fn = 6 then some .amax
  else if fn = 7 then some .aminu else if fn = 8 then some .amaxu else none

/-! ### Decoding (04 R114, R115) -/

/-- The operations of an opcode whose functions are instructions of their own; none for an undefined function. -/
def subDecode (c : CoreId) (w : Word) : Option Instr :=
  let op := fieldOf w 26 6
  let r := decR w
  let f6 := fieldOf w 0 6
  let f3 := fieldOf w 0 3
  let vm := decVM w
  let d := decD w
  if op = 0x14 then
    let v := fieldOf w 22 4
    if v = 0 then some (.cachePref c vm) else if v = 1 then some (.cacheZero c vm)
    else if v = 2 then some (.cacheInvl c vm) else if v = 3 then some (.cacheInvall c vm) else none
  else if op = 0x28 then
    if f3 = 0 then some (.dot c d) else if f3 = 1 then some (.dotP c d) else none
  else if op = 0x2A then
    if f3 = 0 then some (.accClr c d) else if f3 = 1 then some (.accRd c d) else if f3 = 2 then some (.accRdc c d)
    else if f3 = 3 then some (.accAddv c d) else if f3 = 4 then some (.accPart c d) else none
  else if op = 0x30 then
    if f6 = 0 then some (.send c r) else if f6 = 1 then some (.sendu c r) else if f6 = 2 then some (.dbell c r) else none
  else if op = 0x31 then
    if f6 = 0 then some (.recv c r) else if f6 = 1 then some (.recvnb c r) else none
  else if op = 0x32 then
    if f6 = 0 then some (.tinc c r) else if f6 = 1 then some (.twait c r) else if f6 = 2 then some (.trd c r)
    else if f6 = 3 then some (.tsett c r) else none
  else if op = 0x33 then
    if f6 = 0 then some (.lsubmit c r) else none
  else if op = 0x34 then
    if f6 = 9 then some (.acas c r) else (atomicOf f6).map (fun fn => .atom c r fn)
  else if op = 0x36 then
    if f6 = 0 then some (.syncI c r) else if f6 = 1 then some (.fence c r) else if f6 = 2 then some (.yield c r)
    else if f6 = 3 then some (.wfe c r) else if f6 = 4 then some (.trap c r) else if f6 = 5 then some (.rdtsc c r 0)
    else if f6 = 6 then some (.halt c r) else if f6 = 7 then some (.tret c r) else none
  else none

/-- The command that a word at core `c` is. What a command carries beside the word (an injected parity error, how far a
vat's copy of the time lags) is at its plainest. -/
def coreDecode (c : CoreId) (w : Word) : Instr :=
  let op := fieldOf w 26 6
  if op = 0x01 then .alu c (decR w) (fieldOf w 0 6)
  else if op = 0x02 then .addi c (decI w)
  else if op = 0x03 then .andi c (decI w)
  else if op = 0x04 then .ori c (decI w)
  else if op = 0x05 then .shi c (decI w)
  else if op = 0x06 then .lui c (decI w)
  else if op = 0x07 then .div c (decR w) (fieldOf w 0 6)
  else if op = 0x08 then .lw c (decI w)
  else if op = 0x09 then .sw c (decS w)
  else if op = 0x0A then .lsub c (decR w) (fieldOf w 0 6)
  else if op = 0x0B then .fld c (decI w) false
  else if op = 0x0C then .fst c (decS w)
  else if op = 0x10 then .vld c (fieldOf w 22 4) (decVM w)
  else if op = 0x11 then .vst c (fieldOf w 22 4) (decVM w)
  else if op = 0x12 then .vldf c (fieldOf w 22 4) (decVM w) false
  else if op = 0x13 then .vstf c (fieldOf w 22 4) (decVM w)
  else if op = 0x1E then .jal c (fieldOf w 0 26)
  else if op = 0x1F then .jalr c (decI w)
  else if op = 0x20 then .valu c (decV w)
  else if op = 0x21 then .vfp c (decV w)
  else if op = 0x22 then .vmov c (decVS w)
  else if op = 0x23 then .vperm c (decV w)
  else if op = 0x24 then .vcmp c (decV w)
  else if op = 0x29 then .dotmx c (decX w)
  else if op = 0x2B then .cvt c (decV w)
  else if op = 0x35 then .csr c (decI w)
  else match branchOf op with
    | some b => .branch c b (fieldOf w 21 5) (fieldOf w 16 5) (fieldOf w 0 16)
    | none => (subDecode c w).getD (.undefinedOpcode c w)

/-! ### Encoding -/

/-- The core and the word of a curd core instruction; none for every other command, and for a word that is no
instruction. -/
def coreWord (i : Instr) : Option (CoreId × Word) :=
  match i with
  | .alu c r fn => some (c, encR 0x01 r fn)
  | .addi c a => some (c, encI 0x02 a)
  | .andi c a => some (c, encI 0x03 a)
  | .ori c a => some (c, encI 0x04 a)
  | .shi c a => some (c, encI 0x05 a)
  | .lui c a => some (c, encI 0x06 a)
  | .div c r fn => some (c, encR 0x07 r fn)
  | .lw c a => some (c, encI 0x08 a)
  | .sw c a => some (c, encS 0x09 a)
  | .lsub c r fn => some (c, encR 0x0A r fn)
  | .fld c a _ => some (c, encI 0x0B a)
  | .fst c a => some (c, encS 0x0C a)
  | .vld c v a => some (c, encVM 0x10 v a)
  | .vst c v a => some (c, encVM 0x11 v a)
  | .vldf c v a _ => some (c, encVM 0x12 v a)
  | .vstf c v a => some (c, encVM 0x13 v a)
  | .cachePref c a => some (c, encVM 0x14 0 a)
  | .cacheZero c a => some (c, encVM 0x14 1 a)
  | .cacheInvl c a => some (c, encVM 0x14 2 a)
  | .cacheInvall c a => some (c, encVM 0x14 3 a)
  | .branch c op r1 r2 off => some (c, encB (brCode op) r1 r2 off)
  | .jal c off => some (c, encJ 0x1E off)
  | .jalr c a => some (c, encI 0x1F a)
  | .valu c v => some (c, encV 0x20 v)
  | .vfp c v => some (c, encV 0x21 v)
  | .vmov c v => some (c, encVS 0x22 v)
  | .vperm c v => some (c, encV 0x23 v)
  | .vcmp c v => some (c, encV 0x24 v)
  | .dot c d => some (c, encD 0x28 d 0)
  | .dotP c d => some (c, encD 0x28 d 1)
  | .dotmx c x => some (c, encX 0x29 x)
  | .accClr c d => some (c, encD 0x2A d 0)
  | .accRd c d => some (c, encD 0x2A d 1)
  | .accRdc c d => some (c, encD 0x2A d 2)
  | .accAddv c d => some (c, encD 0x2A d 3)
  | .accPart c d => some (c, encD 0x2A d 4)
  | .cvt c v => some (c, encV 0x2B v)
  | .send c r => some (c, encR 0x30 r 0)
  | .sendu c r => some (c, encR 0x30 r 1)
  | .dbell c r => some (c, encR 0x30 r 2)
  | .recv c r => some (c, encR 0x31 r 0)
  | .recvnb c r => some (c, encR 0x31 r 1)
  | .tinc c r => some (c, encR 0x32 r 0)
  | .twait c r => some (c, encR 0x32 r 1)
  | .trd c r => some (c, encR 0x32 r 2)
  | .tsett c r => some (c, encR 0x32 r 3)
  | .lsubmit c r => some (c, encR 0x33 r 0)
  | .atom c r fn => some (c, encR 0x34 r (amoCode fn))
  | .acas c r => some (c, encR 0x34 r 9)
  | .csr c a => some (c, encI 0x35 a)
  | .syncI c r => some (c, encR 0x36 r 0)
  | .fence c r => some (c, encR 0x36 r 1)
  | .yield c r => some (c, encR 0x36 r 2)
  | .wfe c r => some (c, encR 0x36 r 3)
  | .trap c r => some (c, encR 0x36 r 4)
  | .rdtsc c r _ => some (c, encR 0x36 r 5)
  | .halt c r => some (c, encR 0x36 r 6)
  | .tret c r => some (c, encR 0x36 r 7)
  | _ => none

/-- Does a command carry nothing beside its word? -/
def plainInsn (i : Instr) : Bool :=
  match i with
  | .fld _ _ p => !p
  | .vldf _ _ _ p => !p
  | .rdtsc _ _ lag => lag.val = 0
  | _ => true

end Sys2Proof
end

