-- ==== Sys2Proof/Config.lean ====
section
/-! DEFINITION. The free values of the model: constants without a body, applied to the counter `State.free` or to the
operands they depend on. Nothing can be proved of their values (log 3). -/

namespace Sys2Proof

/-- A 64-bit value that the spec leaves open. -/
opaque Config.freeDword : Nat → BitVec 64

/-- A 64-byte line that the spec leaves open. -/
opaque Config.freeLine : Nat → BitVec 512

/-- A choice that the spec leaves open. -/
opaque Config.freeNat : Nat → Nat

/-- The stream of a traffic generator (10 R338 pattern 0): seed, bytes per line, number of the line in the stream. The
spec names PRBS31 and states neither its polynomial nor its bit order. -/
opaque Config.prbsLine : Nat → Nat → Nat → Nat

/-- The address sequence of a traffic generator (10 R338 mode 4): seed and number of the read. -/
opaque Config.prbsAddr : Nat → Nat → Nat

/-- What an array holds in test state where its generator has not written: draw, line. -/
opaque Config.arrayLine : Nat → Nat → Nat

/-- The check bytes of a line's data: first argument the number of data bytes of one codeword (16 for the crock, 64 for
the cellar). The spec states no polynomial of either code. -/
opaque Config.checkBytes : Nat → Nat → Nat

/-- What a line's code decodes from raw bytes that are no codeword: the data, and the symbols in error as a mask. -/
opaque Config.rawData : Nat → Nat → Nat
opaque Config.rawErrs : Nat → Nat → Nat

/-- The parity symbols of one codeword of a lane's frame (14 R420): the 514 message symbols, 10 bits each, give 30 symbols
in the order they are sent. The spec names the code of IEEE 802.3 clause 91 and gives neither polynomial. -/
opaque Config.laneParity : Nat → Nat

/-- The levels and the units of a lane's pattern generator (14 R442): mode and place in the pattern. The spec names PRBS13Q,
PRBS31Q and PRBS31 and gives no polynomial. -/
opaque Config.patternLevel : Nat → Nat → BitVec 2
opaque Config.patternUnit : Nat → BitVec 257

/-- The payload unit of a speculation-unit message (15 R452), and the words it stands for. The spec gives no layout. -/
opaque Config.specUnit : List Nat → BitVec 256
opaque Config.specWordsOf : BitVec 256 → List Nat

/-- SHA-384 (21 R617), and whether an ECDSA P-384 or ML-DSA-87 signature verifies: public key, message, signature. The
standards that define them lie outside the spec. -/
opaque Config.sha384 : List Byte → BitVec 384
opaque Config.ecdsaOk : List Byte → List Byte → List Byte → Bool
opaque Config.mldsaOk : List Byte → List Byte → List Byte → Bool

/-- Lanrix's firmware key digest in the fuse map (21 R627). -/
opaque Config.fwKeyDigest : BitVec 384

/-- The alias signatures and certificates that follow a report (21 R634): the running bank, the report. -/
opaque Config.reportTail : List Byte → List Byte → List Byte

end Sys2Proof
end

