-- ==== Sys2Proof/Machine/Maps.lean ====
section
/-! DEFINITION. Operations on sparse maps and on byte memory in their canonical form (keys strictly rising, no entry
equal to the default). -/

namespace Sys2Proof.Machine

open Sys2Proof

/-- The value at a key, or the default. -/
def smGet {α : Type} (d : α) : List (Nat × α) → Nat → α
  | [], _ => d
  | (k, v) :: m, i => if i = k then v else if i < k then d else smGet d m i

/-- The value at a key, if one is listed. -/
def smFind {α : Type} : List (Nat × α) → Nat → Option α
  | [], _ => none
  | (k, v) :: m, i => if i = k then some v else if i < k then none else smFind m i

/-- Insert or replace, keeping the keys rising. -/
def smPut {α : Type} : List (Nat × α) → Nat → α → List (Nat × α)
  | [], i, x => [(i, x)]
  | (k, v) :: m, i, x => if i < k then (i, x) :: (k, v) :: m else if i = k then (i, x) :: m else (k, v) :: smPut m i x

/-- Remove a key. -/
def smDel {α : Type} : List (Nat × α) → Nat → List (Nat × α)
  | [], _ => []
  | (k, v) :: m, i => if i = k then m else if i < k then (k, v) :: m else (k, v) :: smDel m i

/-- Write a value, keeping the canonical form: writing the default removes the entry. -/
def smSet {α : Type} [DecidableEq α] (d : α) (m : List (Nat × α)) (i : Nat) (x : α) : List (Nat × α) :=
  if x = d then smDel m i else smPut m i x

/-- Are the keys strictly rising, all above `lo`? -/
def smSorted {α : Type} : List (Nat × α) → Bool
  | [] => true
  | [_] => true
  | (k, _) :: (k', v') :: m => k < k' && smSorted ((k', v') :: m)

/-- The canonical form of a sparse map (log 5). -/
def smWf {α : Type} [DecidableEq α] (d : α) (m : List (Nat × α)) : Bool :=
  smSorted m && m.all (fun e => e.2 ≠ d)

/-- What a byte of memory reads as when nothing is listed for it (log 6): zero. -/
def Memory.empty : Byte := 0

/-- The byte at a device physical address. -/
def Memory.get (m : List Host.Cell) (a : Nat) : Byte := smGet Memory.empty m a

/-- Write one byte. -/
def Memory.set (m : List Host.Cell) (a : Nat) (b : Byte) : List Host.Cell := smSet Memory.empty m a b

/-- The canonical form of memory. -/
def Memory.wf (m : List Host.Cell) : Bool := smWf Memory.empty m

/-- Read `n` bytes, little-endian (00 R10). -/
def Memory.read (m : List Host.Cell) (a : Nat) : Nat → Nat
  | 0 => 0
  | n + 1 => (Memory.get m a).toNat + 256 * Memory.read m (a + 1) n

/-- Write the bytes of `d` whose mask bit is set: byte k of the data goes to a + k, for k below `n`. -/
def Memory.write (m : List Host.Cell) (a : Nat) (mask : Nat) (d : Nat) : Nat → List Host.Cell
  | 0 => m
  | n + 1 =>
    let m' := Memory.write m a mask d n
    if mask.testBit n then Memory.set m' (a + n) (BitVec.ofNat 8 (d >>> (8 * n))) else m'

end Sys2Proof.Machine
end

