-- ==== Sys2Proof/Machine/Regs.lean ====
section
/-! DEFINITION. The register map: every register of the spec's register tables with its offset in register space
(01 R40 plus the offset of its own table), its instances, its width and its reset value, and every field with its
access code (00 R11 to R17). `BLOCK_NAME.FIELD` names a field as 00 R11 does. Fields marked "image" or "fuse" read
zero until they are loaded (R14). The performance counters share the layout of 04 R141. -/

namespace Sys2Proof.Machine

/-- The access codes of R13. -/
inductive Access where
  | ro | rw | rw1c | wo | rws | rc
  deriving DecidableEq, Repr

/-- A register or an array of registers: offset in register space of instance 0, stride and count of each index,
width in bits, reset value, and whether management firmware's writes reach its RO fields (R13). -/
structure Reg where
  base : Nat
  dims : List (Nat × Nat)
  width : Nat
  reset : Nat
  fw : Bool
  deriving DecidableEq, Repr

/-- A field of a register: its lowest bit, width and access code. -/
structure Fld where
  reg : Reg
  lo : Nat
  width : Nat
  acc : Access
  deriving DecidableEq, Repr

/-- 02 R56. -/
def MC_TSC : Reg := ⟨0x8000, [], 64, 0x0, false⟩
def MC_TSC.COUNT : Fld := ⟨MC_TSC, 0, 64, .ro⟩
/-- 02 R66. -/
def MC_LEDGER_CTL : Reg := ⟨0x8100, [], 32, 0x0, false⟩
def MC_LEDGER_CTL.TEST_GO : Fld := ⟨MC_LEDGER_CTL, 0, 1, .wo⟩
def MC_LEDGER_CTL.TEST_POOL : Fld := ⟨MC_LEDGER_CTL, 4, 4, .rw⟩
/-- 02 R66. -/
def MC_LEDGER_STAT : Reg := ⟨0x8108, [], 32, 0x0, false⟩
def MC_LEDGER_STAT.BUSY : Fld := ⟨MC_LEDGER_STAT, 0, 1, .ro⟩
def MC_LEDGER_STAT.TEST_PASS : Fld := ⟨MC_LEDGER_STAT, 1, 1, .rw1c⟩
def MC_LEDGER_STAT.TEST_FAIL : Fld := ⟨MC_LEDGER_STAT, 2, 1, .rw1c⟩
def MC_LEDGER_STAT.TEST_REJ : Fld := ⟨MC_LEDGER_STAT, 3, 1, .rw1c⟩
def MC_LEDGER_STAT.MISMATCH : Fld := ⟨MC_LEDGER_STAT, 4, 1, .ro⟩
def MC_LEDGER_STAT.EXCL : Fld := ⟨MC_LEDGER_STAT, 16, 16, .ro⟩
/-- 02 R66. -/
def MC_LEDGER_AUDITS : Reg := ⟨0x8110, [], 64, 0x0, false⟩
def MC_LEDGER_AUDITS.COUNT : Fld := ⟨MC_LEDGER_AUDITS, 0, 48, .ro⟩
def MC_LEDGER_AUDITS.OVF : Fld := ⟨MC_LEDGER_AUDITS, 48, 1, .rw1c⟩
/-- 02 R66. -/
def MC_LEDGER_REC : Reg := ⟨0x8118, [], 64, 0x0, false⟩
def MC_LEDGER_REC.POOL : Fld := ⟨MC_LEDGER_REC, 0, 4, .ro⟩
def MC_LEDGER_REC.INSTANCE : Fld := ⟨MC_LEDGER_REC, 4, 16, .ro⟩
def MC_LEDGER_REC.DIFF : Fld := ⟨MC_LEDGER_REC, 20, 32, .ro⟩
def MC_LEDGER_REC.AUDIT : Fld := ⟨MC_LEDGER_REC, 52, 12, .ro⟩
/-- 03 R101. -/
def MC_IMG_STAT : Reg := ⟨0x9000, [], 32, 0x0, true⟩
def MC_IMG_STAT.STATE : Fld := ⟨MC_IMG_STAT, 0, 3, .ro⟩
def MC_IMG_STAT.FAILED : Fld := ⟨MC_IMG_STAT, 3, 1, .rw1c⟩
def MC_IMG_STAT.RELOAD_PART : Fld := ⟨MC_IMG_STAT, 4, 6, .ro⟩
/-- 03 R101. -/
def MC_IMG_ERR : Reg := ⟨0x9008, [], 64, 0x0, true⟩
def MC_IMG_ERR.CODE : Fld := ⟨MC_IMG_ERR, 0, 8, .ro⟩
def MC_IMG_ERR.SECTION : Fld := ⟨MC_IMG_ERR, 8, 8, .ro⟩
def MC_IMG_ERR.PART : Fld := ⟨MC_IMG_ERR, 16, 8, .ro⟩
def MC_IMG_ERR.OFFSET : Fld := ⟨MC_IMG_ERR, 32, 32, .ro⟩
/-- 03 R101. -/
def MC_IMG_SEQ : Reg := ⟨0x9010, [], 64, 0x0, true⟩
def MC_IMG_SEQ.SEQUENCE : Fld := ⟨MC_IMG_SEQ, 0, 64, .ro⟩
/-- 03 R101. -/
def MC_IMG_MINSEQ : Reg := ⟨0x9018, [], 64, 0x0, true⟩
def MC_IMG_MINSEQ.MIN : Fld := ⟨MC_IMG_MINSEQ, 0, 64, .ro⟩
/-- 03 R101. -/
def MC_IMG_ID : Reg := ⟨0x9020, [], 64, 0x0, true⟩
def MC_IMG_ID.DEV_ID : Fld := ⟨MC_IMG_ID, 0, 14, .ro⟩
def MC_IMG_ID.FABRIC_ID : Fld := ⟨MC_IMG_ID, 32, 32, .ro⟩
/-- 03 R101. -/
def MC_IMG_BUILD : Reg := ⟨0x9028, [], 32, 0x0, true⟩
def MC_IMG_BUILD.FABRIC_BUILD : Fld := ⟨MC_IMG_BUILD, 0, 32, .ro⟩
/-- 03 R101. -/
def MC_IMG_PARTS : Reg := ⟨0x9030, [], 64, 0x0, true⟩
def MC_IMG_PARTS.DEFINED : Fld := ⟨MC_IMG_PARTS, 0, 64, .ro⟩
/-- 04 R140. -/
def VAT_CORE_CTL : Reg := ⟨0x1080000, [(0x100000, 64), (0x400, 64)], 32, 0x1, false⟩
def VAT_CORE_CTL.VICTIM_EN : Fld := ⟨VAT_CORE_CTL, 0, 1, .rw⟩
/-- 04 R140. -/
def VAT_CORE_STAT : Reg := ⟨0x1080008, [(0x100000, 64), (0x400, 64)], 32, 0x4, false⟩
def VAT_CORE_STAT.RUNNING : Fld := ⟨VAT_CORE_STAT, 0, 1, .ro⟩
def VAT_CORE_STAT.IN_HANDLER : Fld := ⟨VAT_CORE_STAT, 1, 1, .ro⟩
def VAT_CORE_STAT.CC_INIT : Fld := ⟨VAT_CORE_STAT, 2, 1, .ro⟩
def VAT_CORE_STAT.PENDING : Fld := ⟨VAT_CORE_STAT, 4, 6, .ro⟩
def VAT_CORE_STAT.SB_USED : Fld := ⟨VAT_CORE_STAT, 10, 4, .ro⟩
/-- 04 R140. -/
def VAT_CORE_TREC0 : Reg := ⟨0x1080010, [(0x100000, 64), (0x400, 64)], 64, 0x0, false⟩
def VAT_CORE_TREC0.TCAUSE : Fld := ⟨VAT_CORE_TREC0, 0, 32, .ro⟩
def VAT_CORE_TREC0.TINSN : Fld := ⟨VAT_CORE_TREC0, 32, 32, .ro⟩
/-- 04 R140. -/
def VAT_CORE_TREC1 : Reg := ⟨0x1080018, [(0x100000, 64), (0x400, 64)], 64, 0x0, false⟩
def VAT_CORE_TREC1.TADDRLO : Fld := ⟨VAT_CORE_TREC1, 0, 32, .ro⟩
def VAT_CORE_TREC1.TADDRHI : Fld := ⟨VAT_CORE_TREC1, 32, 32, .ro⟩
/-- 04 R140. -/
def VAT_CC_MASK_D : Reg := ⟨0x1080020, [(0x100000, 64), (0x400, 64)], 64, 0xFFFFFFFFFFFF, false⟩
def VAT_CC_MASK_D.MASK : Fld := ⟨VAT_CC_MASK_D, 0, 48, .rw⟩
/-- 04 R140. -/
def VAT_CC_MASK_P : Reg := ⟨0x1080028, [(0x100000, 64), (0x400, 64)], 64, 0xFFFFFFFFFFFF, false⟩
def VAT_CC_MASK_P.MASK : Fld := ⟨VAT_CC_MASK_P, 0, 48, .rw⟩
/-- 04 R140. -/
def VAT_CC_MASK_L : Reg := ⟨0x1080030, [(0x100000, 64), (0x400, 64)], 64, 0xFFFFFFFFFFFF, false⟩
def VAT_CC_MASK_L.MASK : Fld := ⟨VAT_CC_MASK_L, 0, 48, .rw⟩
/-- 04 R140. -/
def VAT_CC_MASK_Z : Reg := ⟨0x1080038, [(0x100000, 64), (0x400, 64)], 64, 0xFFFFFFFFFFFF, false⟩
def VAT_CC_MASK_Z.MASK : Fld := ⟨VAT_CC_MASK_Z, 0, 48, .rw⟩
/-- 04 R140. -/
def VAT_CORE_ERR : Reg := ⟨0x1080040, [(0x100000, 64), (0x400, 64)], 32, 0x0, false⟩
def VAT_CORE_ERR.CC_PAR : Fld := ⟨VAT_CORE_ERR, 0, 16, .rc⟩
def VAT_CORE_ERR.MCHK : Fld := ⟨VAT_CORE_ERR, 16, 16, .rc⟩
/-- 04 R141. -/
def VAT_CORE_PC_INSN : Reg := ⟨0x1080080, [(0x100000, 64), (0x400, 64)], 64, 0x0, false⟩
/-- 04 R141. -/
def VAT_CORE_PC_PARTIAL : Reg := ⟨0x1080088, [(0x100000, 64), (0x400, 64)], 64, 0x0, false⟩
/-- 04 R141. -/
def VAT_CORE_PC_CC_HIT : Reg := ⟨0x1080090, [(0x100000, 64), (0x400, 64)], 64, 0x0, false⟩
/-- 04 R141. -/
def VAT_CORE_PC_CC_MISS : Reg := ⟨0x1080098, [(0x100000, 64), (0x400, 64)], 64, 0x0, false⟩
/-- 04 R141. -/
def VAT_CORE_PC_SB_HIT : Reg := ⟨0x10800A0, [(0x100000, 64), (0x400, 64)], 64, 0x0, false⟩
/-- 04 R141. -/
def VAT_CORE_PC_VICTIM : Reg := ⟨0x10800A8, [(0x100000, 64), (0x400, 64)], 64, 0x0, false⟩
/-- 04 R141. -/
def VAT_CORE_PC_DECLINE : Reg := ⟨0x10800B0, [(0x100000, 64), (0x400, 64)], 64, 0x0, false⟩
/-- 04 R141. -/
def VAT_CORE_PC_INJ_DROP : Reg := ⟨0x10800B8, [(0x100000, 64), (0x400, 64)], 64, 0x0, false⟩
/-- 06 R219. -/
def VAT_RESET : Reg := ⟨0x1000000, [(0x100000, 64)], 32, 0x0, false⟩
def VAT_RESET.GO : Fld := ⟨VAT_RESET, 0, 1, .wo⟩
/-- 06 R219. -/
def VAT_STAT : Reg := ⟨0x1000008, [(0x100000, 64)], 32, 0x0, false⟩
def VAT_STAT.RESETTING : Fld := ⟨VAT_STAT, 0, 1, .ro⟩
def VAT_STAT.EPOCH : Fld := ⟨VAT_STAT, 8, 8, .ro⟩
/-- 06 R220. -/
def VAT_PC_READY_DROP : Reg := ⟨0x1000100, [(0x100000, 64)], 64, 0x0, false⟩
/-- 06 R220. -/
def VAT_PC_CMD_REJ : Reg := ⟨0x1000108, [(0x100000, 64)], 64, 0x0, false⟩
/-- 06 R220. -/
def VAT_PC_TALLY_SATINC : Reg := ⟨0x1000110, [(0x100000, 64)], 64, 0x0, false⟩
/-- 06 R190. -/
def VAT_TASK_DESC : Reg := ⟨0x1010000, [(0x100000, 64), (0x20, 256)], 64, 0x0, false⟩
def VAT_TASK_DESC.ENTRY : Fld := ⟨VAT_TASK_DESC, 0, 16, .rw⟩
def VAT_TASK_DESC.TARGET : Fld := ⟨VAT_TASK_DESC, 16, 6, .rw⟩
def VAT_TASK_DESC.GATE : Fld := ⟨VAT_TASK_DESC, 24, 14, .rw⟩
def VAT_TASK_DESC.GATE_EN : Fld := ⟨VAT_TASK_DESC, 38, 1, .rw⟩
def VAT_TASK_DESC.OUT : Fld := ⟨VAT_TASK_DESC, 39, 14, .rw⟩
def VAT_TASK_DESC.OUT_EN : Fld := ⟨VAT_TASK_DESC, 53, 1, .rw⟩
def VAT_TASK_DESC.REARM : Fld := ⟨VAT_TASK_DESC, 54, 1, .rw⟩
/-- 06 R190. -/
def VAT_TASK_ARG : Reg := ⟨0x1010008, [(0x100000, 64), (0x20, 256)], 32, 0x0, false⟩
def VAT_TASK_ARG.ARG : Fld := ⟨VAT_TASK_ARG, 0, 32, .rw⟩
/-- 06 R190. -/
def VAT_TASK_CTL : Reg := ⟨0x1010010, [(0x100000, 64), (0x20, 256)], 32, 0x0, false⟩
def VAT_TASK_CTL.STATE : Fld := ⟨VAT_TASK_CTL, 0, 3, .ro⟩
def VAT_TASK_CTL.ABORT : Fld := ⟨VAT_TASK_CTL, 3, 1, .ro⟩
def VAT_TASK_CTL.WAIT : Fld := ⟨VAT_TASK_CTL, 4, 2, .ro⟩
def VAT_TASK_CTL.CMD : Fld := ⟨VAT_TASK_CTL, 8, 3, .wo⟩
/-- 06 R204. -/
def VAT_TALLY_CNT : Reg := ⟨0x1020000, [(0x100000, 64), (0x20, 256)], 32, 0x0, false⟩
def VAT_TALLY_CNT.COUNT : Fld := ⟨VAT_TALLY_CNT, 0, 32, .rw⟩
/-- 06 R204. -/
def VAT_TALLY_THR : Reg := ⟨0x1020004, [(0x100000, 64), (0x20, 256)], 32, 0x0, false⟩
def VAT_TALLY_THR.THRESH : Fld := ⟨VAT_TALLY_THR, 0, 32, .rw⟩
/-- 06 R204. -/
def VAT_TALLY_STEP : Reg := ⟨0x1020008, [(0x100000, 64), (0x20, 256)], 32, 0x0, false⟩
def VAT_TALLY_STEP.STEP : Fld := ⟨VAT_TALLY_STEP, 0, 32, .rw⟩
/-- 06 R204. -/
def VAT_TALLY_STAT : Reg := ⟨0x102000C, [(0x100000, 64), (0x20, 256)], 32, 0x0, false⟩
def VAT_TALLY_STAT.OVF : Fld := ⟨VAT_TALLY_STAT, 0, 1, .rw1c⟩
def VAT_TALLY_STAT.SAT : Fld := ⟨VAT_TALLY_STAT, 1, 1, .ro⟩
/-- 06 R204. -/
def VAT_TALLY_WAITV : Reg := ⟨0x1020010, [(0x100000, 64), (0x20, 256)], 64, 0x0, false⟩
def VAT_TALLY_WAITV.WAITV : Fld := ⟨VAT_TALLY_WAITV, 0, 64, .ro⟩
/-- 06 R212. -/
def VAT_CHURN_CALL : Reg := ⟨0x1030000, [(0x100000, 64)], 64, 0x0, false⟩
def VAT_CHURN_CALL.ARG : Fld := ⟨VAT_CHURN_CALL, 0, 32, .wo⟩
def VAT_CHURN_CALL.ENTRY : Fld := ⟨VAT_CHURN_CALL, 32, 11, .wo⟩
/-- 06 R212. -/
def VAT_CHURN_SEED : Reg := ⟨0x1030008, [(0x100000, 64)], 32, 0x0, false⟩
def VAT_CHURN_SEED.SEED : Fld := ⟨VAT_CHURN_SEED, 0, 32, .rw⟩
/-- 06 R212. -/
def VAT_CHURN_RSEED : Reg := ⟨0x1030010, [(0x100000, 64)], 64, 0x0, false⟩
def VAT_CHURN_RSEED.RSEED : Fld := ⟨VAT_CHURN_RSEED, 0, 64, .rw⟩
/-- 06 R212. -/
def VAT_CHURN_FLAGS : Reg := ⟨0x1030018, [(0x100000, 64)], 32, 0x0, false⟩
def VAT_CHURN_FLAGS.FLAGS : Fld := ⟨VAT_CHURN_FLAGS, 0, 7, .rw1c⟩
/-- 06 R212. -/
def VAT_CHURN_STAT : Reg := ⟨0x1030020, [(0x100000, 64)], 32, 0x0, false⟩
def VAT_CHURN_STAT.QUEUED : Fld := ⟨VAT_CHURN_STAT, 0, 5, .ro⟩
def VAT_CHURN_STAT.RUNNING : Fld := ⟨VAT_CHURN_STAT, 5, 1, .ro⟩
def VAT_CHURN_STAT.FAULT_PC : Fld := ⟨VAT_CHURN_STAT, 16, 11, .ro⟩
/-- 06 R212. -/
def VAT_CHURN_ERR0 : Reg := ⟨0x1030028, [(0x100000, 64)], 32, 0x0, false⟩
def VAT_CHURN_ERR0.RED_GEN : Fld := ⟨VAT_CHURN_ERR0, 0, 16, .rc⟩
def VAT_CHURN_ERR0.RED_EXCESS : Fld := ⟨VAT_CHURN_ERR0, 16, 16, .rc⟩
/-- 06 R212. -/
def VAT_CHURN_ERR1 : Reg := ⟨0x1030030, [(0x100000, 64)], 32, 0x0, false⟩
def VAT_CHURN_ERR1.RED_CFG : Fld := ⟨VAT_CHURN_ERR1, 0, 16, .rc⟩
def VAT_CHURN_ERR1.PROG_FAULT : Fld := ⟨VAT_CHURN_ERR1, 16, 16, .rc⟩
/-- 06 R206. -/
def VAT_RED_CFG : Reg := ⟨0x1031000, [(0x100000, 64), (0x20, 64)], 64, 0x0, false⟩
def VAT_RED_CFG.GEN : Fld := ⟨VAT_RED_CFG, 0, 4, .rw⟩
def VAT_RED_CFG.FMT : Fld := ⟨VAT_RED_CFG, 4, 4, .rw⟩
def VAT_RED_CFG.FRM : Fld := ⟨VAT_RED_CFG, 8, 3, .rw⟩
def VAT_RED_CFG.EN : Fld := ⟨VAT_RED_CFG, 11, 1, .rw⟩
def VAT_RED_CFG.LANES : Fld := ⟨VAT_RED_CFG, 12, 16, .rw⟩
def VAT_RED_CFG.OUT : Fld := ⟨VAT_RED_CFG, 28, 14, .rw⟩
def VAT_RED_CFG.OUT_EN : Fld := ⟨VAT_RED_CFG, 42, 1, .rw⟩
def VAT_RED_CFG.PROG : Fld := ⟨VAT_RED_CFG, 43, 11, .rw⟩
def VAT_RED_CFG.PROG_EN : Fld := ⟨VAT_RED_CFG, 54, 1, .rw⟩
/-- 06 R206. -/
def VAT_RED_DST : Reg := ⟨0x1031008, [(0x100000, 64), (0x20, 64)], 64, 0x0, false⟩
def VAT_RED_DST.DST : Fld := ⟨VAT_RED_DST, 0, 48, .rw⟩
/-- 06 R206. -/
def VAT_RED_STAT : Reg := ⟨0x1031010, [(0x100000, 64), (0x20, 64)], 32, 0x0, false⟩
def VAT_RED_STAT.DONE : Fld := ⟨VAT_RED_STAT, 0, 16, .ro⟩
def VAT_RED_STAT.BUSY : Fld := ⟨VAT_RED_STAT, 16, 1, .ro⟩
def VAT_RED_STAT.FAULT : Fld := ⟨VAT_RED_STAT, 17, 1, .ro⟩
/-- 06 R209. -/
def VAT_CHURN_PROG : Reg := ⟨0x1038000, [(0x100000, 64), (0x4, 2048)], 32, 0x0, false⟩
def VAT_CHURN_PROG.WORD : Fld := ⟨VAT_CHURN_PROG, 0, 32, .rw⟩
/-- 06 R218. -/
def VAT_LADLE_CTL : Reg := ⟨0x1040000, [(0x100000, 64), (0x1000, 4)], 32, 0x0, false⟩
def VAT_LADLE_CTL.FLUSH : Fld := ⟨VAT_LADLE_CTL, 0, 1, .wo⟩
def VAT_LADLE_CTL.RESUME : Fld := ⟨VAT_LADLE_CTL, 1, 1, .wo⟩
/-- 06 R218. -/
def VAT_LADLE_STAT : Reg := ⟨0x1040008, [(0x100000, 64), (0x1000, 4)], 64, 0x0, false⟩
def VAT_LADLE_STAT.STATE : Fld := ⟨VAT_LADLE_STAT, 0, 2, .ro⟩
def VAT_LADLE_STAT.QUEUED : Fld := ⟨VAT_LADLE_STAT, 2, 5, .ro⟩
def VAT_LADLE_STAT.ERR : Fld := ⟨VAT_LADLE_STAT, 8, 8, .ro⟩
def VAT_LADLE_STAT.ERR_SEQ : Fld := ⟨VAT_LADLE_STAT, 16, 16, .ro⟩
/-- 06 R218. -/
def VAT_LADLE_ERRADDR : Reg := ⟨0x1040010, [(0x100000, 64), (0x1000, 4)], 64, 0x0, false⟩
def VAT_LADLE_ERRADDR.ADDR : Fld := ⟨VAT_LADLE_ERRADDR, 0, 64, .ro⟩
/-- 06 R218. -/
def VAT_LADLE_STG_STAT : Reg := ⟨0x1040018, [(0x100000, 64), (0x1000, 4)], 32, 0x0, false⟩
def VAT_LADLE_STG_STAT.LAST_CODE : Fld := ⟨VAT_LADLE_STG_STAT, 0, 8, .ro⟩
def VAT_LADLE_STG_STAT.DISCARD : Fld := ⟨VAT_LADLE_STG_STAT, 8, 1, .ro⟩
def VAT_LADLE_STG_STAT.FLUSHED : Fld := ⟨VAT_LADLE_STG_STAT, 9, 1, .rw1c⟩
def VAT_LADLE_STG_STAT.LAST_SEQ : Fld := ⟨VAT_LADLE_STG_STAT, 16, 16, .ro⟩
/-- 06 R218. -/
def VAT_LADLE_STG : Reg := ⟨0x1040100, [(0x100000, 64), (0x1000, 4), (0x8, 8)], 64, 0x0, false⟩
def VAT_LADLE_STG.WORD : Fld := ⟨VAT_LADLE_STG, 0, 64, .wo⟩
/-- 06 R218. -/
def VAT_LADLE_PC_DONE : Reg := ⟨0x1040200, [(0x100000, 64), (0x1000, 4)], 64, 0x0, false⟩
/-- 06 R218. -/
def VAT_LADLE_PC_FLUSHED : Reg := ⟨0x1040208, [(0x100000, 64), (0x1000, 4)], 64, 0x0, false⟩
/-- 06 R218. -/
def VAT_LADLE_PC_STG_DROP : Reg := ⟨0x1040210, [(0x100000, 64), (0x1000, 4)], 64, 0x0, false⟩
/-- 07 R255. -/
def VAT_NET_CTL : Reg := ⟨0x1050000, [(0x100000, 64)], 32, 0x10, false⟩
def VAT_NET_CTL.HOLD : Fld := ⟨VAT_NET_CTL, 0, 8, .rw⟩
def VAT_NET_CTL.MERGE : Fld := ⟨VAT_NET_CTL, 8, 1, .ro⟩
/-- 07 R255. -/
def VAT_NET_ERR0 : Reg := ⟨0x1050010, [(0x100000, 64)], 32, 0x0, false⟩
def VAT_NET_ERR0.HDR_CORR : Fld := ⟨VAT_NET_ERR0, 0, 16, .rc⟩
def VAT_NET_ERR0.HDR_DROP : Fld := ⟨VAT_NET_ERR0, 16, 16, .rc⟩
/-- 07 R255. -/
def VAT_NET_ERR1 : Reg := ⟨0x1050018, [(0x100000, 64)], 32, 0x0, false⟩
def VAT_NET_ERR1.DATA_PAR : Fld := ⟨VAT_NET_ERR1, 0, 16, .rc⟩
def VAT_NET_ERR1.BAD_PKT : Fld := ⟨VAT_NET_ERR1, 16, 16, .rc⟩
/-- 07 R257. -/
def VAT_NET_PC_FLITS : Reg := ⟨0x1050100, [(0x100000, 64)], 64, 0x0, false⟩
/-- 07 R257. -/
def VAT_NET_PC_MERGE : Reg := ⟨0x1050108, [(0x100000, 64)], 64, 0x0, false⟩
/-- 07 R257. -/
def VAT_NET_PC_PASS : Reg := ⟨0x1050110, [(0x100000, 64)], 64, 0x0, false⟩
/-- 07 R257. -/
def VAT_NET_PC_HOLDFWD : Reg := ⟨0x1050118, [(0x100000, 64)], 64, 0x0, false⟩
/-- 07 R257. -/
def VAT_NET_PC_CVC1 : Reg := ⟨0x1050120, [(0x100000, 64)], 64, 0x0, false⟩
/-- 07 R257. -/
def VAT_NET_PC_EDGE_E : Reg := ⟨0x1050128, [(0x100000, 64)], 64, 0x0, false⟩
/-- 07 R257. -/
def VAT_NET_PC_EDGE_N : Reg := ⟨0x1050130, [(0x100000, 64)], 64, 0x0, false⟩
/-- 07 R257. -/
def VAT_NET_PC_EDGE_W : Reg := ⟨0x1050138, [(0x100000, 64)], 64, 0x0, false⟩
/-- 07 R257. -/
def VAT_NET_PC_EDGE_S : Reg := ⟨0x1050140, [(0x100000, 64)], 64, 0x0, false⟩
/-- 07 R256. -/
def VAT_NET_DTAB : Reg := ⟨0x1058000, [(0x100000, 64), (0x4, 4096)], 32, 0x0, true⟩
def VAT_NET_DTAB.PX : Fld := ⟨VAT_NET_DTAB, 0, 6, .ro⟩
def VAT_NET_DTAB.PY : Fld := ⟨VAT_NET_DTAB, 6, 7, .ro⟩
def VAT_NET_DTAB.PART : Fld := ⟨VAT_NET_DTAB, 13, 6, .ro⟩
def VAT_NET_DTAB.VALID : Fld := ⟨VAT_NET_DTAB, 19, 1, .ro⟩
def VAT_NET_DTAB.ROLE : Fld := ⟨VAT_NET_DTAB, 20, 2, .ro⟩
/-- 08 R295. -/
def VAT_SPEC_CTL : Reg := ⟨0x1060000, [(0x100000, 64)], 32, 0xE0, false⟩
def VAT_SPEC_CTL.ROLE : Fld := ⟨VAT_SPEC_CTL, 0, 2, .rw⟩
def VAT_SPEC_CTL.LEAD : Fld := ⟨VAT_SPEC_CTL, 2, 1, .rw⟩
def VAT_SPEC_CTL.RING_EN : Fld := ⟨VAT_SPEC_CTL, 3, 1, .rw⟩
def VAT_SPEC_CTL.POSTPROV : Fld := ⟨VAT_SPEC_CTL, 4, 1, .rw⟩
def VAT_SPEC_CTL.NMAX : Fld := ⟨VAT_SPEC_CTL, 5, 3, .rw⟩
def VAT_SPEC_CTL.START : Fld := ⟨VAT_SPEC_CTL, 8, 1, .wo⟩
def VAT_SPEC_CTL.STOP : Fld := ⟨VAT_SPEC_CTL, 9, 1, .wo⟩
def VAT_SPEC_CTL.CLEAR : Fld := ⟨VAT_SPEC_CTL, 10, 1, .wo⟩
/-- 08 R295. -/
def VAT_SPEC_STAT : Reg := ⟨0x1060008, [(0x100000, 64)], 32, 0x0, false⟩
def VAT_SPEC_STAT.STATE : Fld := ⟨VAT_SPEC_STAT, 0, 2, .ro⟩
def VAT_SPEC_STAT.OUTST : Fld := ⟨VAT_SPEC_STAT, 2, 4, .ro⟩
def VAT_SPEC_STAT.RING_HOLD : Fld := ⟨VAT_SPEC_STAT, 6, 1, .ro⟩
def VAT_SPEC_STAT.FAULT : Fld := ⟨VAT_SPEC_STAT, 8, 8, .ro⟩
/-- 08 R295. -/
def VAT_SPEC_SEED : Reg := ⟨0x1060010, [(0x100000, 64)], 64, 0x0, false⟩
def VAT_SPEC_SEED.SEED : Fld := ⟨VAT_SPEC_SEED, 0, 64, .rw⟩
/-- 08 R295. -/
def VAT_SPEC_SAMP : Reg := ⟨0x1060018, [(0x100000, 64)], 64, 0x0, false⟩
def VAT_SPEC_SAMP.TOPK : Fld := ⟨VAT_SPEC_SAMP, 0, 7, .rw⟩
def VAT_SPEC_SAMP.TOPP : Fld := ⟨VAT_SPEC_SAMP, 8, 16, .rw⟩
def VAT_SPEC_SAMP.TEMP : Fld := ⟨VAT_SPEC_SAMP, 32, 32, .rw⟩
/-- 08 R295. -/
def VAT_SPEC_PLEN : Reg := ⟨0x1060020, [(0x100000, 64)], 32, 0x0, false⟩
def VAT_SPEC_PLEN.PLEN : Fld := ⟨VAT_SPEC_PLEN, 0, 32, .rw⟩
/-- 08 R295. -/
def VAT_SPEC_POS : Reg := ⟨0x1060028, [(0x100000, 64)], 32, 0x0, false⟩
def VAT_SPEC_POS.L : Fld := ⟨VAT_SPEC_POS, 0, 32, .ro⟩
/-- 08 R295. -/
def VAT_SPEC_EPOCH : Reg := ⟨0x1060030, [(0x100000, 64)], 64, 0x0, false⟩
def VAT_SPEC_EPOCH.DONE : Fld := ⟨VAT_SPEC_EPOCH, 0, 32, .ro⟩
def VAT_SPEC_EPOCH.OPENED : Fld := ⟨VAT_SPEC_EPOCH, 32, 32, .ro⟩
/-- 08 R295. -/
def VAT_SPEC_LASTV : Reg := ⟨0x1060038, [(0x100000, 64)], 64, 0x0, false⟩
def VAT_SPEC_LASTV.Y : Fld := ⟨VAT_SPEC_LASTV, 0, 24, .ro⟩
def VAT_SPEC_LASTV.A : Fld := ⟨VAT_SPEC_LASTV, 24, 3, .ro⟩
def VAT_SPEC_LASTV.EPOCH : Fld := ⟨VAT_SPEC_LASTV, 32, 32, .ro⟩
/-- 08 R295. -/
def VAT_SPEC_CMD : Reg := ⟨0x1060040, [(0x100000, 64)], 64, 0x0, false⟩
def VAT_SPEC_CMD.CMD : Fld := ⟨VAT_SPEC_CMD, 0, 64, .wo⟩
/-- 08 R295. -/
def VAT_SPEC_TALLY : Reg := ⟨0x1060048, [(0x100000, 64)], 64, 0x0, false⟩
def VAT_SPEC_TALLY.SUBMIT : Fld := ⟨VAT_SPEC_TALLY, 0, 14, .rw⟩
def VAT_SPEC_TALLY.SUB_EN : Fld := ⟨VAT_SPEC_TALLY, 15, 1, .rw⟩
def VAT_SPEC_TALLY.FREE : Fld := ⟨VAT_SPEC_TALLY, 16, 14, .rw⟩
def VAT_SPEC_TALLY.FREE_EN : Fld := ⟨VAT_SPEC_TALLY, 31, 1, .rw⟩
def VAT_SPEC_TALLY.VERD : Fld := ⟨VAT_SPEC_TALLY, 32, 14, .rw⟩
def VAT_SPEC_TALLY.VERD_EN : Fld := ⟨VAT_SPEC_TALLY, 47, 1, .rw⟩
/-- 08 R295. -/
def VAT_SPEC_DBUF : Reg := ⟨0x1060050, [(0x100000, 64)], 64, 0x0, false⟩
def VAT_SPEC_DBUF.VA : Fld := ⟨VAT_SPEC_DBUF, 0, 48, .rw⟩
/-- 08 R295. -/
def VAT_SPEC_BTAB : Reg := ⟨0x1060058, [(0x100000, 64)], 64, 0x0, false⟩
def VAT_SPEC_BTAB.VA : Fld := ⟨VAT_SPEC_BTAB, 0, 48, .rw⟩
/-- 08 R295. -/
def VAT_SPEC_BCFG : Reg := ⟨0x1060060, [(0x100000, 64)], 32, 0x0, false⟩
def VAT_SPEC_BCFG.NSTREAM : Fld := ⟨VAT_SPEC_BCFG, 0, 8, .rw⟩
def VAT_SPEC_BCFG.BLKLOG : Fld := ⟨VAT_SPEC_BCFG, 8, 4, .rw⟩
def VAT_SPEC_BCFG.NBLK : Fld := ⟨VAT_SPEC_BCFG, 16, 16, .rw⟩
/-- 08 R295. -/
def VAT_SPEC_POOLC : Reg := ⟨0x1060068, [(0x100000, 64)], 64, 0x0, false⟩
def VAT_SPEC_POOLC.BASE : Fld := ⟨VAT_SPEC_POOLC, 0, 48, .rw⟩
/-- 08 R295. -/
def VAT_SPEC_POOLH : Reg := ⟨0x1060070, [(0x100000, 64)], 64, 0x0, false⟩
def VAT_SPEC_POOLH.BASE : Fld := ⟨VAT_SPEC_POOLH, 0, 48, .rw⟩
/-- 08 R295. -/
def VAT_SPEC_POOLN : Reg := ⟨0x1060078, [(0x100000, 64)], 64, 0x0, false⟩
def VAT_SPEC_POOLN.NCROCK : Fld := ⟨VAT_SPEC_POOLN, 0, 32, .rw⟩
def VAT_SPEC_POOLN.NCELLAR : Fld := ⟨VAT_SPEC_POOLN, 32, 32, .rw⟩
/-- 08 R295. -/
def VAT_SPEC_POOLF : Reg := ⟨0x1060080, [(0x100000, 64)], 64, 0x0, false⟩
def VAT_SPEC_POOLF.FCROCK : Fld := ⟨VAT_SPEC_POOLF, 0, 32, .ro⟩
def VAT_SPEC_POOLF.FCELLAR : Fld := ⟨VAT_SPEC_POOLF, 32, 32, .ro⟩
/-- 08 R295. -/
def VAT_SPEC_RING : Reg := ⟨0x1060088, [(0x100000, 64)], 64, 0x0, false⟩
def VAT_SPEC_RING.OFFSET : Fld := ⟨VAT_SPEC_RING, 0, 44, .rw⟩
def VAT_SPEC_RING.RLOG : Fld := ⟨VAT_SPEC_RING, 48, 5, .rw⟩
/-- 08 R295. -/
def VAT_SPEC_CONS : Reg := ⟨0x1060090, [(0x100000, 64)], 32, 0x0, false⟩
def VAT_SPEC_CONS.CONS : Fld := ⟨VAT_SPEC_CONS, 0, 32, .rw⟩
/-- 08 R295. -/
def VAT_SPEC_PROD : Reg := ⟨0x1060098, [(0x100000, 64)], 32, 0x0, false⟩
def VAT_SPEC_PROD.PROD : Fld := ⟨VAT_SPEC_PROD, 0, 32, .ro⟩
/-- 08 R295. -/
def VAT_SPEC_LEAD : Reg := ⟨0x10600A0, [(0x100000, 64)], 32, 0x0, false⟩
def VAT_SPEC_LEAD.LEAD_DEV : Fld := ⟨VAT_SPEC_LEAD, 0, 14, .rw⟩
/-- 08 R295. -/
def VAT_SPEC_FOLLOW : Reg := ⟨0x10600A8, [(0x100000, 64), (0x8, 4)], 64, 0x0, false⟩
def VAT_SPEC_FOLLOW.DEV0 : Fld := ⟨VAT_SPEC_FOLLOW, 0, 14, .rw⟩
def VAT_SPEC_FOLLOW.VALID0 : Fld := ⟨VAT_SPEC_FOLLOW, 15, 1, .rw⟩
def VAT_SPEC_FOLLOW.DEV1 : Fld := ⟨VAT_SPEC_FOLLOW, 16, 14, .rw⟩
def VAT_SPEC_FOLLOW.VALID1 : Fld := ⟨VAT_SPEC_FOLLOW, 31, 1, .rw⟩
def VAT_SPEC_FOLLOW.DEV2 : Fld := ⟨VAT_SPEC_FOLLOW, 32, 14, .rw⟩
def VAT_SPEC_FOLLOW.VALID2 : Fld := ⟨VAT_SPEC_FOLLOW, 47, 1, .rw⟩
def VAT_SPEC_FOLLOW.DEV3 : Fld := ⟨VAT_SPEC_FOLLOW, 48, 14, .rw⟩
def VAT_SPEC_FOLLOW.VALID3 : Fld := ⟨VAT_SPEC_FOLLOW, 63, 1, .rw⟩
/-- 08 R295. -/
def VAT_SPEC_ERR : Reg := ⟨0x10600D0, [(0x100000, 64)], 32, 0x0, false⟩
def VAT_SPEC_ERR.BAD_CMD : Fld := ⟨VAT_SPEC_ERR, 0, 16, .rc⟩
def VAT_SPEC_ERR.LATE : Fld := ⟨VAT_SPEC_ERR, 16, 16, .rc⟩
/-- 08 R296. -/
def VAT_SPEC_PC_PASS : Reg := ⟨0x1060100, [(0x100000, 64)], 64, 0x0, false⟩
/-- 08 R296. -/
def VAT_SPEC_PC_COMMIT : Reg := ⟨0x1060108, [(0x100000, 64)], 64, 0x0, false⟩
/-- 08 R296. -/
def VAT_SPEC_PC_DRAFT : Reg := ⟨0x1060110, [(0x100000, 64)], 64, 0x0, false⟩
/-- 08 R296. -/
def VAT_SPEC_PC_RETRACT : Reg := ⟨0x1060118, [(0x100000, 64)], 64, 0x0, false⟩
/-- 08 R296. -/
def VAT_SPEC_PC_HOLD : Reg := ⟨0x1060120, [(0x100000, 64)], 64, 0x0, false⟩
/-- 08 R296. -/
def VAT_SPEC_PC_CELLAR : Reg := ⟨0x1060128, [(0x100000, 64)], 64, 0x0, false⟩
/-- 09 R314. -/
def VAT_CRM_CTL : Reg := ⟨0x1070000, [(0x100000, 64)], 32, 0x1, false⟩
def VAT_CRM_CTL.VICTIM_EN : Fld := ⟨VAT_CRM_CTL, 0, 1, .rw⟩
/-- 09 R314. -/
def VAT_CRM_CFG : Reg := ⟨0x1070008, [(0x100000, 64)], 32, 0x0, false⟩
def VAT_CRM_CFG.CACHE_WAYS : Fld := ⟨VAT_CRM_CFG, 0, 5, .ro⟩
def VAT_CRM_CFG.SCR_PART : Fld := ⟨VAT_CRM_CFG, 8, 8, .ro⟩
def VAT_CRM_CFG.USABLE : Fld := ⟨VAT_CRM_CFG, 16, 1, .ro⟩
/-- 09 R314. -/
def VAT_CRM_STAT : Reg := ⟨0x1070010, [(0x100000, 64)], 64, 0x0, false⟩
def VAT_CRM_STAT.SHARE_USED : Fld := ⟨VAT_CRM_STAT, 0, 7, .ro⟩
def VAT_CRM_STAT.COMMON_USED : Fld := ⟨VAT_CRM_STAT, 8, 4, .ro⟩
def VAT_CRM_STAT.RT_USED : Fld := ⟨VAT_CRM_STAT, 12, 4, .ro⟩
def VAT_CRM_STAT.ATOMB_VALID : Fld := ⟨VAT_CRM_STAT, 16, 5, .ro⟩
def VAT_CRM_STAT.ATOMB_LOCK : Fld := ⟨VAT_CRM_STAT, 21, 5, .ro⟩
/-- 09 R314. -/
def VAT_CRM_ERR : Reg := ⟨0x1070020, [(0x100000, 64)], 32, 0x0, false⟩
def VAT_CRM_ERR.HOME_ERR : Fld := ⟨VAT_CRM_ERR, 0, 16, .rc⟩
def VAT_CRM_ERR.SCR_DENY : Fld := ⟨VAT_CRM_ERR, 16, 16, .rc⟩
/-- 09 R315. -/
def VAT_CRM_PC_RD_HIT : Reg := ⟨0x1070100, [(0x100000, 64)], 64, 0x0, false⟩
/-- 09 R315. -/
def VAT_CRM_PC_RD_MISS : Reg := ⟨0x1070108, [(0x100000, 64)], 64, 0x0, false⟩
/-- 09 R315. -/
def VAT_CRM_PC_WR : Reg := ⟨0x1070110, [(0x100000, 64)], 64, 0x0, false⟩
/-- 09 R315. -/
def VAT_CRM_PC_ATOM : Reg := ⟨0x1070118, [(0x100000, 64)], 64, 0x0, false⟩
/-- 09 R315. -/
def VAT_CRM_PC_SCR : Reg := ⟨0x1070120, [(0x100000, 64)], 64, 0x0, false⟩
/-- 09 R315. -/
def VAT_CRM_PC_RT : Reg := ⟨0x1070128, [(0x100000, 64)], 64, 0x0, false⟩
/-- 09 R315. -/
def VAT_CRM_PC_VICT_ACC : Reg := ⟨0x1070130, [(0x100000, 64)], 64, 0x0, false⟩
/-- 09 R315. -/
def VAT_CRM_PC_VICT_DECL : Reg := ⟨0x1070138, [(0x100000, 64)], 64, 0x0, false⟩
/-- 09 R315. -/
def VAT_CRM_PC_REG_STALL : Reg := ⟨0x1070140, [(0x100000, 64)], 64, 0x0, false⟩
/-- 09 R314. -/
def VAT_CRM_SHARE : Reg := ⟨0x1071000, [(0x100000, 64), (0x8, 64)], 64, 0x0, false⟩
def VAT_CRM_SHARE.WAY_MASK : Fld := ⟨VAT_CRM_SHARE, 0, 16, .ro⟩
def VAT_CRM_SHARE.QSHARE : Fld := ⟨VAT_CRM_SHARE, 16, 7, .ro⟩
/-- 09 R314. -/
def VAT_CRM_REG : Reg := ⟨0x1072000, [(0x100000, 64), (0x8, 8)], 64, 0x0, false⟩
def VAT_CRM_REG.PART : Fld := ⟨VAT_CRM_REG, 0, 6, .rw⟩
def VAT_CRM_REG.EN : Fld := ⟨VAT_CRM_REG, 7, 1, .rw⟩
def VAT_CRM_REG.RATE : Fld := ⟨VAT_CRM_REG, 8, 8, .rw⟩
def VAT_CRM_REG.BURST : Fld := ⟨VAT_CRM_REG, 16, 16, .rw⟩
def VAT_CRM_REG.LEVEL : Fld := ⟨VAT_CRM_REG, 32, 16, .ro⟩
/-- 10 R340. -/
def CRK_INFO : Reg := ⟨0xA00000, [(0x40000, 8)], 32, 0x1005, false⟩
def CRK_INFO.LAYERS : Fld := ⟨CRK_INFO, 0, 3, .ro⟩
def CRK_INFO.CHANNELS : Fld := ⟨CRK_INFO, 8, 5, .ro⟩
/-- 10 R340. -/
def CRK_PRIO : Reg := ⟨0xA00008, [(0x40000, 8)], 32, 0x0, false⟩
def CRK_PRIO.PRIO_CH : Fld := ⟨CRK_PRIO, 0, 8, .ro⟩
/-- 10 R340. -/
def CRK_THR : Reg := ⟨0xA00010, [(0x40000, 8)], 32, 0x5F55, false⟩
def CRK_THR.T1 : Fld := ⟨CRK_THR, 0, 8, .rw⟩
def CRK_THR.T2 : Fld := ⟨CRK_THR, 8, 8, .rw⟩
/-- 10 R340. -/
def CRK_TEMP : Reg := ⟨0xA00018, [(0x40000, 8)], 32, 0x0, false⟩
def CRK_TEMP.TMAX : Fld := ⟨CRK_TEMP, 0, 8, .ro⟩
def CRK_TEMP.PEAK : Fld := ⟨CRK_TEMP, 8, 8, .rc⟩
/-- 10 R340. -/
def CRK_REPAIR : Reg := ⟨0xA00020, [(0x40000, 8)], 64, 0x0, false⟩
def CRK_REPAIR.FUSE_ROWS : Fld := ⟨CRK_REPAIR, 0, 16, .ro⟩
def CRK_REPAIR.SOFT_ROWS : Fld := ⟨CRK_REPAIR, 16, 16, .ro⟩
def CRK_REPAIR.UNREP : Fld := ⟨CRK_REPAIR, 32, 16, .ro⟩
/-- 10 R341. -/
def CRK_CH_STAT : Reg := ⟨0xA10000, [(0x40000, 8), (0x2000, 16)], 32, 0x1, false⟩
def CRK_CH_STAT.STATE : Fld := ⟨CRK_CH_STAT, 0, 3, .ro⟩
def CRK_CH_STAT.PRIO : Fld := ⟨CRK_CH_STAT, 3, 1, .ro⟩
def CRK_CH_STAT.INUSE : Fld := ⟨CRK_CH_STAT, 4, 1, .ro⟩
def CRK_CH_STAT.TLVL : Fld := ⟨CRK_CH_STAT, 5, 2, .ro⟩
def CRK_CH_STAT.REFX : Fld := ⟨CRK_CH_STAT, 7, 2, .ro⟩
def CRK_CH_STAT.KEPT : Fld := ⟨CRK_CH_STAT, 9, 1, .ro⟩
def CRK_CH_STAT.TEMP : Fld := ⟨CRK_CH_STAT, 16, 8, .ro⟩
/-- 10 R341. -/
def CRK_CH_CTL : Reg := ⟨0xA10008, [(0x40000, 8), (0x2000, 16)], 32, 0x32, false⟩
def CRK_CH_CTL.SR_IDLE : Fld := ⟨CRK_CH_CTL, 0, 16, .rw⟩
def CRK_CH_CTL.TEST : Fld := ⟨CRK_CH_CTL, 16, 1, .rw⟩
/-- 10 R341. -/
def CRK_CH_TEMP : Reg := ⟨0xA10010, [(0x40000, 8), (0x2000, 16)], 64, 0x0, false⟩
def CRK_CH_TEMP.LAYER : Fld := ⟨CRK_CH_TEMP, 0, 40, .ro⟩
/-- 10 R342. -/
def CRK_CH_PC_RD : Reg := ⟨0xA10100, [(0x40000, 8), (0x2000, 16)], 64, 0x0, false⟩
/-- 10 R342. -/
def CRK_CH_PC_WR : Reg := ⟨0xA10108, [(0x40000, 8), (0x2000, 16)], 64, 0x0, false⟩
/-- 10 R342. -/
def CRK_CH_PC_RMW : Reg := ⟨0xA10110, [(0x40000, 8), (0x2000, 16)], 64, 0x0, false⟩
/-- 10 R342. -/
def CRK_CH_PC_ACT : Reg := ⟨0xA10118, [(0x40000, 8), (0x2000, 16)], 64, 0x0, false⟩
/-- 10 R342. -/
def CRK_CH_PC_REF : Reg := ⟨0xA10120, [(0x40000, 8), (0x2000, 16)], 64, 0x0, false⟩
/-- 10 R342. -/
def CRK_CH_PC_SR_EXIT : Reg := ⟨0xA10128, [(0x40000, 8), (0x2000, 16)], 64, 0x0, false⟩
/-- 10 R342. -/
def CRK_CH_PC_THROT : Reg := ⟨0xA10130, [(0x40000, 8), (0x2000, 16)], 64, 0x0, false⟩
/-- 10 R343. -/
def CRK_TG_CTL : Reg := ⟨0xA10400, [(0x40000, 8), (0x2000, 16)], 32, 0x0, false⟩
def CRK_TG_CTL.GO : Fld := ⟨CRK_TG_CTL, 0, 1, .wo⟩
def CRK_TG_CTL.ABORT : Fld := ⟨CRK_TG_CTL, 1, 1, .wo⟩
def CRK_TG_CTL.MODE : Fld := ⟨CRK_TG_CTL, 2, 3, .rw⟩
def CRK_TG_CTL.PAT : Fld := ⟨CRK_TG_CTL, 5, 2, .rw⟩
def CRK_TG_CTL.RAW : Fld := ⟨CRK_TG_CTL, 7, 1, .rw⟩
/-- 10 R343. -/
def CRK_TG_BASE : Reg := ⟨0xA10408, [(0x40000, 8), (0x2000, 16)], 32, 0x0, false⟩
def CRK_TG_BASE.BASE : Fld := ⟨CRK_TG_BASE, 0, 21, .rw⟩
/-- 10 R343. -/
def CRK_TG_LEN : Reg := ⟨0xA10410, [(0x40000, 8), (0x2000, 16)], 32, 0x0, false⟩
def CRK_TG_LEN.LEN : Fld := ⟨CRK_TG_LEN, 0, 22, .rw⟩
/-- 10 R343. -/
def CRK_TG_SEED : Reg := ⟨0xA10418, [(0x40000, 8), (0x2000, 16)], 64, 0x0, false⟩
def CRK_TG_SEED.SEED : Fld := ⟨CRK_TG_SEED, 0, 64, .rw⟩
/-- 10 R343. -/
def CRK_TG_STAT : Reg := ⟨0xA10420, [(0x40000, 8), (0x2000, 16)], 32, 0x0, false⟩
def CRK_TG_STAT.BUSY : Fld := ⟨CRK_TG_STAT, 0, 1, .ro⟩
def CRK_TG_STAT.DONE : Fld := ⟨CRK_TG_STAT, 1, 1, .rw1c⟩
def CRK_TG_STAT.FAIL : Fld := ⟨CRK_TG_STAT, 2, 1, .rw1c⟩
def CRK_TG_STAT.REJ : Fld := ⟨CRK_TG_STAT, 3, 1, .rw1c⟩
def CRK_TG_STAT.ABORTED : Fld := ⟨CRK_TG_STAT, 4, 1, .rw1c⟩
/-- 10 R343. -/
def CRK_TG_ERR : Reg := ⟨0xA10428, [(0x40000, 8), (0x2000, 16)], 32, 0x0, false⟩
def CRK_TG_ERR.LINES_BAD : Fld := ⟨CRK_TG_ERR, 0, 16, .rc⟩
/-- 10 R343. -/
def CRK_TG_FAIL : Reg := ⟨0xA10430, [(0x40000, 8), (0x2000, 16)], 64, 0x0, false⟩
def CRK_TG_FAIL.LINE : Fld := ⟨CRK_TG_FAIL, 0, 21, .ro⟩
def CRK_TG_FAIL.LAYERS : Fld := ⟨CRK_TG_FAIL, 21, 5, .ro⟩
/-- 10 R343. -/
def CRK_TG_TIME : Reg := ⟨0xA10438, [(0x40000, 8), (0x2000, 16)], 64, 0x0, false⟩
def CRK_TG_TIME.LINES : Fld := ⟨CRK_TG_TIME, 0, 22, .ro⟩
def CRK_TG_TIME.PERIODS : Fld := ⟨CRK_TG_TIME, 32, 32, .ro⟩
/-- 11 R367. -/
def CEL_INFO : Reg := ⟨0x800000, [(0x40000, 8)], 32, 0x0, false⟩
def CEL_INFO.PRESENT : Fld := ⟨CEL_INFO, 0, 1, .ro⟩
def CEL_INFO.SUPPORTED : Fld := ⟨CEL_INFO, 1, 1, .ro⟩
def CEL_INFO.CAP_GB : Fld := ⟨CEL_INFO, 8, 8, .ro⟩
def CEL_INFO.HEIGHT : Fld := ⟨CEL_INFO, 16, 5, .ro⟩
def CEL_INFO.RATING : Fld := ⟨CEL_INFO, 24, 8, .ro⟩
/-- 11 R367. -/
def CEL_STAT : Reg := ⟨0x800008, [(0x40000, 8)], 32, 0x0, false⟩
def CEL_STAT.STATE : Fld := ⟨CEL_STAT, 0, 3, .ro⟩
def CEL_STAT.KEEP_LOST : Fld := ⟨CEL_STAT, 3, 1, .rw1c⟩
def CEL_STAT.DEGRADED : Fld := ⟨CEL_STAT, 4, 1, .ro⟩
def CEL_STAT.TLVL : Fld := ⟨CEL_STAT, 5, 2, .ro⟩
def CEL_STAT.KEPT : Fld := ⟨CEL_STAT, 7, 1, .ro⟩
def CEL_STAT.RATE : Fld := ⟨CEL_STAT, 8, 8, .ro⟩
/-- 11 R367. -/
def CEL_CTL : Reg := ⟨0x800010, [(0x40000, 8)], 32, 0x0, false⟩
def CEL_CTL.TEST : Fld := ⟨CEL_CTL, 0, 1, .rw⟩
def CEL_CTL.RETRAIN : Fld := ⟨CEL_CTL, 1, 1, .wo⟩
/-- 11 R367. -/
def CEL_CAP : Reg := ⟨0x800018, [(0x40000, 8)], 64, 0x0, false⟩
def CEL_CAP.AVAIL_PC : Fld := ⟨CEL_CAP, 0, 7, .ro⟩
def CEL_CAP.AVAIL_MIB : Fld := ⟨CEL_CAP, 16, 32, .ro⟩
def CEL_CAP.UNITS : Fld := ⟨CEL_CAP, 48, 8, .ro⟩
/-- 11 R367. -/
def CEL_PCMAP : Reg := ⟨0x800020, [(0x40000, 8)], 64, 0x0, false⟩
def CEL_PCMAP.AVAIL : Fld := ⟨CEL_PCMAP, 0, 64, .ro⟩
/-- 11 R367. -/
def CEL_PCDEG : Reg := ⟨0x800028, [(0x40000, 8)], 64, 0x0, false⟩
def CEL_PCDEG.DEG : Fld := ⟨CEL_PCDEG, 0, 64, .ro⟩
/-- 11 R367. -/
def CEL_THR : Reg := ⟨0x800030, [(0x40000, 8)], 32, 0x40645A, false⟩
def CEL_THR.T1 : Fld := ⟨CEL_THR, 0, 8, .rw⟩
def CEL_THR.T2 : Fld := ⟨CEL_THR, 8, 8, .rw⟩
def CEL_THR.LANE_LIM : Fld := ⟨CEL_THR, 16, 8, .rw⟩
/-- 11 R367. -/
def CEL_TEMP : Reg := ⟨0x800038, [(0x40000, 8)], 32, 0x0, false⟩
def CEL_TEMP.TSTACK : Fld := ⟨CEL_TEMP, 0, 8, .ro⟩
def CEL_TEMP.PEAK : Fld := ⟨CEL_TEMP, 8, 8, .rc⟩
/-- 11 R367. -/
def CEL_REG : Reg := ⟨0x800100, [(0x40000, 8), (0x8, 8)], 64, 0x0, false⟩
def CEL_REG.PART : Fld := ⟨CEL_REG, 0, 6, .rw⟩
def CEL_REG.EN : Fld := ⟨CEL_REG, 7, 1, .rw⟩
def CEL_REG.RATE : Fld := ⟨CEL_REG, 8, 8, .rw⟩
def CEL_REG.BURST : Fld := ⟨CEL_REG, 16, 16, .rw⟩
def CEL_REG.LEVEL : Fld := ⟨CEL_REG, 32, 16, .ro⟩
/-- 11 R368. -/
def CEL_PC_RD : Reg := ⟨0x800200, [(0x40000, 8)], 64, 0x0, false⟩
/-- 11 R368. -/
def CEL_PC_WR : Reg := ⟨0x800208, [(0x40000, 8)], 64, 0x0, false⟩
/-- 11 R368. -/
def CEL_PC_RMW : Reg := ⟨0x800210, [(0x40000, 8)], 64, 0x0, false⟩
/-- 11 R368. -/
def CEL_PC_ACT : Reg := ⟨0x800218, [(0x40000, 8)], 64, 0x0, false⟩
/-- 11 R368. -/
def CEL_PC_RETRAIN : Reg := ⟨0x800220, [(0x40000, 8)], 64, 0x0, false⟩
/-- 11 R368. -/
def CEL_PC_REG_STALL : Reg := ⟨0x800228, [(0x40000, 8)], 64, 0x0, false⟩
/-- 11 R368. -/
def CEL_PC_THROT : Reg := ⟨0x800230, [(0x40000, 8)], 64, 0x0, false⟩
/-- 11 R369. -/
def CEL_CH_LANE : Reg := ⟨0x810000, [(0x40000, 8), (0x1000, 32)], 64, 0x3FFFF0003FFFF, false⟩
def CEL_CH_LANE.SPARE0_0 : Fld := ⟨CEL_CH_LANE, 0, 6, .ro⟩
def CEL_CH_LANE.SPARE1_0 : Fld := ⟨CEL_CH_LANE, 6, 6, .ro⟩
def CEL_CH_LANE.ERASED_0 : Fld := ⟨CEL_CH_LANE, 12, 6, .ro⟩
def CEL_CH_LANE.OUT_0 : Fld := ⟨CEL_CH_LANE, 18, 1, .ro⟩
def CEL_CH_LANE.SPARE0_1 : Fld := ⟨CEL_CH_LANE, 32, 6, .ro⟩
def CEL_CH_LANE.SPARE1_1 : Fld := ⟨CEL_CH_LANE, 38, 6, .ro⟩
def CEL_CH_LANE.ERASED_1 : Fld := ⟨CEL_CH_LANE, 44, 6, .ro⟩
def CEL_CH_LANE.OUT_1 : Fld := ⟨CEL_CH_LANE, 50, 1, .ro⟩
/-- 11 R369. -/
def CEL_TG_CTL : Reg := ⟨0x810400, [(0x40000, 8), (0x1000, 32)], 32, 0x0, false⟩
def CEL_TG_CTL.GO : Fld := ⟨CEL_TG_CTL, 0, 1, .wo⟩
def CEL_TG_CTL.ABORT : Fld := ⟨CEL_TG_CTL, 1, 1, .wo⟩
def CEL_TG_CTL.MODE : Fld := ⟨CEL_TG_CTL, 2, 3, .rw⟩
def CEL_TG_CTL.PAT : Fld := ⟨CEL_TG_CTL, 5, 2, .rw⟩
def CEL_TG_CTL.RAW : Fld := ⟨CEL_TG_CTL, 7, 1, .rw⟩
def CEL_TG_CTL.PC : Fld := ⟨CEL_TG_CTL, 8, 1, .rw⟩
/-- 11 R369. -/
def CEL_TG_BASE : Reg := ⟨0x810408, [(0x40000, 8), (0x1000, 32)], 32, 0x0, false⟩
def CEL_TG_BASE.BASE : Fld := ⟨CEL_TG_BASE, 0, 24, .rw⟩
/-- 11 R369. -/
def CEL_TG_LEN : Reg := ⟨0x810410, [(0x40000, 8), (0x1000, 32)], 32, 0x0, false⟩
def CEL_TG_LEN.LEN : Fld := ⟨CEL_TG_LEN, 0, 25, .rw⟩
/-- 11 R369. -/
def CEL_TG_SEED : Reg := ⟨0x810418, [(0x40000, 8), (0x1000, 32)], 64, 0x0, false⟩
def CEL_TG_SEED.SEED : Fld := ⟨CEL_TG_SEED, 0, 64, .rw⟩
/-- 11 R369. -/
def CEL_TG_STAT : Reg := ⟨0x810420, [(0x40000, 8), (0x1000, 32)], 32, 0x0, false⟩
def CEL_TG_STAT.BUSY : Fld := ⟨CEL_TG_STAT, 0, 1, .ro⟩
def CEL_TG_STAT.DONE : Fld := ⟨CEL_TG_STAT, 1, 1, .rw1c⟩
def CEL_TG_STAT.FAIL : Fld := ⟨CEL_TG_STAT, 2, 1, .rw1c⟩
def CEL_TG_STAT.REJ : Fld := ⟨CEL_TG_STAT, 3, 1, .rw1c⟩
def CEL_TG_STAT.ABORTED : Fld := ⟨CEL_TG_STAT, 4, 1, .rw1c⟩
/-- 11 R369. -/
def CEL_TG_ERR : Reg := ⟨0x810428, [(0x40000, 8), (0x1000, 32)], 32, 0x0, false⟩
def CEL_TG_ERR.LINES_BAD : Fld := ⟨CEL_TG_ERR, 0, 16, .rc⟩
/-- 11 R369. -/
def CEL_TG_FAIL : Reg := ⟨0x810430, [(0x40000, 8), (0x1000, 32)], 64, 0x0, false⟩
def CEL_TG_FAIL.LINE : Fld := ⟨CEL_TG_FAIL, 0, 24, .ro⟩
def CEL_TG_FAIL.LANES : Fld := ⟨CEL_TG_FAIL, 24, 36, .ro⟩
/-- 11 R369. -/
def CEL_TG_TIME : Reg := ⟨0x810438, [(0x40000, 8), (0x1000, 32)], 64, 0x0, false⟩
def CEL_TG_TIME.LINES : Fld := ⟨CEL_TG_TIME, 0, 25, .ro⟩
def CEL_TG_TIME.PERIODS : Fld := ⟨CEL_TG_TIME, 32, 32, .ro⟩
/-- 12 R387. -/
def MC_FQ_STAT : Reg := ⟨0xA000, [], 32, 0x0, false⟩
def MC_FQ_STAT.COUNT : Fld := ⟨MC_FQ_STAT, 0, 9, .ro⟩
def MC_FQ_STAT.FULL : Fld := ⟨MC_FQ_STAT, 9, 1, .ro⟩
/-- 12 R387. -/
def MC_FQ_HEAD : Reg := ⟨0xA008, [], 32, 0x0, false⟩
def MC_FQ_HEAD.HEAD : Fld := ⟨MC_FQ_HEAD, 0, 9, .rw⟩
/-- 12 R387. -/
def MC_FQ_TAIL : Reg := ⟨0xA010, [], 32, 0x0, false⟩
def MC_FQ_TAIL.TAIL : Fld := ⟨MC_FQ_TAIL, 0, 9, .ro⟩
/-- 12 R387. -/
def MC_FQ_LOST : Reg := ⟨0xA018, [], 32, 0x0, false⟩
def MC_FQ_LOST.COUNT : Fld := ⟨MC_FQ_LOST, 0, 32, .rc⟩
/-- 12 R389. -/
def MC_ERR_STAT : Reg := ⟨0xA030, [], 32, 0x0, false⟩
def MC_ERR_STAT.FATAL : Fld := ⟨MC_ERR_STAT, 0, 1, .ro⟩
def MC_ERR_STAT.CAUSE : Fld := ⟨MC_ERR_STAT, 1, 4, .ro⟩
/-- 12 R384. -/
def MC_CHK_STAT : Reg := ⟨0xA040, [], 32, 0x0, true⟩
def MC_CHK_STAT.DONE : Fld := ⟨MC_CHK_STAT, 0, 1, .ro⟩
def MC_CHK_STAT.FAIL : Fld := ⟨MC_CHK_STAT, 1, 1, .ro⟩
/-- 12 R387. -/
def MC_FQ_LFIRST : Reg := ⟨0xA100, [(0x8, 4)], 64, 0x0, false⟩
def MC_FQ_LFIRST.WORD : Fld := ⟨MC_FQ_LFIRST, 0, 64, .ro⟩
/-- 12 R387. -/
def MC_FQ_LLAST : Reg := ⟨0xA120, [(0x8, 4)], 64, 0x0, false⟩
def MC_FQ_LLAST.WORD : Fld := ⟨MC_FQ_LLAST, 0, 64, .ro⟩
/-- 12 R387. -/
def MC_FQ_ENTRY : Reg := ⟨0xC000, [(0x20, 256), (0x8, 4)], 64, 0x0, false⟩
def MC_FQ_ENTRY.WORD : Fld := ⟨MC_FQ_ENTRY, 0, 64, .ro⟩
/-- 12 R382. -/
def CEL_SCRUB : Reg := ⟨0x800040, [(0x40000, 8)], 32, 0x18, false⟩
def CEL_SCRUB.HOURS : Fld := ⟨CEL_SCRUB, 0, 8, .rw⟩
/-- 12 R382. -/
def CEL_ECC0 : Reg := ⟨0x800300, [(0x40000, 8)], 32, 0x0, false⟩
def CEL_ECC0.CORR : Fld := ⟨CEL_ECC0, 0, 16, .rc⟩
def CEL_ECC0.UNCORR : Fld := ⟨CEL_ECC0, 16, 16, .rc⟩
/-- 12 R382. -/
def CEL_ECC1 : Reg := ⟨0x800308, [(0x40000, 8)], 32, 0x0, false⟩
def CEL_ECC1.RMW_FAIL : Fld := ⟨CEL_ECC1, 0, 16, .rc⟩
def CEL_ECC1.ODEC : Fld := ⟨CEL_ECC1, 16, 16, .rc⟩
/-- 12 R382. -/
def CEL_INJ : Reg := ⟨0x800310, [(0x40000, 8)], 64, 0x0, false⟩
def CEL_INJ.ARM : Fld := ⟨CEL_INJ, 0, 1, .rw⟩
def CEL_INJ.PC : Fld := ⟨CEL_INJ, 1, 6, .rw⟩
def CEL_INJ.LANES : Fld := ⟨CEL_INJ, 7, 36, .rw⟩
def CEL_INJ.XOR : Fld := ⟨CEL_INJ, 43, 8, .rw⟩
/-- 12 R382. -/
def CEL_ECCSTAT : Reg := ⟨0x800318, [(0x40000, 8)], 32, 0x0, false⟩
def CEL_ECCSTAT.LOG_NEXT : Fld := ⟨CEL_ECCSTAT, 0, 3, .ro⟩
/-- 12 R382. -/
def CEL_LOGA : Reg := ⟨0x800340, [(0x40000, 8), (0x10, 8)], 64, 0x0, false⟩
def CEL_LOGA.LINE : Fld := ⟨CEL_LOGA, 0, 24, .ro⟩
def CEL_LOGA.PC : Fld := ⟨CEL_LOGA, 24, 6, .ro⟩
def CEL_LOGA.KIND : Fld := ⟨CEL_LOGA, 30, 2, .ro⟩
def CEL_LOGA.TIME : Fld := ⟨CEL_LOGA, 32, 32, .ro⟩
/-- 12 R382. -/
def CEL_LOGB : Reg := ⟨0x800348, [(0x40000, 8), (0x10, 8)], 64, 0x0, false⟩
def CEL_LOGB.LANES : Fld := ⟨CEL_LOGB, 0, 36, .ro⟩
/-- 12 R381. -/
def CRK_SCRUB : Reg := ⟨0xA00028, [(0x40000, 8)], 32, 0x8, false⟩
def CRK_SCRUB.HOURS : Fld := ⟨CRK_SCRUB, 0, 8, .rw⟩
/-- 12 R381. -/
def CRK_CH_ECC0 : Reg := ⟨0xA10200, [(0x40000, 8), (0x2000, 16)], 32, 0x0, false⟩
def CRK_CH_ECC0.CORR : Fld := ⟨CRK_CH_ECC0, 0, 16, .rc⟩
def CRK_CH_ECC0.ERASE : Fld := ⟨CRK_CH_ECC0, 16, 16, .rc⟩
/-- 12 R381. -/
def CRK_CH_ECC1 : Reg := ⟨0xA10208, [(0x40000, 8), (0x2000, 16)], 32, 0x0, false⟩
def CRK_CH_ECC1.UNCORR : Fld := ⟨CRK_CH_ECC1, 0, 16, .rc⟩
def CRK_CH_ECC1.RMW_FAIL : Fld := ⟨CRK_CH_ECC1, 16, 16, .rc⟩
/-- 12 R381. -/
def CRK_CH_ECCSTAT : Reg := ⟨0xA10210, [(0x40000, 8), (0x2000, 16)], 32, 0x7, false⟩
def CRK_CH_ECCSTAT.DEAD_LAYER : Fld := ⟨CRK_CH_ECCSTAT, 0, 3, .ro⟩
def CRK_CH_ECCSTAT.FAILED : Fld := ⟨CRK_CH_ECCSTAT, 3, 1, .ro⟩
def CRK_CH_ECCSTAT.UNREP_ROWS : Fld := ⟨CRK_CH_ECCSTAT, 4, 5, .ro⟩
def CRK_CH_ECCSTAT.POISON : Fld := ⟨CRK_CH_ECCSTAT, 9, 5, .ro⟩
def CRK_CH_ECCSTAT.LOG_NEXT : Fld := ⟨CRK_CH_ECCSTAT, 16, 3, .ro⟩
/-- 12 R381. -/
def CRK_CH_INJ : Reg := ⟨0xA10218, [(0x40000, 8), (0x2000, 16)], 64, 0x0, false⟩
def CRK_CH_INJ.ARM : Fld := ⟨CRK_CH_INJ, 0, 1, .rw⟩
def CRK_CH_INJ.SYM : Fld := ⟨CRK_CH_INJ, 1, 20, .rw⟩
def CRK_CH_INJ.CW : Fld := ⟨CRK_CH_INJ, 21, 2, .rw⟩
def CRK_CH_INJ.XOR : Fld := ⟨CRK_CH_INJ, 23, 8, .rw⟩
def CRK_CH_INJ.ERASE : Fld := ⟨CRK_CH_INJ, 31, 1, .rw⟩
def CRK_CH_INJ.LAYER : Fld := ⟨CRK_CH_INJ, 32, 3, .rw⟩
/-- 12 R381. -/
def CRK_CH_ECCCFG : Reg := ⟨0xA10220, [(0x40000, 8), (0x2000, 16)], 32, 0x100, false⟩
def CRK_CH_ECCCFG.DEAD_LIM : Fld := ⟨CRK_CH_ECCCFG, 0, 16, .rw⟩
/-- 12 R381. -/
def CRK_CH_LOGA : Reg := ⟨0xA10240, [(0x40000, 8), (0x2000, 16), (0x10, 8)], 64, 0x0, false⟩
def CRK_CH_LOGA.LINE : Fld := ⟨CRK_CH_LOGA, 0, 21, .ro⟩
def CRK_CH_LOGA.KIND : Fld := ⟨CRK_CH_LOGA, 21, 3, .ro⟩
def CRK_CH_LOGA.LAYERS : Fld := ⟨CRK_CH_LOGA, 24, 5, .ro⟩
def CRK_CH_LOGA.TIME : Fld := ⟨CRK_CH_LOGA, 32, 32, .ro⟩
/-- 12 R381. -/
def CRK_CH_LOGB : Reg := ⟨0xA10248, [(0x40000, 8), (0x2000, 16), (0x10, 8)], 64, 0x0, false⟩
def CRK_CH_LOGB.SYMS : Fld := ⟨CRK_CH_LOGB, 0, 20, .ro⟩
def CRK_CH_LOGB.CW : Fld := ⟨CRK_CH_LOGB, 20, 2, .ro⟩
/-- 12 R383. -/
def VAT_ECC0 : Reg := ⟨0x1000040, [(0x100000, 64)], 32, 0x0, false⟩
def VAT_ECC0.CORR_CS : Fld := ⟨VAT_ECC0, 0, 16, .rc⟩
def VAT_ECC0.CORR_RF : Fld := ⟨VAT_ECC0, 16, 16, .rc⟩
/-- 12 R383. -/
def VAT_ECC1 : Reg := ⟨0x1000048, [(0x100000, 64)], 32, 0x0, false⟩
def VAT_ECC1.CORR_HUB : Fld := ⟨VAT_ECC1, 0, 16, .rc⟩
def VAT_ECC1.UNCORR : Fld := ⟨VAT_ECC1, 16, 16, .rc⟩
/-- 12 R383. -/
def VAT_ECC_CTL : Reg := ⟨0x1000050, [(0x100000, 64)], 32, 0xA, false⟩
def VAT_ECC_CTL.SECONDS : Fld := ⟨VAT_ECC_CTL, 0, 8, .rw⟩
/-- 12 R383. -/
def VAT_ECC_INJ : Reg := ⟨0x1000058, [(0x100000, 64)], 32, 0x0, false⟩
def VAT_ECC_INJ.ARM : Fld := ⟨VAT_ECC_INJ, 0, 1, .rw⟩
def VAT_ECC_INJ.TARGET : Fld := ⟨VAT_ECC_INJ, 1, 3, .rw⟩
def VAT_ECC_INJ.BITS : Fld := ⟨VAT_ECC_INJ, 4, 2, .rw⟩
def VAT_ECC_INJ.CORE : Fld := ⟨VAT_ECC_INJ, 6, 6, .rw⟩
/-- 12 R383. -/
def VAT_CRM_ECC : Reg := ⟨0x1070028, [(0x100000, 64)], 32, 0x0, false⟩
def VAT_CRM_ECC.CORR : Fld := ⟨VAT_CRM_ECC, 0, 16, .rc⟩
def VAT_CRM_ECC.UNCORR : Fld := ⟨VAT_CRM_ECC, 16, 16, .rc⟩
/-- 13 R412. -/
def XLT_SHOOT : Reg := ⟨0xE00000, [], 64, 0x0, false⟩
def XLT_SHOOT.VPAGE : Fld := ⟨XLT_SHOOT, 25, 23, .wo⟩
def XLT_SHOOT.PART : Fld := ⟨XLT_SHOOT, 48, 6, .wo⟩
def XLT_SHOOT.SCOPE : Fld := ⟨XLT_SHOOT, 54, 2, .wo⟩
/-- 13 R412. -/
def XLT_SHOOT_STAT : Reg := ⟨0xE00008, [], 32, 0x0, false⟩
def XLT_SHOOT_STAT.BUSY : Fld := ⟨XLT_SHOOT_STAT, 0, 1, .ro⟩
def XLT_SHOOT_STAT.DONE : Fld := ⟨XLT_SHOOT_STAT, 1, 1, .rw1c⟩
def XLT_SHOOT_STAT.REJ : Fld := ⟨XLT_SHOOT_STAT, 2, 1, .rw1c⟩
/-- 13 R412. -/
def XLT_RESUME : Reg := ⟨0xE00010, [], 64, 0x0, false⟩
def XLT_RESUME.VPAGE : Fld := ⟨XLT_RESUME, 25, 23, .wo⟩
def XLT_RESUME.PART : Fld := ⟨XLT_RESUME, 48, 6, .wo⟩
def XLT_RESUME.ALL : Fld := ⟨XLT_RESUME, 54, 1, .wo⟩
/-- 13 R412. -/
def XLT_WALK_STAT : Reg := ⟨0xE00018, [], 32, 0x0, false⟩
def XLT_WALK_STAT.ACTIVE : Fld := ⟨XLT_WALK_STAT, 0, 5, .ro⟩
def XLT_WALK_STAT.QUEUED : Fld := ⟨XLT_WALK_STAT, 5, 7, .ro⟩
def XLT_WALK_STAT.MIGQ : Fld := ⟨XLT_WALK_STAT, 12, 7, .ro⟩
def XLT_WALK_STAT.MIG_BUSY : Fld := ⟨XLT_WALK_STAT, 19, 1, .ro⟩
/-- 13 R412. -/
def XLT_ERR : Reg := ⟨0xE00020, [], 32, 0x0, false⟩
def XLT_ERR.WALK_UE : Fld := ⟨XLT_ERR, 0, 16, .rc⟩
def XLT_ERR.DENY : Fld := ⟨XLT_ERR, 16, 16, .rc⟩
/-- 13 R414. -/
def XLT_PC_WALK : Reg := ⟨0xE00100, [], 64, 0x0, false⟩
/-- 13 R414. -/
def XLT_PC_MERGE : Reg := ⟨0xE00108, [], 64, 0x0, false⟩
/-- 13 R414. -/
def XLT_PC_FAULT : Reg := ⟨0xE00110, [], 64, 0x0, false⟩
/-- 13 R414. -/
def XLT_PC_MIG : Reg := ⟨0xE00118, [], 64, 0x0, false⟩
/-- 13 R414. -/
def XLT_PC_SHOOT : Reg := ⟨0xE00120, [], 64, 0x0, false⟩
/-- 13 R413. -/
def XLT_PT_BASE : Reg := ⟨0xE10000, [(0x100, 64)], 64, 0x0, false⟩
def XLT_PT_BASE.BASE : Fld := ⟨XLT_PT_BASE, 21, 27, .rw⟩
def XLT_PT_BASE.EN : Fld := ⟨XLT_PT_BASE, 63, 1, .rw⟩
/-- 13 R413. -/
def XLT_FR_BASE : Reg := ⟨0xE10008, [(0x100, 64)], 64, 0x0, false⟩
def XLT_FR_BASE.ADDR : Fld := ⟨XLT_FR_BASE, 12, 52, .rw⟩
/-- 13 R413. -/
def XLT_FR_CFG : Reg := ⟨0xE10010, [(0x100, 64)], 32, 0x6, false⟩
def XLT_FR_CFG.RLOG : Fld := ⟨XLT_FR_CFG, 0, 4, .rw⟩
def XLT_FR_CFG.EN : Fld := ⟨XLT_FR_CFG, 4, 1, .rw⟩
/-- 13 R413. -/
def XLT_FR_PROD : Reg := ⟨0xE10018, [(0x100, 64)], 32, 0x0, false⟩
def XLT_FR_PROD.PROD : Fld := ⟨XLT_FR_PROD, 0, 32, .ro⟩
/-- 13 R413. -/
def XLT_FR_CONS : Reg := ⟨0xE10020, [(0x100, 64)], 32, 0x0, false⟩
def XLT_FR_CONS.CONS : Fld := ⟨XLT_FR_CONS, 0, 32, .rw⟩
/-- 13 R413. -/
def XLT_FR_LOST : Reg := ⟨0xE10028, [(0x100, 64)], 32, 0x0, false⟩
def XLT_FR_LOST.COUNT : Fld := ⟨XLT_FR_LOST, 0, 32, .rc⟩
/-- 13 R413. -/
def XLT_MIG_BASE : Reg := ⟨0xE10030, [(0x100, 64)], 64, 0x0, false⟩
def XLT_MIG_BASE.ADDR : Fld := ⟨XLT_MIG_BASE, 3, 45, .rw⟩
/-- 13 R413. -/
def XLT_MIG_CFG : Reg := ⟨0xE10038, [(0x100, 64)], 32, 0x0, false⟩
def XLT_MIG_CFG.MLOG : Fld := ⟨XLT_MIG_CFG, 0, 4, .rw⟩
/-- 13 R413. -/
def XLT_MIG_HEAD : Reg := ⟨0xE10040, [(0x100, 64)], 32, 0x0, false⟩
def XLT_MIG_HEAD.HEAD : Fld := ⟨XLT_MIG_HEAD, 0, 32, .ro⟩
/-- 13 R413. -/
def XLT_MIG_TAIL : Reg := ⟨0xE10048, [(0x100, 64)], 32, 0x0, false⟩
def XLT_MIG_TAIL.TAIL : Fld := ⟨XLT_MIG_TAIL, 0, 32, .rw⟩
/-- 13 R414. -/
def VAT_TLB_PC_HIT : Reg := ⟨0x1000120, [(0x100000, 64)], 64, 0x0, false⟩
/-- 13 R414. -/
def VAT_TLB_PC_MISS : Reg := ⟨0x1000128, [(0x100000, 64)], 64, 0x0, false⟩
/-- 14 R445. -/
def LNK_STAT : Reg := ⟨0x400000, [(0x10000, 48)], 32, 0x0, false⟩
def LNK_STAT.STATE : Fld := ⟨LNK_STAT, 0, 4, .ro⟩
def LNK_STAT.LANES : Fld := ⟨LNK_STAT, 4, 8, .ro⟩
def LNK_STAT.DETECTED : Fld := ⟨LNK_STAT, 12, 8, .ro⟩
def LNK_STAT.LAST_TO : Fld := ⟨LNK_STAT, 20, 4, .ro⟩
/-- 14 R445. -/
def LNK_CTL : Reg := ⟨0x400008, [(0x10000, 48)], 32, 0x0, false⟩
def LNK_CTL.START : Fld := ⟨LNK_CTL, 0, 1, .wo⟩
def LNK_CTL.STOP : Fld := ⟨LNK_CTL, 1, 1, .wo⟩
def LNK_CTL.LPREQ : Fld := ⟨LNK_CTL, 2, 2, .wo⟩
def LNK_CTL.LOOP : Fld := ⟨LNK_CTL, 4, 2, .rw⟩
/-- 14 R445. -/
def LNK_CFG : Reg := ⟨0x400010, [(0x10000, 48)], 32, 0x40200, false⟩
def LNK_CFG.FILL_INT : Fld := ⟨LNK_CFG, 0, 10, .rw⟩
def LNK_CFG.TX_PRESET : Fld := ⟨LNK_CFG, 10, 4, .rw⟩
def LNK_CFG.UE_LIM : Fld := ⟨LNK_CFG, 14, 8, .rw⟩
/-- 14 R445. -/
def LNK_CAL : Reg := ⟨0x400018, [(0x10000, 48)], 32, 0x0, false⟩
def LNK_CAL.GO : Fld := ⟨LNK_CAL, 0, 1, .wo⟩
/-- 14 R445. -/
def LNK_CAPR0 : Reg := ⟨0x400020, [(0x10000, 48)], 64, 0x0, false⟩
def LNK_CAPR0.REC : Fld := ⟨LNK_CAPR0, 0, 64, .ro⟩
/-- 14 R445. -/
def LNK_CAPR1 : Reg := ⟨0x400028, [(0x10000, 48)], 64, 0x0, false⟩
def LNK_CAPR1.REC : Fld := ⟨LNK_CAPR1, 0, 64, .ro⟩
/-- 14 R445. -/
def LNK_ERR0 : Reg := ⟨0x400030, [(0x10000, 48)], 32, 0x0, false⟩
def LNK_ERR0.STUFF_ERR : Fld := ⟨LNK_ERR0, 0, 16, .rc⟩
def LNK_ERR0.BAD_CTL : Fld := ⟨LNK_ERR0, 16, 16, .rc⟩
/-- 14 R445. -/
def LNK_ERR1 : Reg := ⟨0x400038, [(0x10000, 48)], 32, 0x0, false⟩
def LNK_ERR1.TIMEOUT : Fld := ⟨LNK_ERR1, 0, 16, .rc⟩
def LNK_ERR1.LOS : Fld := ⟨LNK_ERR1, 16, 16, .rc⟩
/-- 14 R445. -/
def LNK_ERR2 : Reg := ⟨0x400040, [(0x10000, 48)], 32, 0x0, false⟩
def LNK_ERR2.LANE_MAP : Fld := ⟨LNK_ERR2, 0, 16, .rc⟩
def LNK_ERR2.ELASTIC : Fld := ⟨LNK_ERR2, 16, 16, .rc⟩
/-- 14 R447. -/
def LNK_PC_FILL_TX : Reg := ⟨0x400100, [(0x10000, 48)], 64, 0x0, false⟩
/-- 14 R447. -/
def LNK_PC_FILL_DEL : Reg := ⟨0x400108, [(0x10000, 48)], 64, 0x0, false⟩
/-- 14 R447. -/
def LNK_PC_FILL_INS : Reg := ⟨0x400110, [(0x10000, 48)], 64, 0x0, false⟩
/-- 14 R447. -/
def LNK_PC_LP_ENTRY : Reg := ⟨0x400118, [(0x10000, 48)], 64, 0x0, false⟩
/-- 14 R447. -/
def LNK_PC_LP_TIME : Reg := ⟨0x400120, [(0x10000, 48)], 64, 0x0, false⟩
/-- 14 R446. -/
def LNK_LN_STAT : Reg := ⟨0x401000, [(0x10000, 48), (0x100, 8)], 32, 0x0, false⟩
def LNK_LN_STAT.DETECTED : Fld := ⟨LNK_LN_STAT, 0, 1, .ro⟩
def LNK_LN_STAT.DONE : Fld := ⟨LNK_LN_STAT, 1, 1, .ro⟩
def LNK_LN_STAT.BLOCK_LOCK : Fld := ⟨LNK_LN_STAT, 2, 1, .ro⟩
def LNK_LN_STAT.FRAME_LOCK : Fld := ⟨LNK_LN_STAT, 3, 1, .ro⟩
def LNK_LN_STAT.POL_INV : Fld := ⟨LNK_LN_STAT, 4, 1, .ro⟩
def LNK_LN_STAT.CAL : Fld := ⟨LNK_LN_STAT, 5, 3, .ro⟩
def LNK_LN_STAT.EYE_BUSY : Fld := ⟨LNK_LN_STAT, 8, 1, .ro⟩
def LNK_LN_STAT.EYE_DONE : Fld := ⟨LNK_LN_STAT, 9, 1, .rw1c⟩
def LNK_LN_STAT.EYE_REJ : Fld := ⟨LNK_LN_STAT, 10, 1, .rw1c⟩
def LNK_LN_STAT.EYE_ABORTED : Fld := ⟨LNK_LN_STAT, 11, 1, .rw1c⟩
/-- 14 R446. -/
def LNK_LN_ERR : Reg := ⟨0x401008, [(0x10000, 48), (0x100, 8)], 32, 0x0, false⟩
def LNK_LN_ERR.FEC_UE : Fld := ⟨LNK_LN_ERR, 0, 16, .rc⟩
def LNK_LN_ERR.HDR_INV : Fld := ⟨LNK_LN_ERR, 16, 16, .rc⟩
/-- 14 R446. -/
def LNK_LN_EYE_CTL : Reg := ⟨0x401020, [(0x10000, 48), (0x100, 8)], 32, 0x0, false⟩
def LNK_LN_EYE_CTL.GO : Fld := ⟨LNK_LN_EYE_CTL, 0, 1, .wo⟩
def LNK_LN_EYE_CTL.ABORT : Fld := ⟨LNK_LN_EYE_CTL, 1, 1, .wo⟩
def LNK_LN_EYE_CTL.EYE : Fld := ⟨LNK_LN_EYE_CTL, 2, 2, .rw⟩
def LNK_LN_EYE_CTL.PHASE : Fld := ⟨LNK_LN_EYE_CTL, 4, 6, .rw⟩
def LNK_LN_EYE_CTL.VOLT : Fld := ⟨LNK_LN_EYE_CTL, 10, 7, .rw⟩
def LNK_LN_EYE_CTL.LOGN : Fld := ⟨LNK_LN_EYE_CTL, 17, 6, .rw⟩
/-- 14 R447. -/
def LNK_LN_EYE_SMP : Reg := ⟨0x401028, [(0x10000, 48), (0x100, 8)], 64, 0x0, false⟩
/-- 14 R447. -/
def LNK_LN_EYE_ERR : Reg := ⟨0x401030, [(0x10000, 48), (0x100, 8)], 64, 0x0, false⟩
/-- 14 R446. -/
def LNK_LN_PG : Reg := ⟨0x401040, [(0x10000, 48), (0x100, 8)], 32, 0x0, false⟩
def LNK_LN_PG.MODE : Fld := ⟨LNK_LN_PG, 0, 3, .rw⟩
def LNK_LN_PG.GEN_EN : Fld := ⟨LNK_LN_PG, 3, 1, .rw⟩
def LNK_LN_PG.CHK_EN : Fld := ⟨LNK_LN_PG, 4, 1, .rw⟩
def LNK_LN_PG.CHK_LOCK : Fld := ⟨LNK_LN_PG, 5, 1, .ro⟩
/-- 14 R447. -/
def LNK_LN_PG_ERR : Reg := ⟨0x401048, [(0x10000, 48), (0x100, 8)], 64, 0x0, false⟩
/-- 14 R447. -/
def LNK_LN_PC_FECC : Reg := ⟨0x401080, [(0x10000, 48), (0x100, 8)], 64, 0x0, false⟩
/-- 14 R447. -/
def LNK_LN_PC_FRAMES : Reg := ⟨0x401088, [(0x10000, 48), (0x100, 8)], 64, 0x0, false⟩
/-- 14 R448. -/
def LNK_GRP_STAT : Reg := ⟨0x408000, [(0x10000, 48)], 32, 0x0, false⟩
def LNK_GRP_STAT.REF_OK : Fld := ⟨LNK_GRP_STAT, 0, 1, .ro⟩
def LNK_GRP_STAT.REF_LOST : Fld := ⟨LNK_GRP_STAT, 1, 1, .rw1c⟩
def LNK_GRP_STAT.SEQ_LOADED : Fld := ⟨LNK_GRP_STAT, 2, 1, .ro⟩
def LNK_GRP_STAT.SEQ_FAULT : Fld := ⟨LNK_GRP_STAT, 3, 1, .ro⟩
def LNK_GRP_STAT.SEQ_VER : Fld := ⟨LNK_GRP_STAT, 16, 16, .ro⟩
/-- 15 R480. -/
def MC_FAB_CTL : Reg := ⟨0x20000, [], 32, 0x81040, false⟩
def MC_FAB_CTL.HOP_LIM : Fld := ⟨MC_FAB_CTL, 0, 8, .rw⟩
def MC_FAB_CTL.VIOL_LIM : Fld := ⟨MC_FAB_CTL, 8, 8, .rw⟩
def MC_FAB_CTL.FLAP_LIM : Fld := ⟨MC_FAB_CTL, 16, 8, .rw⟩
/-- 15 R480. -/
def MC_FAB_TOPO : Reg := ⟨0x20008, [], 64, 0x0, false⟩
def MC_FAB_TOPO.TOPO : Fld := ⟨MC_FAB_TOPO, 0, 4, .ro⟩
def MC_FAB_TOPO.DIM_X : Fld := ⟨MC_FAB_TOPO, 16, 16, .ro⟩
def MC_FAB_TOPO.DIM_Y : Fld := ⟨MC_FAB_TOPO, 32, 16, .ro⟩
def MC_FAB_TOPO.DIM_Z : Fld := ⟨MC_FAB_TOPO, 48, 16, .ro⟩
/-- 15 R480. -/
def MC_FAB_COORD : Reg := ⟨0x20010, [], 64, 0x0, false⟩
def MC_FAB_COORD.X : Fld := ⟨MC_FAB_COORD, 0, 16, .ro⟩
def MC_FAB_COORD.Y : Fld := ⟨MC_FAB_COORD, 16, 16, .ro⟩
def MC_FAB_COORD.Z : Fld := ⟨MC_FAB_COORD, 32, 16, .ro⟩
/-- 15 R480. -/
def MC_FAB_MCG : Reg := ⟨0x30000, [(0x20, 64), (0x8, 4)], 64, 0x0, false⟩
def MC_FAB_MCG.ENTRIES : Fld := ⟨MC_FAB_MCG, 0, 64, .rw⟩
/-- 15 R480. -/
def MC_FAB_RT : Reg := ⟨0x40000, [(0x8, 16384)], 64, 0x0, false⟩
def MC_FAB_RT.PORT_MASK : Fld := ⟨MC_FAB_RT, 0, 48, .rw⟩
def MC_FAB_RT.VALID : Fld := ⟨MC_FAB_RT, 48, 1, .rw⟩
/-- 15 R481. -/
def LNK_FAB_STAT : Reg := ⟨0x402000, [(0x10000, 48)], 32, 0x0, false⟩
def LNK_FAB_STAT.STATE : Fld := ⟨LNK_FAB_STAT, 0, 2, .ro⟩
def LNK_FAB_STAT.HOLD : Fld := ⟨LNK_FAB_STAT, 2, 4, .ro⟩
def LNK_FAB_STAT.WIDTH : Fld := ⟨LNK_FAB_STAT, 6, 8, .ro⟩
def LNK_FAB_STAT.LINK : Fld := ⟨LNK_FAB_STAT, 14, 6, .ro⟩
/-- 15 R481. -/
def LNK_FAB_CTL : Reg := ⟨0x402008, [(0x10000, 48)], 32, 0x800, false⟩
def LNK_FAB_CTL.RELEASE : Fld := ⟨LNK_FAB_CTL, 0, 1, .wo⟩
def LNK_FAB_CTL.HOLD : Fld := ⟨LNK_FAB_CTL, 1, 1, .wo⟩
def LNK_FAB_CTL.RETRAIN : Fld := ⟨LNK_FAB_CTL, 2, 1, .wo⟩
def LNK_FAB_CTL.WMASK : Fld := ⟨LNK_FAB_CTL, 3, 8, .wo⟩
def LNK_FAB_CTL.MIN_W : Fld := ⟨LNK_FAB_CTL, 11, 4, .rw⟩
/-- 15 R481. -/
def LNK_FAB_ERR0 : Reg := ⟨0x402010, [(0x10000, 48)], 32, 0x0, false⟩
def LNK_FAB_ERR0.BAD_PKT : Fld := ⟨LNK_FAB_ERR0, 0, 16, .rc⟩
def LNK_FAB_ERR0.BAD_CU : Fld := ⟨LNK_FAB_ERR0, 16, 16, .rc⟩
/-- 15 R481. -/
def LNK_FAB_ERR1 : Reg := ⟨0x402018, [(0x10000, 48)], 32, 0x0, false⟩
def LNK_FAB_ERR1.SEQ_ERR : Fld := ⟨LNK_FAB_ERR1, 0, 16, .rc⟩
def LNK_FAB_ERR1.CREDIT_VIOL : Fld := ⟨LNK_FAB_ERR1, 16, 16, .rc⟩
/-- 15 R481. -/
def LNK_FAB_ERR2 : Reg := ⟨0x402020, [(0x10000, 48)], 32, 0x0, false⟩
def LNK_FAB_ERR2.LATE_RSP : Fld := ⟨LNK_FAB_ERR2, 0, 16, .rc⟩
def LNK_FAB_ERR2.HOPS : Fld := ⟨LNK_FAB_ERR2, 16, 16, .rc⟩
/-- 15 R481. -/
def LNK_FAB_ERR3 : Reg := ⟨0x402028, [(0x10000, 48)], 32, 0x0, false⟩
def LNK_FAB_ERR3.BAD_PART : Fld := ⟨LNK_FAB_ERR3, 0, 16, .rc⟩
def LNK_FAB_ERR3.NOROUTE : Fld := ⟨LNK_FAB_ERR3, 16, 16, .rc⟩
/-- 15 R482. -/
def LNK_FAB_PC_TXU : Reg := ⟨0x402100, [(0x10000, 48)], 64, 0x0, false⟩
/-- 15 R482. -/
def LNK_FAB_PC_RXU : Reg := ⟨0x402108, [(0x10000, 48)], 64, 0x0, false⟩
/-- 15 R482. -/
def LNK_FAB_PC_REPLAY : Reg := ⟨0x402110, [(0x10000, 48)], 64, 0x0, false⟩
/-- 15 R482. -/
def LNK_FAB_PC_RETRAIN : Reg := ⟨0x402118, [(0x10000, 48)], 64, 0x0, false⟩
/-- 15 R482. -/
def LNK_FAB_PC_TRANSIT : Reg := ⟨0x402120, [(0x10000, 48)], 64, 0x0, false⟩
/-- 15 R482. -/
def LNK_FAB_PC_ERRRSP : Reg := ⟨0x402128, [(0x10000, 48)], 64, 0x0, false⟩
/-- 15 R474. -/
def VAT_RED_XFWD : Reg := ⟨0x1031018, [(0x100000, 64), (0x20, 64)], 64, 0x0, false⟩
def VAT_RED_XFWD.GROUP : Fld := ⟨VAT_RED_XFWD, 0, 6, .rw⟩
def VAT_RED_XFWD.SELF : Fld := ⟨VAT_RED_XFWD, 6, 1, .rw⟩
def VAT_RED_XFWD.EN : Fld := ⟨VAT_RED_XFWD, 7, 1, .rw⟩
def VAT_RED_XFWD.XTAG : Fld := ⟨VAT_RED_XFWD, 8, 16, .rw⟩
def VAT_RED_XFWD.XEXPECT : Fld := ⟨VAT_RED_XFWD, 24, 8, .rw⟩
/-- 16 R518. -/
def FACE_STAT : Reg := ⟨0xC00000, [(0x10000, 6)], 32, 0x0, false⟩
def FACE_STAT.STATE : Fld := ⟨FACE_STAT, 0, 3, .ro⟩
def FACE_STAT.SLICES : Fld := ⟨FACE_STAT, 3, 5, .ro⟩
def FACE_STAT.HOLD : Fld := ⟨FACE_STAT, 8, 4, .ro⟩
def FACE_STAT.FPG : Fld := ⟨FACE_STAT, 12, 1, .ro⟩
def FACE_STAT.FALM : Fld := ⟨FACE_STAT, 13, 1, .ro⟩
/-- 16 R518. -/
def FACE_CTL : Reg := ⟨0xC00008, [(0x10000, 6)], 32, 0x2140, false⟩
def FACE_CTL.START : Fld := ⟨FACE_CTL, 0, 1, .wo⟩
def FACE_CTL.STOP : Fld := ⟨FACE_CTL, 1, 1, .wo⟩
def FACE_CTL.HOLD : Fld := ⟨FACE_CTL, 2, 1, .wo⟩
def FACE_CTL.RELEASE : Fld := ⟨FACE_CTL, 3, 1, .wo⟩
def FACE_CTL.MIN_SL : Fld := ⟨FACE_CTL, 4, 5, .rw⟩
def FACE_CTL.VIOL_LIM : Fld := ⟨FACE_CTL, 9, 8, .rw⟩
/-- 16 R518. -/
def FACE_CAP : Reg := ⟨0xC00010, [(0x10000, 6)], 64, 0x0, false⟩
def FACE_CAP.TRAINED : Fld := ⟨FACE_CAP, 0, 20, .ro⟩
def FACE_CAP.VC1_DEPTH : Fld := ⟨FACE_CAP, 20, 12, .ro⟩
def FACE_CAP.VERSION : Fld := ⟨FACE_CAP, 32, 8, .ro⟩
/-- 16 R518. -/
def FACE_ERR0 : Reg := ⟨0xC00018, [(0x10000, 6)], 32, 0x0, false⟩
def FACE_ERR0.CRC : Fld := ⟨FACE_ERR0, 0, 16, .rc⟩
def FACE_ERR0.BAD_CTL : Fld := ⟨FACE_ERR0, 16, 16, .rc⟩
/-- 16 R518. -/
def FACE_ERR1 : Reg := ⟨0xC00020, [(0x10000, 6)], 32, 0x0, false⟩
def FACE_ERR1.BAD_PKT : Fld := ⟨FACE_ERR1, 0, 16, .rc⟩
def FACE_ERR1.CREDIT_VIOL : Fld := ⟨FACE_ERR1, 16, 16, .rc⟩
/-- 16 R518. -/
def FACE_ERR2 : Reg := ⟨0xC00028, [(0x10000, 6)], 32, 0x0, false⟩
def FACE_ERR2.SEQ_ERR : Fld := ⟨FACE_ERR2, 0, 16, .rc⟩
def FACE_ERR2.TAG_DUP : Fld := ⟨FACE_ERR2, 16, 16, .rc⟩
/-- 16 R518. -/
def FACE_ERR3 : Reg := ⟨0xC00030, [(0x10000, 6)], 32, 0x0, false⟩
def FACE_ERR3.DENY : Fld := ⟨FACE_ERR3, 0, 16, .rc⟩
def FACE_ERR3.STALL : Fld := ⟨FACE_ERR3, 16, 16, .rc⟩
/-- 16 R518. -/
def FACE_ERR4 : Reg := ⟨0xC00038, [(0x10000, 6)], 32, 0x0, false⟩
def FACE_ERR4.SPACING : Fld := ⟨FACE_ERR4, 0, 16, .rc⟩
/-- 16 R518. -/
def FACE_PC_RXB : Reg := ⟨0xC00100, [(0x10000, 6)], 64, 0x0, false⟩
/-- 16 R518. -/
def FACE_PC_TXB : Reg := ⟨0xC00108, [(0x10000, 6)], 64, 0x0, false⟩
/-- 16 R518. -/
def FACE_PC_REPLAY : Reg := ⟨0xC00110, [(0x10000, 6)], 64, 0x0, false⟩
/-- 16 R518. -/
def FACE_PC_REQ : Reg := ⟨0xC00118, [(0x10000, 6)], 64, 0x0, false⟩
/-- 16 R519. -/
def HOST_STAT : Reg := ⟨0xD00000, [], 32, 0x0, false⟩
def HOST_STAT.DL_UP : Fld := ⟨HOST_STAT, 0, 1, .ro⟩
def HOST_STAT.WIDTH : Fld := ⟨HOST_STAT, 1, 5, .ro⟩
def HOST_STAT.SPEED : Fld := ⟨HOST_STAT, 6, 3, .ro⟩
def HOST_STAT.FLIT : Fld := ⟨HOST_STAT, 9, 1, .ro⟩
/-- 16 R519. -/
def HOST_ERR0 : Reg := ⟨0xD00008, [], 32, 0x0, false⟩
def HOST_ERR0.BAD_REQ : Fld := ⟨HOST_ERR0, 0, 16, .rc⟩
def HOST_ERR0.UNEXP_CPL : Fld := ⟨HOST_ERR0, 16, 16, .rc⟩
/-- 16 R519. -/
def HOST_ERR1 : Reg := ⟨0xD00010, [], 32, 0x0, false⟩
def HOST_ERR1.CPL_TO : Fld := ⟨HOST_ERR1, 0, 16, .rc⟩
def HOST_ERR1.POISON : Fld := ⟨HOST_ERR1, 16, 16, .rc⟩
/-- 16 R519. -/
def HOST_ERR2 : Reg := ⟨0xD00018, [], 32, 0x0, false⟩
def HOST_ERR2.CPL_ERR : Fld := ⟨HOST_ERR2, 0, 16, .rc⟩
def HOST_ERR2.LINK_DOWN : Fld := ⟨HOST_ERR2, 16, 16, .rc⟩
/-- 16 R519. -/
def HOST_PC_TXWR : Reg := ⟨0xD00100, [], 64, 0x0, false⟩
/-- 16 R519. -/
def HOST_PC_TXRD : Reg := ⟨0xD00108, [], 64, 0x0, false⟩
/-- 16 R519. -/
def HOST_PC_RXREQ : Reg := ⟨0xD00110, [], 64, 0x0, false⟩
/-- 16 R519. -/
def HOST_PC_CMD : Reg := ⟨0xD00118, [], 64, 0x0, false⟩
/-- 16 R519. -/
def HOST_WIN_BASE : Reg := ⟨0xD10000, [(0x20, 256)], 64, 0x0, false⟩
def HOST_WIN_BASE.BASE : Fld := ⟨HOST_WIN_BASE, 21, 23, .rw⟩
/-- 16 R519. -/
def HOST_WIN_SIZE : Reg := ⟨0xD10008, [(0x20, 256)], 64, 0x0, false⟩
def HOST_WIN_SIZE.SIZE : Fld := ⟨HOST_WIN_SIZE, 21, 24, .rw⟩
/-- 16 R519. -/
def HOST_WIN_ADDR : Reg := ⟨0xD10010, [(0x20, 256)], 64, 0x0, false⟩
def HOST_WIN_ADDR.HADDR : Fld := ⟨HOST_WIN_ADDR, 21, 43, .rw⟩
/-- 16 R519. -/
def HOST_WIN_CFG : Reg := ⟨0xD10018, [(0x20, 256)], 32, 0x0, false⟩
def HOST_WIN_CFG.OWNER : Fld := ⟨HOST_WIN_CFG, 0, 7, .rw⟩
def HOST_WIN_CFG.EN : Fld := ⟨HOST_WIN_CFG, 7, 1, .rw⟩
def HOST_WIN_CFG.WR : Fld := ⟨HOST_WIN_CFG, 8, 1, .rw⟩
/-- 16 R520. -/
def CMD_W : Reg := ⟨0xD40000, [(0x1000, 64), (0x8, 8)], 64, 0x0, false⟩
def CMD_W.WORD : Fld := ⟨CMD_W, 0, 64, .wo⟩
/-- 16 R520. -/
def CMD_STAT : Reg := ⟨0xD40040, [(0x1000, 64)], 64, 0x0, false⟩
def CMD_STAT.HANDLE : Fld := ⟨CMD_STAT, 0, 32, .ro⟩
def CMD_STAT.STATUS : Fld := ⟨CMD_STAT, 32, 8, .ro⟩
def CMD_STAT.DISCARD : Fld := ⟨CMD_STAT, 40, 1, .ro⟩
def CMD_STAT.FLUSHED : Fld := ⟨CMD_STAT, 41, 1, .rw1c⟩
def CMD_STAT.OPEN : Fld := ⟨CMD_STAT, 48, 13, .ro⟩
/-- 16 R520. -/
def RING_CTL : Reg := ⟨0xD40048, [(0x1000, 64)], 32, 0x18, false⟩
def RING_CTL.FLUSH : Fld := ⟨RING_CTL, 0, 1, .wo⟩
def RING_CTL.EN : Fld := ⟨RING_CTL, 1, 1, .rw⟩
def RING_CTL.CLOG : Fld := ⟨RING_CTL, 2, 4, .rw⟩
/-- 16 R520. -/
def CQ_BASE : Reg := ⟨0xD40050, [(0x1000, 64)], 64, 0x0, false⟩
def CQ_BASE.OFFSET : Fld := ⟨CQ_BASE, 12, 32, .rw⟩
/-- 16 R520. -/
def CQ_CONS : Reg := ⟨0xD40058, [(0x1000, 64)], 32, 0x0, false⟩
def CQ_CONS.CONS : Fld := ⟨CQ_CONS, 0, 32, .rw⟩
/-- 16 R520. -/
def CQ_PROD : Reg := ⟨0xD40060, [(0x1000, 64)], 32, 0x0, false⟩
def CQ_PROD.PROD : Fld := ⟨CQ_PROD, 0, 32, .ro⟩
/-- 16 R520. -/
def RING_ERR : Reg := ⟨0xD40068, [(0x1000, 64)], 32, 0x0, false⟩
def RING_ERR.DROP : Fld := ⟨RING_ERR, 0, 16, .rc⟩
/-- 17 R538. -/
def DIC_SRC : Reg := ⟨0x200000, [(0x8, 256)], 64, 0xF0000000, false⟩
def DIC_SRC.TARGETS : Fld := ⟨DIC_SRC, 0, 16, .rw⟩
def DIC_SRC.CLASS : Fld := ⟨DIC_SRC, 16, 1, .rw⟩
def DIC_SRC.AUTO : Fld := ⟨DIC_SRC, 17, 1, .rw⟩
def DIC_SRC.VEC : Fld := ⟨DIC_SRC, 18, 8, .rw⟩
def DIC_SRC.LEVEL : Fld := ⟨DIC_SRC, 26, 1, .ro⟩
def DIC_SRC.INSVC : Fld := ⟨DIC_SRC, 27, 1, .ro⟩
def DIC_SRC.OWNER : Fld := ⟨DIC_SRC, 28, 4, .ro⟩
/-- 17 R538. -/
def DIC_PEND : Reg := ⟨0x201000, [(0x1000, 2), (0x8, 4)], 64, 0x0, false⟩
def DIC_PEND.PEND : Fld := ⟨DIC_PEND, 0, 64, .rw⟩
/-- 17 R538. -/
def DIC_MASK : Reg := ⟨0x201020, [(0x1000, 2), (0x8, 4)], 64, 0xFFFFFFFFFFFFFFFF, false⟩
def DIC_MASK.MASK : Fld := ⟨DIC_MASK, 0, 64, .rw⟩
/-- 17 R538. -/
def DIC_RESAMPLE : Reg := ⟨0x201040, [(0x1000, 2)], 32, 0x0, false⟩
def DIC_RESAMPLE.WORD : Fld := ⟨DIC_RESAMPLE, 0, 2, .wo⟩
/-- 17 R538. -/
def DIC_COAL_N : Reg := ⟨0x201100, [(0x8, 15)], 32, 0x6408, false⟩
def DIC_COAL_N.COUNT : Fld := ⟨DIC_COAL_N, 0, 8, .rw⟩
def DIC_COAL_N.TIME : Fld := ⟨DIC_COAL_N, 8, 16, .rw⟩
/-- 17 R538. -/
def DIC_COAL_F : Reg := ⟨0x202100, [(0x8, 15)], 32, 0x101, false⟩
def DIC_COAL_F.COUNT : Fld := ⟨DIC_COAL_F, 0, 8, .rw⟩
def DIC_COAL_F.TIME : Fld := ⟨DIC_COAL_F, 8, 16, .rw⟩
/-- 17 R538. -/
def DIC_BADCOMP : Reg := ⟨0x203000, [], 32, 0x0, false⟩
def DIC_BADCOMP.COUNT : Fld := ⟨DIC_BADCOMP, 0, 32, .rc⟩
/-- 17 R538. -/
def DIC_LATCH : Reg := ⟨0x203100, [(0x8, 4)], 64, 0x0, false⟩
def DIC_LATCH.LATCH : Fld := ⟨DIC_LATCH, 0, 64, .rw1c⟩
/-- 17 R538. -/
def DIC_LEVEL : Reg := ⟨0x203200, [(0x8, 4)], 64, 0x0, false⟩
def DIC_LEVEL.LEVEL : Fld := ⟨DIC_LEVEL, 0, 64, .ro⟩
/-- 17 R538. -/
def DIC_CLAIM : Reg := ⟨0x210000, [(0x2000, 15), (0x8, 256)], 64, 0x3FF, false⟩
def DIC_CLAIM.SRC : Fld := ⟨DIC_CLAIM, 0, 10, .ro⟩
/-- 17 R538. -/
def DIC_FCLAIM : Reg := ⟨0x210800, [(0x2000, 15), (0x8, 256)], 64, 0x3FF, false⟩
def DIC_FCLAIM.SRC : Fld := ⟨DIC_FCLAIM, 0, 10, .ro⟩
/-- 17 R538. -/
def DIC_VIEW : Reg := ⟨0x211000, [(0x2000, 15), (0x8, 4)], 64, 0x0, false⟩
def DIC_VIEW.SEEN : Fld := ⟨DIC_VIEW, 0, 64, .ro⟩
/-- 17 R538. -/
def DIC_FVIEW : Reg := ⟨0x211020, [(0x2000, 15), (0x8, 4)], 64, 0x0, false⟩
def DIC_FVIEW.SEEN : Fld := ⟨DIC_FVIEW, 0, 64, .ro⟩
/-- 17 R538. -/
def DIC_COMPLETE : Reg := ⟨0x211040, [(0x2000, 15)], 32, 0x0, false⟩
def DIC_COMPLETE.SRC : Fld := ⟨DIC_COMPLETE, 0, 8, .wo⟩
/-- 17 R538. -/
def DIC_FCOMPLETE : Reg := ⟨0x211048, [(0x2000, 15)], 32, 0x0, false⟩
def DIC_FCOMPLETE.SRC : Fld := ⟨DIC_FCOMPLETE, 0, 8, .wo⟩
/-- 17 R537. -/
def VAT_EV_PEND : Reg := ⟨0x1090000, [(0x100000, 64), (0x8, 4)], 64, 0x0, false⟩
def VAT_EV_PEND.PEND : Fld := ⟨VAT_EV_PEND, 0, 64, .rw1c⟩
/-- 17 R537. -/
def VAT_EV_EN : Reg := ⟨0x1090020, [(0x100000, 64), (0x8, 4)], 64, 0x0, false⟩
def VAT_EV_EN.EN : Fld := ⟨VAT_EV_EN, 0, 64, .rw⟩
/-- 17 R537. -/
def VAT_EV_DBELL : Reg := ⟨0x1090040, [(0x100000, 64)], 32, 0x0, false⟩
def VAT_EV_DBELL.SRC : Fld := ⟨VAT_EV_DBELL, 0, 8, .wo⟩
/-- 17 R537. -/
def VAT_EV_CFAULT : Reg := ⟨0x1090048, [(0x100000, 64)], 64, 0x0, false⟩
def VAT_EV_CFAULT.CORE : Fld := ⟨VAT_EV_CFAULT, 0, 64, .rw1c⟩
/-- 17 R537. -/
def VAT_EV_STAT : Reg := ⟨0x1090050, [(0x100000, 64)], 32, 0x0, false⟩
def VAT_EV_STAT.SUM : Fld := ⟨VAT_EV_STAT, 0, 1, .ro⟩
/-- 17 R537. -/
def VAT_EV_ERR : Reg := ⟨0x1090058, [(0x100000, 64)], 32, 0x0, false⟩
def VAT_EV_ERR.DB_BAD : Fld := ⟨VAT_EV_ERR, 0, 16, .rc⟩
/-- 17 R537. -/
def VAT_EV_WAKE : Reg := ⟨0x1090100, [(0x100000, 64), (0x8, 32)], 64, 0x0, false⟩
def VAT_EV_WAKE.CORE0 : Fld := ⟨VAT_EV_WAKE, 0, 6, .rw⟩
def VAT_EV_WAKE.WEN0 : Fld := ⟨VAT_EV_WAKE, 7, 1, .rw⟩
def VAT_EV_WAKE.CORE1 : Fld := ⟨VAT_EV_WAKE, 8, 6, .rw⟩
def VAT_EV_WAKE.WEN1 : Fld := ⟨VAT_EV_WAKE, 15, 1, .rw⟩
def VAT_EV_WAKE.CORE2 : Fld := ⟨VAT_EV_WAKE, 16, 6, .rw⟩
def VAT_EV_WAKE.WEN2 : Fld := ⟨VAT_EV_WAKE, 23, 1, .rw⟩
def VAT_EV_WAKE.CORE3 : Fld := ⟨VAT_EV_WAKE, 24, 6, .rw⟩
def VAT_EV_WAKE.WEN3 : Fld := ⟨VAT_EV_WAKE, 31, 1, .rw⟩
def VAT_EV_WAKE.CORE4 : Fld := ⟨VAT_EV_WAKE, 32, 6, .rw⟩
def VAT_EV_WAKE.WEN4 : Fld := ⟨VAT_EV_WAKE, 39, 1, .rw⟩
def VAT_EV_WAKE.CORE5 : Fld := ⟨VAT_EV_WAKE, 40, 6, .rw⟩
def VAT_EV_WAKE.WEN5 : Fld := ⟨VAT_EV_WAKE, 47, 1, .rw⟩
def VAT_EV_WAKE.CORE6 : Fld := ⟨VAT_EV_WAKE, 48, 6, .rw⟩
def VAT_EV_WAKE.WEN6 : Fld := ⟨VAT_EV_WAKE, 55, 1, .rw⟩
def VAT_EV_WAKE.CORE7 : Fld := ⟨VAT_EV_WAKE, 56, 6, .rw⟩
def VAT_EV_WAKE.WEN7 : Fld := ⟨VAT_EV_WAKE, 63, 1, .rw⟩
/-- 17 R537. -/
def VAT_EV_PC_DBELL : Reg := ⟨0x1090200, [(0x100000, 64)], 64, 0x0, false⟩
/-- 18 R562. -/
def PWR_DOM_STAT : Reg := ⟨0x300000, [(0x8, 80)], 32, 0x0, false⟩
def PWR_DOM_STAT.STATE : Fld := ⟨PWR_DOM_STAT, 0, 3, .ro⟩
def PWR_DOM_STAT.REASON : Fld := ⟨PWR_DOM_STAT, 3, 3, .ro⟩
/-- 18 R562. -/
def PWR_DOM_CTL : Reg := ⟨0x300400, [(0x8, 80)], 32, 0x0, false⟩
def PWR_DOM_CTL.REQ : Fld := ⟨PWR_DOM_CTL, 0, 2, .wo⟩
/-- 18 R562. -/
def PWR_DOM_SHADOW : Reg := ⟨0x300800, [(0x8, 80)], 32, 0x0, false⟩
def PWR_DOM_SHADOW.STATE : Fld := ⟨PWR_DOM_SHADOW, 0, 3, .rw⟩
/-- 18 R562. -/
def PWR_LOOP : Reg := ⟨0x301000, [], 32, 0x36603C3, false⟩
def PWR_LOOP.BHI : Fld := ⟨PWR_LOOP, 0, 10, .rw⟩
def PWR_LOOP.BLO : Fld := ⟨PWR_LOOP, 16, 10, .rw⟩
/-- 18 R562. -/
def PWR_THR : Reg := ⟨0x301008, [], 32, 0x5F, false⟩
def PWR_THR.THROT : Fld := ⟨PWR_THR, 0, 8, .rw⟩
/-- 18 R562. -/
def PWR_LIMIT : Reg := ⟨0x301010, [], 32, 0x460000, false⟩
def PWR_LIMIT.LIMIT : Fld := ⟨PWR_LIMIT, 0, 10, .rw⟩
def PWR_LIMIT.DEVCAP : Fld := ⟨PWR_LIMIT, 16, 8, .ro⟩
/-- 18 R562. -/
def PWR_MEAS : Reg := ⟨0x301018, [], 64, 0x0, false⟩
def PWR_MEAS.BODRA : Fld := ⟨PWR_MEAS, 0, 16, .ro⟩
def PWR_MEAS.GUEST : Fld := ⟨PWR_MEAS, 16, 16, .ro⟩
def PWR_MEAS.GLOSS : Fld := ⟨PWR_MEAS, 32, 16, .ro⟩
/-- 18 R562. -/
def PWR_EVT : Reg := ⟨0x301020, [], 32, 0x0, false⟩
def PWR_EVT.HOT : Fld := ⟨PWR_EVT, 0, 1, .rw1c⟩
def PWR_EVT.REG : Fld := ⟨PWR_EVT, 1, 1, .rw1c⟩
def PWR_EVT.SKEW : Fld := ⟨PWR_EVT, 2, 1, .rw1c⟩
def PWR_EVT.SENSOR : Fld := ⟨PWR_EVT, 3, 1, .rw1c⟩
def PWR_EVT.OVER : Fld := ⟨PWR_EVT, 4, 1, .rw1c⟩
def PWR_EVT.HOLDUP : Fld := ⟨PWR_EVT, 5, 1, .rw1c⟩
/-- 18 R562. -/
def PWR_EVT_EN : Reg := ⟨0x301028, [], 32, 0x3F, false⟩
def PWR_EVT_EN.EN : Fld := ⟨PWR_EVT_EN, 0, 6, .rw⟩
/-- 18 R562. -/
def PWR_TRIP_REC : Reg := ⟨0x301030, [], 64, 0x0, false⟩
def PWR_TRIP_REC.VALID : Fld := ⟨PWR_TRIP_REC, 0, 1, .rw1c⟩
def PWR_TRIP_REC.MRAM : Fld := ⟨PWR_TRIP_REC, 1, 2, .ro⟩
def PWR_TRIP_REC.SRC : Fld := ⟨PWR_TRIP_REC, 4, 12, .ro⟩
def PWR_TRIP_REC.TEMP : Fld := ⟨PWR_TRIP_REC, 16, 8, .ro⟩
def PWR_TRIP_REC.TIME : Fld := ⟨PWR_TRIP_REC, 32, 32, .ro⟩
/-- 18 R562. -/
def PWR_SKEW0 : Reg := ⟨0x301040, [], 64, 0x0, false⟩
def PWR_SKEW0.DOM : Fld := ⟨PWR_SKEW0, 0, 64, .ro⟩
/-- 18 R562. -/
def PWR_SKEW1 : Reg := ⟨0x301048, [], 32, 0x0, false⟩
def PWR_SKEW1.DOM : Fld := ⟨PWR_SKEW1, 0, 16, .ro⟩
/-- 18 R562. -/
def PWR_SKEW_CFG : Reg := ⟨0x301050, [], 32, 0x3E8, false⟩
def PWR_SKEW_CFG.SKEW_T : Fld := ⟨PWR_SKEW_CFG, 0, 16, .rw⟩
/-- 18 R562. -/
def PWR_ERR : Reg := ⟨0x301058, [], 32, 0x0, false⟩
def PWR_ERR.REQ_REJ : Fld := ⟨PWR_ERR, 0, 16, .rc⟩
def PWR_ERR.WR_REJ : Fld := ⟨PWR_ERR, 16, 16, .rc⟩
/-- 18 R564. -/
def PWR_G_CFG : Reg := ⟨0x302000, [(0x20, 6)], 32, 0x32, false⟩
def PWR_G_CFG.VSET : Fld := ⟨PWR_G_CFG, 0, 8, .rw⟩
/-- 18 R564. -/
def PWR_G_MEAS : Reg := ⟨0x302008, [(0x20, 6)], 64, 0x0, false⟩
def PWR_G_MEAS.V : Fld := ⟨PWR_G_MEAS, 0, 8, .ro⟩
def PWR_G_MEAS.I : Fld := ⟨PWR_G_MEAS, 8, 16, .ro⟩
def PWR_G_MEAS.P : Fld := ⟨PWR_G_MEAS, 24, 16, .ro⟩
def PWR_G_MEAS.ILIM : Fld := ⟨PWR_G_MEAS, 40, 16, .ro⟩
/-- 18 R562. -/
def PWR_SENS : Reg := ⟨0x303000, [(0x8, 136)], 32, 0x0, false⟩
def PWR_SENS.TEMP : Fld := ⟨PWR_SENS, 0, 8, .ro⟩
def PWR_SENS.FAILED : Fld := ⟨PWR_SENS, 8, 1, .ro⟩
def PWR_SENS.PEAK : Fld := ⟨PWR_SENS, 16, 8, .rc⟩
/-- 18 R563. -/
def PWR_VAT_V : Reg := ⟨0x310000, [(0x100, 64)], 64, 0x4600000000, false⟩
def PWR_VAT_V.FLOOR : Fld := ⟨PWR_VAT_V, 0, 8, .rw⟩
def PWR_VAT_V.CAP : Fld := ⟨PWR_VAT_V, 8, 8, .rw⟩
def PWR_VAT_V.POLICY : Fld := ⟨PWR_VAT_V, 16, 1, .rw⟩
def PWR_VAT_V.APPLIED : Fld := ⟨PWR_VAT_V, 24, 8, .ro⟩
def PWR_VAT_V.HWCAP : Fld := ⟨PWR_VAT_V, 32, 8, .ro⟩
def PWR_VAT_V.BIND : Fld := ⟨PWR_VAT_V, 40, 3, .ro⟩
def PWR_VAT_V.TJ : Fld := ⟨PWR_VAT_V, 48, 8, .ro⟩
/-- 18 R563. -/
def PWR_VAT_PC_CAPHELD : Reg := ⟨0x310040, [(0x100, 64)], 64, 0x0, false⟩
/-- 18 R563. -/
def PWR_VAT_PC_HWHELD : Reg := ⟨0x310048, [(0x100, 64)], 64, 0x0, false⟩
/-- 18 R563. -/
def PWR_VAT_PC_FLOORLOST : Reg := ⟨0x310050, [(0x100, 64)], 64, 0x0, false⟩
/-- 18 R563. -/
def PWR_VAT_PC_ABSORB : Reg := ⟨0x310058, [(0x100, 64)], 64, 0x0, false⟩
/-- 19 R591. -/
def MC_BOOT_STAT : Reg := ⟨0xB000, [], 64, 0x0, true⟩
def MC_BOOT_STAT.PHASE : Fld := ⟨MC_BOOT_STAT, 0, 4, .ro⟩
def MC_BOOT_STAT.RESULT : Fld := ⟨MC_BOOT_STAT, 4, 3, .ro⟩
def MC_BOOT_STAT.CAUSE : Fld := ⟨MC_BOOT_STAT, 8, 3, .ro⟩
def MC_BOOT_STAT.BANK : Fld := ⟨MC_BOOT_STAT, 12, 1, .ro⟩
def MC_BOOT_STAT.TRIAL : Fld := ⟨MC_BOOT_STAT, 13, 1, .ro⟩
def MC_BOOT_STAT.JFULL : Fld := ⟨MC_BOOT_STAT, 14, 1, .ro⟩
def MC_BOOT_STAT.AUTOLOAD : Fld := ⟨MC_BOOT_STAT, 15, 1, .ro⟩
def MC_BOOT_STAT.ERR : Fld := ⟨MC_BOOT_STAT, 16, 8, .ro⟩
def MC_BOOT_STAT.START_CNT : Fld := ⟨MC_BOOT_STAT, 32, 32, .ro⟩
/-- 19 R591. -/
def MC_BOOT_TIME : Reg := ⟨0xB008, [], 32, 0x0, true⟩
def MC_BOOT_TIME.TREADY : Fld := ⟨MC_BOOT_TIME, 0, 32, .ro⟩
/-- 19 R591. -/
def MC_BOOT_CTL : Reg := ⟨0xB010, [], 32, 0x0, false⟩
def MC_BOOT_CTL.RESET : Fld := ⟨MC_BOOT_CTL, 0, 8, .wo⟩
/-- 19 R591. -/
def MC_JRNL_STAT : Reg := ⟨0xB018, [], 32, 0x0, true⟩
def MC_JRNL_STAT.USED : Fld := ⟨MC_JRNL_STAT, 0, 13, .ro⟩
def MC_JRNL_STAT.ADDED : Fld := ⟨MC_JRNL_STAT, 16, 13, .ro⟩
/-- 19 R591. -/
def MC_MRAM_ERR : Reg := ⟨0xB020, [], 32, 0x0, true⟩
def MC_MRAM_ERR.CORR : Fld := ⟨MC_MRAM_ERR, 0, 16, .rc⟩
def MC_MRAM_ERR.UNCORR : Fld := ⟨MC_MRAM_ERR, 16, 16, .rc⟩
/-- 19 R591. -/
def MC_TOPO_STAT : Reg := ⟨0xB028, [], 32, 0x0, true⟩
def MC_TOPO_STAT.EXPECT : Fld := ⟨MC_TOPO_STAT, 0, 6, .ro⟩
def MC_TOPO_STAT.ADMITTED : Fld := ⟨MC_TOPO_STAT, 8, 6, .ro⟩
def MC_TOPO_STAT.DONE : Fld := ⟨MC_TOPO_STAT, 24, 1, .ro⟩
def MC_TOPO_STAT.PASS : Fld := ⟨MC_TOPO_STAT, 25, 1, .ro⟩
/-- 19 R591. -/
def MC_TOPO_MISS : Reg := ⟨0xB030, [], 64, 0x0, true⟩
def MC_TOPO_MISS.PORTS : Fld := ⟨MC_TOPO_MISS, 0, 48, .ro⟩
/-- 19 R591. -/
def MC_TOPO_CFG : Reg := ⟨0xB038, [], 32, 0x1F4, false⟩
def MC_TOPO_CFG.TOPO_WAIT : Fld := ⟨MC_TOPO_CFG, 0, 16, .rw⟩
/-- 19 R591. -/
def MC_BOOT_PTIME : Reg := ⟨0xB100, [(0x8, 8)], 32, 0x0, true⟩
def MC_BOOT_PTIME.US : Fld := ⟨MC_BOOT_PTIME, 0, 32, .ro⟩
/-- 19 R592. -/
def MC_DEF_VAT : Reg := ⟨0xB200, [(0x8, 64)], 64, 0x0, true⟩
def MC_DEF_VAT.TOTAL : Fld := ⟨MC_DEF_VAT, 0, 7, .ro⟩
def MC_DEF_VAT.WITHDRAWN : Fld := ⟨MC_DEF_VAT, 7, 1, .ro⟩
def MC_DEF_VAT.FUSE : Fld := ⟨MC_DEF_VAT, 8, 7, .ro⟩
def MC_DEF_VAT.JRNL : Fld := ⟨MC_DEF_VAT, 16, 7, .ro⟩
def MC_DEF_VAT.NEW : Fld := ⟨MC_DEF_VAT, 24, 7, .ro⟩
def MC_DEF_VAT.RETRY : Fld := ⟨MC_DEF_VAT, 32, 7, .ro⟩
/-- 19 R592. -/
def MC_DEF_MAP0 : Reg := ⟨0xB400, [(0x10, 64)], 64, 0x0, true⟩
def MC_DEF_MAP0.DEF : Fld := ⟨MC_DEF_MAP0, 0, 64, .ro⟩
/-- 19 R592. -/
def MC_DEF_MAP1 : Reg := ⟨0xB408, [(0x10, 64)], 64, 0x0, true⟩
def MC_DEF_MAP1.DEF : Fld := ⟨MC_DEF_MAP1, 0, 8, .ro⟩
/-- 19 R592. -/
def MC_JRNL : Reg := ⟨0x10000, [(0x10, 4096), (0x8, 2)], 64, 0x0, true⟩
def MC_JRNL.WORD : Fld := ⟨MC_JRNL, 0, 64, .ro⟩
/-- 19 R593. -/
def VAT_TEST_CTL : Reg := ⟨0x10A0000, [(0x100000, 64)], 32, 0x3E800, false⟩
def VAT_TEST_CTL.GO_S : Fld := ⟨VAT_TEST_CTL, 0, 1, .wo⟩
def VAT_TEST_CTL.GO_F : Fld := ⟨VAT_TEST_CTL, 1, 1, .wo⟩
def VAT_TEST_CTL.TO : Fld := ⟨VAT_TEST_CTL, 8, 16, .rw⟩
/-- 19 R593. -/
def VAT_TEST_STAT : Reg := ⟨0x10A0008, [(0x100000, 64)], 32, 0x0, false⟩
def VAT_TEST_STAT.BUSY : Fld := ⟨VAT_TEST_STAT, 0, 1, .ro⟩
def VAT_TEST_STAT.DONE : Fld := ⟨VAT_TEST_STAT, 1, 1, .rw1c⟩
/-- 19 R593. -/
def VAT_TEST_FAIL0 : Reg := ⟨0x10A0010, [(0x100000, 64)], 64, 0x0, false⟩
def VAT_TEST_FAIL0.FAIL : Fld := ⟨VAT_TEST_FAIL0, 0, 64, .ro⟩
/-- 19 R593. -/
def VAT_TEST_FAIL1 : Reg := ⟨0x10A0018, [(0x100000, 64)], 64, 0x0, false⟩
def VAT_TEST_FAIL1.FAIL : Fld := ⟨VAT_TEST_FAIL1, 0, 8, .ro⟩
/-- 19 R593. -/
def VAT_TEST_SKIP0 : Reg := ⟨0x10A0020, [(0x100000, 64)], 64, 0x0, false⟩
def VAT_TEST_SKIP0.SKIP : Fld := ⟨VAT_TEST_SKIP0, 0, 64, .rw⟩
/-- 19 R593. -/
def VAT_TEST_SKIP1 : Reg := ⟨0x10A0028, [(0x100000, 64)], 64, 0x0, false⟩
def VAT_TEST_SKIP1.SKIP : Fld := ⟨VAT_TEST_SKIP1, 0, 8, .rw⟩
/-- 20 R612. -/
def TWIN_STAT : Reg := ⟨0xF00000, [], 32, 0x0, false⟩
def TWIN_STAT.STATE : Fld := ⟨TWIN_STAT, 0, 3, .ro⟩
def TWIN_STAT.LEADER : Fld := ⟨TWIN_STAT, 3, 1, .ro⟩
def TWIN_STAT.PORTS : Fld := ⟨TWIN_STAT, 4, 2, .ro⟩
def TWIN_STAT.RING_USED : Fld := ⟨TWIN_STAT, 16, 13, .ro⟩
/-- 20 R612. -/
def TWIN_CTL : Reg := ⟨0xF00008, [], 32, 0x0, false⟩
def TWIN_CTL.LEAD : Fld := ⟨TWIN_CTL, 0, 1, .wo⟩
def TWIN_CTL.TEST_GO : Fld := ⟨TWIN_CTL, 1, 1, .wo⟩
/-- 20 R612. -/
def TWIN_CFG : Reg := ⟨0xF00010, [], 64, 0x3E800640064000C, false⟩
def TWIN_CFG.WLOG : Fld := ⟨TWIN_CFG, 0, 4, .rw⟩
def TWIN_CFG.MATCH_T : Fld := ⟨TWIN_CFG, 16, 16, .rw⟩
def TWIN_CFG.LOST_T : Fld := ⟨TWIN_CFG, 32, 16, .rw⟩
def TWIN_CFG.SYNC_T : Fld := ⟨TWIN_CFG, 48, 16, .rw⟩
/-- 20 R612. -/
def TWIN_DIV : Reg := ⟨0xF00018, [], 64, 0x0, false⟩
def TWIN_DIV.KEY : Fld := ⟨TWIN_DIV, 0, 46, .ro⟩
def TWIN_DIV.KIND : Fld := ⟨TWIN_DIV, 46, 2, .ro⟩
/-- 20 R612. -/
def TWIN_DIVSIG : Reg := ⟨0xF00020, [(0x8, 2)], 64, 0x0, false⟩
def TWIN_DIVSIG.SIG : Fld := ⟨TWIN_DIVSIG, 0, 64, .ro⟩
/-- 20 R612. -/
def TWIN_EVT : Reg := ⟨0xF00030, [], 32, 0x0, false⟩
def TWIN_EVT.DIV : Fld := ⟨TWIN_EVT, 0, 1, .rw1c⟩
def TWIN_EVT.CMP : Fld := ⟨TWIN_EVT, 1, 1, .rw1c⟩
def TWIN_EVT.INTEG : Fld := ⟨TWIN_EVT, 2, 1, .rw1c⟩
def TWIN_EVT.ALONE : Fld := ⟨TWIN_EVT, 3, 1, .rw1c⟩
def TWIN_EVT.SYNCED : Fld := ⟨TWIN_EVT, 4, 1, .rw1c⟩
/-- 20 R612. -/
def TWIN_EVT_EN : Reg := ⟨0xF00038, [], 32, 0xF, false⟩
def TWIN_EVT_EN.EN : Fld := ⟨TWIN_EVT_EN, 0, 5, .rw⟩
/-- 20 R612. -/
def TWIN_ERR0 : Reg := ⟨0xF00040, [], 32, 0x0, false⟩
def TWIN_ERR0.CORR : Fld := ⟨TWIN_ERR0, 0, 16, .rc⟩
def TWIN_ERR0.SUSPECT : Fld := ⟨TWIN_ERR0, 16, 16, .rc⟩
/-- 20 R612. -/
def TWIN_ERR1 : Reg := ⟨0xF00048, [], 32, 0x0, false⟩
def TWIN_ERR1.BAD_PKT : Fld := ⟨TWIN_ERR1, 0, 16, .rc⟩
def TWIN_ERR1.DUP : Fld := ⟨TWIN_ERR1, 16, 16, .rc⟩
/-- 20 R613. -/
def TWIN_PC_REC : Reg := ⟨0xF00100, [], 64, 0x0, false⟩
/-- 20 R613. -/
def TWIN_PC_MATCH : Reg := ⟨0xF00108, [], 64, 0x0, false⟩
/-- 20 R613. -/
def TWIN_PC_TEST : Reg := ⟨0xF00110, [], 64, 0x0, false⟩
/-- 20 R613. -/
def TWIN_PC_STALL : Reg := ⟨0xF00118, [], 64, 0x0, false⟩
/-- 21 R637. -/
def RIND_STAT : Reg := ⟨0x100000, [], 32, 0x0, false⟩
def RIND_STAT.STATE : Fld := ⟨RIND_STAT, 0, 3, .ro⟩
def RIND_STAT.VALIDATED : Fld := ⟨RIND_STAT, 3, 1, .ro⟩
def RIND_STAT.CLAIMED : Fld := ⟨RIND_STAT, 4, 1, .ro⟩
def RIND_STAT.DEBUG : Fld := ⟨RIND_STAT, 5, 1, .ro⟩
/-- 21 R637. -/
def RIND_CTL : Reg := ⟨0x100008, [], 32, 0x0, false⟩
def RIND_CTL.GO : Fld := ⟨RIND_CTL, 0, 1, .wo⟩
def RIND_CTL.SELFTEST : Fld := ⟨RIND_CTL, 1, 1, .wo⟩
/-- 21 R637. -/
def RIND_CMD_ADDR : Reg := ⟨0x100010, [], 64, 0x0, false⟩
def RIND_CMD_ADDR.ADDR : Fld := ⟨RIND_CMD_ADDR, 0, 64, .rw⟩
/-- 21 R637. -/
def RIND_CMD_LEN : Reg := ⟨0x100018, [], 32, 0x0, false⟩
def RIND_CMD_LEN.LEN : Fld := ⟨RIND_CMD_LEN, 0, 24, .rw⟩
/-- 21 R637. -/
def RIND_RSP_ADDR : Reg := ⟨0x100020, [], 64, 0x0, false⟩
def RIND_RSP_ADDR.ADDR : Fld := ⟨RIND_RSP_ADDR, 0, 64, .rw⟩
/-- 21 R637. -/
def RIND_CMD_STAT : Reg := ⟨0x100028, [], 32, 0x0, false⟩
def RIND_CMD_STAT.STATUS : Fld := ⟨RIND_CMD_STAT, 0, 8, .ro⟩
def RIND_CMD_STAT.DONE : Fld := ⟨RIND_CMD_STAT, 8, 1, .rw1c⟩
def RIND_CMD_STAT.REJ : Fld := ⟨RIND_CMD_STAT, 9, 1, .rw1c⟩
/-- 21 R637. -/
def RIND_NONCE : Reg := ⟨0x100030, [], 64, 0x0, false⟩
def RIND_NONCE.NONCE : Fld := ⟨RIND_NONCE, 0, 64, .ro⟩
/-- 21 R637. -/
def RIND_UID : Reg := ⟨0x100038, [], 64, 0x0, false⟩
def RIND_UID.UID : Fld := ⟨RIND_UID, 0, 64, .ro⟩
/-- 21 R637. -/
def RIND_FUSE : Reg := ⟨0x100040, [], 32, 0x0, false⟩
def RIND_FUSE.CODE_V : Fld := ⟨RIND_FUSE, 0, 1, .ro⟩
def RIND_FUSE.DEBUG_PERM : Fld := ⟨RIND_FUSE, 1, 1, .ro⟩
def RIND_FUSE.CLEAR_OK : Fld := ⟨RIND_FUSE, 2, 1, .ro⟩
def RIND_FUSE.FW_VALID_ONLY : Fld := ⟨RIND_FUSE, 3, 1, .ro⟩
/-- 21 R637. -/
def RIND_FWSVN : Reg := ⟨0x100048, [], 32, 0x0, false⟩
def RIND_FWSVN.RUN_SVN : Fld := ⟨RIND_FWSVN, 0, 16, .ro⟩
def RIND_FWSVN.MIN_SVN : Fld := ⟨RIND_FWSVN, 16, 16, .ro⟩
/-- 21 R637. -/
def RIND_SLOT : Reg := ⟨0x100100, [(0x8, 8)], 64, 0x0, false⟩
def RIND_SLOT.STATE : Fld := ⟨RIND_SLOT, 0, 2, .ro⟩
def RIND_SLOT.PRINT : Fld := ⟨RIND_SLOT, 8, 56, .ro⟩
/-- 21 R637. -/
def RIND_KEYS : Reg := ⟨0x100200, [], 64, 0x0, false⟩
def RIND_KEYS.LIVE : Fld := ⟨RIND_KEYS, 0, 64, .ro⟩
/-- 21 R637. -/
def RIND_ERR : Reg := ⟨0x100208, [], 32, 0x0, false⟩
def RIND_ERR.CMD_FAIL : Fld := ⟨RIND_ERR, 0, 16, .rc⟩
def RIND_ERR.AUTH_FAIL : Fld := ⟨RIND_ERR, 16, 16, .rc⟩
/-- 21 R638. -/
def RIND_PC_CMD : Reg := ⟨0x100300, [], 64, 0x0, false⟩
/-- 21 R638. -/
def RIND_PC_KEYGEN : Reg := ⟨0x100308, [], 64, 0x0, false⟩

/-- The fields of a performance counter (04 R141). -/
def pcCount (r : Reg) : Fld := ⟨r, 0, 48, .ro⟩
/-- The overflow bit of a performance counter (04 R141). -/
def pcOvf (r : Reg) : Fld := ⟨r, 48, 1, .rw1c⟩

/-- Part 0 of the register table: each register with its fields. -/
def regTable0 : List (Reg × List Fld) := [
  (MC_TSC, [MC_TSC.COUNT]),
  (MC_LEDGER_CTL, [MC_LEDGER_CTL.TEST_GO, MC_LEDGER_CTL.TEST_POOL]),
  (MC_LEDGER_STAT, [MC_LEDGER_STAT.BUSY, MC_LEDGER_STAT.TEST_PASS, MC_LEDGER_STAT.TEST_FAIL, MC_LEDGER_STAT.TEST_REJ, MC_LEDGER_STAT.MISMATCH, MC_LEDGER_STAT.EXCL]),
  (MC_LEDGER_AUDITS, [MC_LEDGER_AUDITS.COUNT, MC_LEDGER_AUDITS.OVF]),
  (MC_LEDGER_REC, [MC_LEDGER_REC.POOL, MC_LEDGER_REC.INSTANCE, MC_LEDGER_REC.DIFF, MC_LEDGER_REC.AUDIT]),
  (MC_IMG_STAT, [MC_IMG_STAT.STATE, MC_IMG_STAT.FAILED, MC_IMG_STAT.RELOAD_PART]),
  (MC_IMG_ERR, [MC_IMG_ERR.CODE, MC_IMG_ERR.SECTION, MC_IMG_ERR.PART, MC_IMG_ERR.OFFSET]),
  (MC_IMG_SEQ, [MC_IMG_SEQ.SEQUENCE]),
  (MC_IMG_MINSEQ, [MC_IMG_MINSEQ.MIN]),
  (MC_IMG_ID, [MC_IMG_ID.DEV_ID, MC_IMG_ID.FABRIC_ID]),
  (MC_IMG_BUILD, [MC_IMG_BUILD.FABRIC_BUILD]),
  (MC_IMG_PARTS, [MC_IMG_PARTS.DEFINED]),
  (VAT_CORE_CTL, [VAT_CORE_CTL.VICTIM_EN]),
  (VAT_CORE_STAT, [VAT_CORE_STAT.RUNNING, VAT_CORE_STAT.IN_HANDLER, VAT_CORE_STAT.CC_INIT, VAT_CORE_STAT.PENDING, VAT_CORE_STAT.SB_USED]),
  (VAT_CORE_TREC0, [VAT_CORE_TREC0.TCAUSE, VAT_CORE_TREC0.TINSN]),
  (VAT_CORE_TREC1, [VAT_CORE_TREC1.TADDRLO, VAT_CORE_TREC1.TADDRHI]),
  (VAT_CC_MASK_D, [VAT_CC_MASK_D.MASK]),
  (VAT_CC_MASK_P, [VAT_CC_MASK_P.MASK]),
  (VAT_CC_MASK_L, [VAT_CC_MASK_L.MASK]),
  (VAT_CC_MASK_Z, [VAT_CC_MASK_Z.MASK]),
  (VAT_CORE_ERR, [VAT_CORE_ERR.CC_PAR, VAT_CORE_ERR.MCHK]),
  (VAT_CORE_PC_INSN, [pcCount VAT_CORE_PC_INSN, pcOvf VAT_CORE_PC_INSN]),
  (VAT_CORE_PC_PARTIAL, [pcCount VAT_CORE_PC_PARTIAL, pcOvf VAT_CORE_PC_PARTIAL]),
  (VAT_CORE_PC_CC_HIT, [pcCount VAT_CORE_PC_CC_HIT, pcOvf VAT_CORE_PC_CC_HIT]),
  (VAT_CORE_PC_CC_MISS, [pcCount VAT_CORE_PC_CC_MISS, pcOvf VAT_CORE_PC_CC_MISS]),
  (VAT_CORE_PC_SB_HIT, [pcCount VAT_CORE_PC_SB_HIT, pcOvf VAT_CORE_PC_SB_HIT]),
  (VAT_CORE_PC_VICTIM, [pcCount VAT_CORE_PC_VICTIM, pcOvf VAT_CORE_PC_VICTIM]),
  (VAT_CORE_PC_DECLINE, [pcCount VAT_CORE_PC_DECLINE, pcOvf VAT_CORE_PC_DECLINE]),
  (VAT_CORE_PC_INJ_DROP, [pcCount VAT_CORE_PC_INJ_DROP, pcOvf VAT_CORE_PC_INJ_DROP]),
  (VAT_RESET, [VAT_RESET.GO]),
  (VAT_STAT, [VAT_STAT.RESETTING, VAT_STAT.EPOCH]),
  (VAT_PC_READY_DROP, [pcCount VAT_PC_READY_DROP, pcOvf VAT_PC_READY_DROP]),
  (VAT_PC_CMD_REJ, [pcCount VAT_PC_CMD_REJ, pcOvf VAT_PC_CMD_REJ]),
  (VAT_PC_TALLY_SATINC, [pcCount VAT_PC_TALLY_SATINC, pcOvf VAT_PC_TALLY_SATINC]),
  (VAT_TASK_DESC, [VAT_TASK_DESC.ENTRY, VAT_TASK_DESC.TARGET, VAT_TASK_DESC.GATE, VAT_TASK_DESC.GATE_EN, VAT_TASK_DESC.OUT, VAT_TASK_DESC.OUT_EN, VAT_TASK_DESC.REARM]),
  (VAT_TASK_ARG, [VAT_TASK_ARG.ARG]),
  (VAT_TASK_CTL, [VAT_TASK_CTL.STATE, VAT_TASK_CTL.ABORT, VAT_TASK_CTL.WAIT, VAT_TASK_CTL.CMD]),
  (VAT_TALLY_CNT, [VAT_TALLY_CNT.COUNT]),
  (VAT_TALLY_THR, [VAT_TALLY_THR.THRESH]),
  (VAT_TALLY_STEP, [VAT_TALLY_STEP.STEP])]
/-- Part 1 of the register table: each register with its fields. -/
def regTable1 : List (Reg × List Fld) := [
  (VAT_TALLY_STAT, [VAT_TALLY_STAT.OVF, VAT_TALLY_STAT.SAT]),
  (VAT_TALLY_WAITV, [VAT_TALLY_WAITV.WAITV]),
  (VAT_CHURN_CALL, [VAT_CHURN_CALL.ARG, VAT_CHURN_CALL.ENTRY]),
  (VAT_CHURN_SEED, [VAT_CHURN_SEED.SEED]),
  (VAT_CHURN_RSEED, [VAT_CHURN_RSEED.RSEED]),
  (VAT_CHURN_FLAGS, [VAT_CHURN_FLAGS.FLAGS]),
  (VAT_CHURN_STAT, [VAT_CHURN_STAT.QUEUED, VAT_CHURN_STAT.RUNNING, VAT_CHURN_STAT.FAULT_PC]),
  (VAT_CHURN_ERR0, [VAT_CHURN_ERR0.RED_GEN, VAT_CHURN_ERR0.RED_EXCESS]),
  (VAT_CHURN_ERR1, [VAT_CHURN_ERR1.RED_CFG, VAT_CHURN_ERR1.PROG_FAULT]),
  (VAT_RED_CFG, [VAT_RED_CFG.GEN, VAT_RED_CFG.FMT, VAT_RED_CFG.FRM, VAT_RED_CFG.EN, VAT_RED_CFG.LANES, VAT_RED_CFG.OUT, VAT_RED_CFG.OUT_EN, VAT_RED_CFG.PROG, VAT_RED_CFG.PROG_EN]),
  (VAT_RED_DST, [VAT_RED_DST.DST]),
  (VAT_RED_STAT, [VAT_RED_STAT.DONE, VAT_RED_STAT.BUSY, VAT_RED_STAT.FAULT]),
  (VAT_CHURN_PROG, [VAT_CHURN_PROG.WORD]),
  (VAT_LADLE_CTL, [VAT_LADLE_CTL.FLUSH, VAT_LADLE_CTL.RESUME]),
  (VAT_LADLE_STAT, [VAT_LADLE_STAT.STATE, VAT_LADLE_STAT.QUEUED, VAT_LADLE_STAT.ERR, VAT_LADLE_STAT.ERR_SEQ]),
  (VAT_LADLE_ERRADDR, [VAT_LADLE_ERRADDR.ADDR]),
  (VAT_LADLE_STG_STAT, [VAT_LADLE_STG_STAT.LAST_CODE, VAT_LADLE_STG_STAT.DISCARD, VAT_LADLE_STG_STAT.FLUSHED, VAT_LADLE_STG_STAT.LAST_SEQ]),
  (VAT_LADLE_STG, [VAT_LADLE_STG.WORD]),
  (VAT_LADLE_PC_DONE, [pcCount VAT_LADLE_PC_DONE, pcOvf VAT_LADLE_PC_DONE]),
  (VAT_LADLE_PC_FLUSHED, [pcCount VAT_LADLE_PC_FLUSHED, pcOvf VAT_LADLE_PC_FLUSHED]),
  (VAT_LADLE_PC_STG_DROP, [pcCount VAT_LADLE_PC_STG_DROP, pcOvf VAT_LADLE_PC_STG_DROP]),
  (VAT_NET_CTL, [VAT_NET_CTL.HOLD, VAT_NET_CTL.MERGE]),
  (VAT_NET_ERR0, [VAT_NET_ERR0.HDR_CORR, VAT_NET_ERR0.HDR_DROP]),
  (VAT_NET_ERR1, [VAT_NET_ERR1.DATA_PAR, VAT_NET_ERR1.BAD_PKT]),
  (VAT_NET_PC_FLITS, [pcCount VAT_NET_PC_FLITS, pcOvf VAT_NET_PC_FLITS]),
  (VAT_NET_PC_MERGE, [pcCount VAT_NET_PC_MERGE, pcOvf VAT_NET_PC_MERGE]),
  (VAT_NET_PC_PASS, [pcCount VAT_NET_PC_PASS, pcOvf VAT_NET_PC_PASS]),
  (VAT_NET_PC_HOLDFWD, [pcCount VAT_NET_PC_HOLDFWD, pcOvf VAT_NET_PC_HOLDFWD]),
  (VAT_NET_PC_CVC1, [pcCount VAT_NET_PC_CVC1, pcOvf VAT_NET_PC_CVC1]),
  (VAT_NET_PC_EDGE_E, [pcCount VAT_NET_PC_EDGE_E, pcOvf VAT_NET_PC_EDGE_E]),
  (VAT_NET_PC_EDGE_N, [pcCount VAT_NET_PC_EDGE_N, pcOvf VAT_NET_PC_EDGE_N]),
  (VAT_NET_PC_EDGE_W, [pcCount VAT_NET_PC_EDGE_W, pcOvf VAT_NET_PC_EDGE_W]),
  (VAT_NET_PC_EDGE_S, [pcCount VAT_NET_PC_EDGE_S, pcOvf VAT_NET_PC_EDGE_S]),
  (VAT_NET_DTAB, [VAT_NET_DTAB.PX, VAT_NET_DTAB.PY, VAT_NET_DTAB.PART, VAT_NET_DTAB.VALID, VAT_NET_DTAB.ROLE]),
  (VAT_SPEC_CTL, [VAT_SPEC_CTL.ROLE, VAT_SPEC_CTL.LEAD, VAT_SPEC_CTL.RING_EN, VAT_SPEC_CTL.POSTPROV, VAT_SPEC_CTL.NMAX, VAT_SPEC_CTL.START, VAT_SPEC_CTL.STOP, VAT_SPEC_CTL.CLEAR]),
  (VAT_SPEC_STAT, [VAT_SPEC_STAT.STATE, VAT_SPEC_STAT.OUTST, VAT_SPEC_STAT.RING_HOLD, VAT_SPEC_STAT.FAULT]),
  (VAT_SPEC_SEED, [VAT_SPEC_SEED.SEED]),
  (VAT_SPEC_SAMP, [VAT_SPEC_SAMP.TOPK, VAT_SPEC_SAMP.TOPP, VAT_SPEC_SAMP.TEMP]),
  (VAT_SPEC_PLEN, [VAT_SPEC_PLEN.PLEN]),
  (VAT_SPEC_POS, [VAT_SPEC_POS.L])]
/-- Part 2 of the register table: each register with its fields. -/
def regTable2 : List (Reg × List Fld) := [
  (VAT_SPEC_EPOCH, [VAT_SPEC_EPOCH.DONE, VAT_SPEC_EPOCH.OPENED]),
  (VAT_SPEC_LASTV, [VAT_SPEC_LASTV.Y, VAT_SPEC_LASTV.A, VAT_SPEC_LASTV.EPOCH]),
  (VAT_SPEC_CMD, [VAT_SPEC_CMD.CMD]),
  (VAT_SPEC_TALLY, [VAT_SPEC_TALLY.SUBMIT, VAT_SPEC_TALLY.SUB_EN, VAT_SPEC_TALLY.FREE, VAT_SPEC_TALLY.FREE_EN, VAT_SPEC_TALLY.VERD, VAT_SPEC_TALLY.VERD_EN]),
  (VAT_SPEC_DBUF, [VAT_SPEC_DBUF.VA]),
  (VAT_SPEC_BTAB, [VAT_SPEC_BTAB.VA]),
  (VAT_SPEC_BCFG, [VAT_SPEC_BCFG.NSTREAM, VAT_SPEC_BCFG.BLKLOG, VAT_SPEC_BCFG.NBLK]),
  (VAT_SPEC_POOLC, [VAT_SPEC_POOLC.BASE]),
  (VAT_SPEC_POOLH, [VAT_SPEC_POOLH.BASE]),
  (VAT_SPEC_POOLN, [VAT_SPEC_POOLN.NCROCK, VAT_SPEC_POOLN.NCELLAR]),
  (VAT_SPEC_POOLF, [VAT_SPEC_POOLF.FCROCK, VAT_SPEC_POOLF.FCELLAR]),
  (VAT_SPEC_RING, [VAT_SPEC_RING.OFFSET, VAT_SPEC_RING.RLOG]),
  (VAT_SPEC_CONS, [VAT_SPEC_CONS.CONS]),
  (VAT_SPEC_PROD, [VAT_SPEC_PROD.PROD]),
  (VAT_SPEC_LEAD, [VAT_SPEC_LEAD.LEAD_DEV]),
  (VAT_SPEC_FOLLOW, [VAT_SPEC_FOLLOW.DEV0, VAT_SPEC_FOLLOW.VALID0, VAT_SPEC_FOLLOW.DEV1, VAT_SPEC_FOLLOW.VALID1, VAT_SPEC_FOLLOW.DEV2, VAT_SPEC_FOLLOW.VALID2, VAT_SPEC_FOLLOW.DEV3, VAT_SPEC_FOLLOW.VALID3]),
  (VAT_SPEC_ERR, [VAT_SPEC_ERR.BAD_CMD, VAT_SPEC_ERR.LATE]),
  (VAT_SPEC_PC_PASS, [pcCount VAT_SPEC_PC_PASS, pcOvf VAT_SPEC_PC_PASS]),
  (VAT_SPEC_PC_COMMIT, [pcCount VAT_SPEC_PC_COMMIT, pcOvf VAT_SPEC_PC_COMMIT]),
  (VAT_SPEC_PC_DRAFT, [pcCount VAT_SPEC_PC_DRAFT, pcOvf VAT_SPEC_PC_DRAFT]),
  (VAT_SPEC_PC_RETRACT, [pcCount VAT_SPEC_PC_RETRACT, pcOvf VAT_SPEC_PC_RETRACT]),
  (VAT_SPEC_PC_HOLD, [pcCount VAT_SPEC_PC_HOLD, pcOvf VAT_SPEC_PC_HOLD]),
  (VAT_SPEC_PC_CELLAR, [pcCount VAT_SPEC_PC_CELLAR, pcOvf VAT_SPEC_PC_CELLAR]),
  (VAT_CRM_CTL, [VAT_CRM_CTL.VICTIM_EN]),
  (VAT_CRM_CFG, [VAT_CRM_CFG.CACHE_WAYS, VAT_CRM_CFG.SCR_PART, VAT_CRM_CFG.USABLE]),
  (VAT_CRM_STAT, [VAT_CRM_STAT.SHARE_USED, VAT_CRM_STAT.COMMON_USED, VAT_CRM_STAT.RT_USED, VAT_CRM_STAT.ATOMB_VALID, VAT_CRM_STAT.ATOMB_LOCK]),
  (VAT_CRM_ERR, [VAT_CRM_ERR.HOME_ERR, VAT_CRM_ERR.SCR_DENY]),
  (VAT_CRM_PC_RD_HIT, [pcCount VAT_CRM_PC_RD_HIT, pcOvf VAT_CRM_PC_RD_HIT]),
  (VAT_CRM_PC_RD_MISS, [pcCount VAT_CRM_PC_RD_MISS, pcOvf VAT_CRM_PC_RD_MISS]),
  (VAT_CRM_PC_WR, [pcCount VAT_CRM_PC_WR, pcOvf VAT_CRM_PC_WR]),
  (VAT_CRM_PC_ATOM, [pcCount VAT_CRM_PC_ATOM, pcOvf VAT_CRM_PC_ATOM]),
  (VAT_CRM_PC_SCR, [pcCount VAT_CRM_PC_SCR, pcOvf VAT_CRM_PC_SCR]),
  (VAT_CRM_PC_RT, [pcCount VAT_CRM_PC_RT, pcOvf VAT_CRM_PC_RT]),
  (VAT_CRM_PC_VICT_ACC, [pcCount VAT_CRM_PC_VICT_ACC, pcOvf VAT_CRM_PC_VICT_ACC]),
  (VAT_CRM_PC_VICT_DECL, [pcCount VAT_CRM_PC_VICT_DECL, pcOvf VAT_CRM_PC_VICT_DECL]),
  (VAT_CRM_PC_REG_STALL, [pcCount VAT_CRM_PC_REG_STALL, pcOvf VAT_CRM_PC_REG_STALL]),
  (VAT_CRM_SHARE, [VAT_CRM_SHARE.WAY_MASK, VAT_CRM_SHARE.QSHARE]),
  (VAT_CRM_REG, [VAT_CRM_REG.PART, VAT_CRM_REG.EN, VAT_CRM_REG.RATE, VAT_CRM_REG.BURST, VAT_CRM_REG.LEVEL]),
  (CRK_INFO, [CRK_INFO.LAYERS, CRK_INFO.CHANNELS]),
  (CRK_PRIO, [CRK_PRIO.PRIO_CH])]
/-- Part 3 of the register table: each register with its fields. -/
def regTable3 : List (Reg × List Fld) := [
  (CRK_THR, [CRK_THR.T1, CRK_THR.T2]),
  (CRK_TEMP, [CRK_TEMP.TMAX, CRK_TEMP.PEAK]),
  (CRK_REPAIR, [CRK_REPAIR.FUSE_ROWS, CRK_REPAIR.SOFT_ROWS, CRK_REPAIR.UNREP]),
  (CRK_CH_STAT, [CRK_CH_STAT.STATE, CRK_CH_STAT.PRIO, CRK_CH_STAT.INUSE, CRK_CH_STAT.TLVL, CRK_CH_STAT.REFX, CRK_CH_STAT.KEPT, CRK_CH_STAT.TEMP]),
  (CRK_CH_CTL, [CRK_CH_CTL.SR_IDLE, CRK_CH_CTL.TEST]),
  (CRK_CH_TEMP, [CRK_CH_TEMP.LAYER]),
  (CRK_CH_PC_RD, [pcCount CRK_CH_PC_RD, pcOvf CRK_CH_PC_RD]),
  (CRK_CH_PC_WR, [pcCount CRK_CH_PC_WR, pcOvf CRK_CH_PC_WR]),
  (CRK_CH_PC_RMW, [pcCount CRK_CH_PC_RMW, pcOvf CRK_CH_PC_RMW]),
  (CRK_CH_PC_ACT, [pcCount CRK_CH_PC_ACT, pcOvf CRK_CH_PC_ACT]),
  (CRK_CH_PC_REF, [pcCount CRK_CH_PC_REF, pcOvf CRK_CH_PC_REF]),
  (CRK_CH_PC_SR_EXIT, [pcCount CRK_CH_PC_SR_EXIT, pcOvf CRK_CH_PC_SR_EXIT]),
  (CRK_CH_PC_THROT, [pcCount CRK_CH_PC_THROT, pcOvf CRK_CH_PC_THROT]),
  (CRK_TG_CTL, [CRK_TG_CTL.GO, CRK_TG_CTL.ABORT, CRK_TG_CTL.MODE, CRK_TG_CTL.PAT, CRK_TG_CTL.RAW]),
  (CRK_TG_BASE, [CRK_TG_BASE.BASE]),
  (CRK_TG_LEN, [CRK_TG_LEN.LEN]),
  (CRK_TG_SEED, [CRK_TG_SEED.SEED]),
  (CRK_TG_STAT, [CRK_TG_STAT.BUSY, CRK_TG_STAT.DONE, CRK_TG_STAT.FAIL, CRK_TG_STAT.REJ, CRK_TG_STAT.ABORTED]),
  (CRK_TG_ERR, [CRK_TG_ERR.LINES_BAD]),
  (CRK_TG_FAIL, [CRK_TG_FAIL.LINE, CRK_TG_FAIL.LAYERS]),
  (CRK_TG_TIME, [CRK_TG_TIME.LINES, CRK_TG_TIME.PERIODS]),
  (CEL_INFO, [CEL_INFO.PRESENT, CEL_INFO.SUPPORTED, CEL_INFO.CAP_GB, CEL_INFO.HEIGHT, CEL_INFO.RATING]),
  (CEL_STAT, [CEL_STAT.STATE, CEL_STAT.KEEP_LOST, CEL_STAT.DEGRADED, CEL_STAT.TLVL, CEL_STAT.KEPT, CEL_STAT.RATE]),
  (CEL_CTL, [CEL_CTL.TEST, CEL_CTL.RETRAIN]),
  (CEL_CAP, [CEL_CAP.AVAIL_PC, CEL_CAP.AVAIL_MIB, CEL_CAP.UNITS]),
  (CEL_PCMAP, [CEL_PCMAP.AVAIL]),
  (CEL_PCDEG, [CEL_PCDEG.DEG]),
  (CEL_THR, [CEL_THR.T1, CEL_THR.T2, CEL_THR.LANE_LIM]),
  (CEL_TEMP, [CEL_TEMP.TSTACK, CEL_TEMP.PEAK]),
  (CEL_REG, [CEL_REG.PART, CEL_REG.EN, CEL_REG.RATE, CEL_REG.BURST, CEL_REG.LEVEL]),
  (CEL_PC_RD, [pcCount CEL_PC_RD, pcOvf CEL_PC_RD]),
  (CEL_PC_WR, [pcCount CEL_PC_WR, pcOvf CEL_PC_WR]),
  (CEL_PC_RMW, [pcCount CEL_PC_RMW, pcOvf CEL_PC_RMW]),
  (CEL_PC_ACT, [pcCount CEL_PC_ACT, pcOvf CEL_PC_ACT]),
  (CEL_PC_RETRAIN, [pcCount CEL_PC_RETRAIN, pcOvf CEL_PC_RETRAIN]),
  (CEL_PC_REG_STALL, [pcCount CEL_PC_REG_STALL, pcOvf CEL_PC_REG_STALL]),
  (CEL_PC_THROT, [pcCount CEL_PC_THROT, pcOvf CEL_PC_THROT]),
  (CEL_CH_LANE, [CEL_CH_LANE.SPARE0_0, CEL_CH_LANE.SPARE1_0, CEL_CH_LANE.ERASED_0, CEL_CH_LANE.OUT_0, CEL_CH_LANE.SPARE0_1, CEL_CH_LANE.SPARE1_1, CEL_CH_LANE.ERASED_1, CEL_CH_LANE.OUT_1]),
  (CEL_TG_CTL, [CEL_TG_CTL.GO, CEL_TG_CTL.ABORT, CEL_TG_CTL.MODE, CEL_TG_CTL.PAT, CEL_TG_CTL.RAW, CEL_TG_CTL.PC]),
  (CEL_TG_BASE, [CEL_TG_BASE.BASE])]
/-- Part 4 of the register table: each register with its fields. -/
def regTable4 : List (Reg × List Fld) := [
  (CEL_TG_LEN, [CEL_TG_LEN.LEN]),
  (CEL_TG_SEED, [CEL_TG_SEED.SEED]),
  (CEL_TG_STAT, [CEL_TG_STAT.BUSY, CEL_TG_STAT.DONE, CEL_TG_STAT.FAIL, CEL_TG_STAT.REJ, CEL_TG_STAT.ABORTED]),
  (CEL_TG_ERR, [CEL_TG_ERR.LINES_BAD]),
  (CEL_TG_FAIL, [CEL_TG_FAIL.LINE, CEL_TG_FAIL.LANES]),
  (CEL_TG_TIME, [CEL_TG_TIME.LINES, CEL_TG_TIME.PERIODS]),
  (MC_FQ_STAT, [MC_FQ_STAT.COUNT, MC_FQ_STAT.FULL]),
  (MC_FQ_HEAD, [MC_FQ_HEAD.HEAD]),
  (MC_FQ_TAIL, [MC_FQ_TAIL.TAIL]),
  (MC_FQ_LOST, [MC_FQ_LOST.COUNT]),
  (MC_ERR_STAT, [MC_ERR_STAT.FATAL, MC_ERR_STAT.CAUSE]),
  (MC_CHK_STAT, [MC_CHK_STAT.DONE, MC_CHK_STAT.FAIL]),
  (MC_FQ_LFIRST, [MC_FQ_LFIRST.WORD]),
  (MC_FQ_LLAST, [MC_FQ_LLAST.WORD]),
  (MC_FQ_ENTRY, [MC_FQ_ENTRY.WORD]),
  (CEL_SCRUB, [CEL_SCRUB.HOURS]),
  (CEL_ECC0, [CEL_ECC0.CORR, CEL_ECC0.UNCORR]),
  (CEL_ECC1, [CEL_ECC1.RMW_FAIL, CEL_ECC1.ODEC]),
  (CEL_INJ, [CEL_INJ.ARM, CEL_INJ.PC, CEL_INJ.LANES, CEL_INJ.XOR]),
  (CEL_ECCSTAT, [CEL_ECCSTAT.LOG_NEXT]),
  (CEL_LOGA, [CEL_LOGA.LINE, CEL_LOGA.PC, CEL_LOGA.KIND, CEL_LOGA.TIME]),
  (CEL_LOGB, [CEL_LOGB.LANES]),
  (CRK_SCRUB, [CRK_SCRUB.HOURS]),
  (CRK_CH_ECC0, [CRK_CH_ECC0.CORR, CRK_CH_ECC0.ERASE]),
  (CRK_CH_ECC1, [CRK_CH_ECC1.UNCORR, CRK_CH_ECC1.RMW_FAIL]),
  (CRK_CH_ECCSTAT, [CRK_CH_ECCSTAT.DEAD_LAYER, CRK_CH_ECCSTAT.FAILED, CRK_CH_ECCSTAT.UNREP_ROWS, CRK_CH_ECCSTAT.POISON, CRK_CH_ECCSTAT.LOG_NEXT]),
  (CRK_CH_INJ, [CRK_CH_INJ.ARM, CRK_CH_INJ.SYM, CRK_CH_INJ.CW, CRK_CH_INJ.XOR, CRK_CH_INJ.ERASE, CRK_CH_INJ.LAYER]),
  (CRK_CH_ECCCFG, [CRK_CH_ECCCFG.DEAD_LIM]),
  (CRK_CH_LOGA, [CRK_CH_LOGA.LINE, CRK_CH_LOGA.KIND, CRK_CH_LOGA.LAYERS, CRK_CH_LOGA.TIME]),
  (CRK_CH_LOGB, [CRK_CH_LOGB.SYMS, CRK_CH_LOGB.CW]),
  (VAT_ECC0, [VAT_ECC0.CORR_CS, VAT_ECC0.CORR_RF]),
  (VAT_ECC1, [VAT_ECC1.CORR_HUB, VAT_ECC1.UNCORR]),
  (VAT_ECC_CTL, [VAT_ECC_CTL.SECONDS]),
  (VAT_ECC_INJ, [VAT_ECC_INJ.ARM, VAT_ECC_INJ.TARGET, VAT_ECC_INJ.BITS, VAT_ECC_INJ.CORE]),
  (VAT_CRM_ECC, [VAT_CRM_ECC.CORR, VAT_CRM_ECC.UNCORR]),
  (XLT_SHOOT, [XLT_SHOOT.VPAGE, XLT_SHOOT.PART, XLT_SHOOT.SCOPE]),
  (XLT_SHOOT_STAT, [XLT_SHOOT_STAT.BUSY, XLT_SHOOT_STAT.DONE, XLT_SHOOT_STAT.REJ]),
  (XLT_RESUME, [XLT_RESUME.VPAGE, XLT_RESUME.PART, XLT_RESUME.ALL]),
  (XLT_WALK_STAT, [XLT_WALK_STAT.ACTIVE, XLT_WALK_STAT.QUEUED, XLT_WALK_STAT.MIGQ, XLT_WALK_STAT.MIG_BUSY]),
  (XLT_ERR, [XLT_ERR.WALK_UE, XLT_ERR.DENY])]
/-- Part 5 of the register table: each register with its fields. -/
def regTable5 : List (Reg × List Fld) := [
  (XLT_PC_WALK, [pcCount XLT_PC_WALK, pcOvf XLT_PC_WALK]),
  (XLT_PC_MERGE, [pcCount XLT_PC_MERGE, pcOvf XLT_PC_MERGE]),
  (XLT_PC_FAULT, [pcCount XLT_PC_FAULT, pcOvf XLT_PC_FAULT]),
  (XLT_PC_MIG, [pcCount XLT_PC_MIG, pcOvf XLT_PC_MIG]),
  (XLT_PC_SHOOT, [pcCount XLT_PC_SHOOT, pcOvf XLT_PC_SHOOT]),
  (XLT_PT_BASE, [XLT_PT_BASE.BASE, XLT_PT_BASE.EN]),
  (XLT_FR_BASE, [XLT_FR_BASE.ADDR]),
  (XLT_FR_CFG, [XLT_FR_CFG.RLOG, XLT_FR_CFG.EN]),
  (XLT_FR_PROD, [XLT_FR_PROD.PROD]),
  (XLT_FR_CONS, [XLT_FR_CONS.CONS]),
  (XLT_FR_LOST, [XLT_FR_LOST.COUNT]),
  (XLT_MIG_BASE, [XLT_MIG_BASE.ADDR]),
  (XLT_MIG_CFG, [XLT_MIG_CFG.MLOG]),
  (XLT_MIG_HEAD, [XLT_MIG_HEAD.HEAD]),
  (XLT_MIG_TAIL, [XLT_MIG_TAIL.TAIL]),
  (VAT_TLB_PC_HIT, [pcCount VAT_TLB_PC_HIT, pcOvf VAT_TLB_PC_HIT]),
  (VAT_TLB_PC_MISS, [pcCount VAT_TLB_PC_MISS, pcOvf VAT_TLB_PC_MISS]),
  (LNK_STAT, [LNK_STAT.STATE, LNK_STAT.LANES, LNK_STAT.DETECTED, LNK_STAT.LAST_TO]),
  (LNK_CTL, [LNK_CTL.START, LNK_CTL.STOP, LNK_CTL.LPREQ, LNK_CTL.LOOP]),
  (LNK_CFG, [LNK_CFG.FILL_INT, LNK_CFG.TX_PRESET, LNK_CFG.UE_LIM]),
  (LNK_CAL, [LNK_CAL.GO]),
  (LNK_CAPR0, [LNK_CAPR0.REC]),
  (LNK_CAPR1, [LNK_CAPR1.REC]),
  (LNK_ERR0, [LNK_ERR0.STUFF_ERR, LNK_ERR0.BAD_CTL]),
  (LNK_ERR1, [LNK_ERR1.TIMEOUT, LNK_ERR1.LOS]),
  (LNK_ERR2, [LNK_ERR2.LANE_MAP, LNK_ERR2.ELASTIC]),
  (LNK_PC_FILL_TX, [pcCount LNK_PC_FILL_TX, pcOvf LNK_PC_FILL_TX]),
  (LNK_PC_FILL_DEL, [pcCount LNK_PC_FILL_DEL, pcOvf LNK_PC_FILL_DEL]),
  (LNK_PC_FILL_INS, [pcCount LNK_PC_FILL_INS, pcOvf LNK_PC_FILL_INS]),
  (LNK_PC_LP_ENTRY, [pcCount LNK_PC_LP_ENTRY, pcOvf LNK_PC_LP_ENTRY]),
  (LNK_PC_LP_TIME, [pcCount LNK_PC_LP_TIME, pcOvf LNK_PC_LP_TIME]),
  (LNK_LN_STAT, [LNK_LN_STAT.DETECTED, LNK_LN_STAT.DONE, LNK_LN_STAT.BLOCK_LOCK, LNK_LN_STAT.FRAME_LOCK, LNK_LN_STAT.POL_INV, LNK_LN_STAT.CAL, LNK_LN_STAT.EYE_BUSY, LNK_LN_STAT.EYE_DONE, LNK_LN_STAT.EYE_REJ, LNK_LN_STAT.EYE_ABORTED]),
  (LNK_LN_ERR, [LNK_LN_ERR.FEC_UE, LNK_LN_ERR.HDR_INV]),
  (LNK_LN_EYE_CTL, [LNK_LN_EYE_CTL.GO, LNK_LN_EYE_CTL.ABORT, LNK_LN_EYE_CTL.EYE, LNK_LN_EYE_CTL.PHASE, LNK_LN_EYE_CTL.VOLT, LNK_LN_EYE_CTL.LOGN]),
  (LNK_LN_EYE_SMP, [pcCount LNK_LN_EYE_SMP, pcOvf LNK_LN_EYE_SMP]),
  (LNK_LN_EYE_ERR, [pcCount LNK_LN_EYE_ERR, pcOvf LNK_LN_EYE_ERR]),
  (LNK_LN_PG, [LNK_LN_PG.MODE, LNK_LN_PG.GEN_EN, LNK_LN_PG.CHK_EN, LNK_LN_PG.CHK_LOCK]),
  (LNK_LN_PG_ERR, [pcCount LNK_LN_PG_ERR, pcOvf LNK_LN_PG_ERR]),
  (LNK_LN_PC_FECC, [pcCount LNK_LN_PC_FECC, pcOvf LNK_LN_PC_FECC]),
  (LNK_LN_PC_FRAMES, [pcCount LNK_LN_PC_FRAMES, pcOvf LNK_LN_PC_FRAMES])]
/-- Part 6 of the register table: each register with its fields. -/
def regTable6 : List (Reg × List Fld) := [
  (LNK_GRP_STAT, [LNK_GRP_STAT.REF_OK, LNK_GRP_STAT.REF_LOST, LNK_GRP_STAT.SEQ_LOADED, LNK_GRP_STAT.SEQ_FAULT, LNK_GRP_STAT.SEQ_VER]),
  (MC_FAB_CTL, [MC_FAB_CTL.HOP_LIM, MC_FAB_CTL.VIOL_LIM, MC_FAB_CTL.FLAP_LIM]),
  (MC_FAB_TOPO, [MC_FAB_TOPO.TOPO, MC_FAB_TOPO.DIM_X, MC_FAB_TOPO.DIM_Y, MC_FAB_TOPO.DIM_Z]),
  (MC_FAB_COORD, [MC_FAB_COORD.X, MC_FAB_COORD.Y, MC_FAB_COORD.Z]),
  (MC_FAB_MCG, [MC_FAB_MCG.ENTRIES]),
  (MC_FAB_RT, [MC_FAB_RT.PORT_MASK, MC_FAB_RT.VALID]),
  (LNK_FAB_STAT, [LNK_FAB_STAT.STATE, LNK_FAB_STAT.HOLD, LNK_FAB_STAT.WIDTH, LNK_FAB_STAT.LINK]),
  (LNK_FAB_CTL, [LNK_FAB_CTL.RELEASE, LNK_FAB_CTL.HOLD, LNK_FAB_CTL.RETRAIN, LNK_FAB_CTL.WMASK, LNK_FAB_CTL.MIN_W]),
  (LNK_FAB_ERR0, [LNK_FAB_ERR0.BAD_PKT, LNK_FAB_ERR0.BAD_CU]),
  (LNK_FAB_ERR1, [LNK_FAB_ERR1.SEQ_ERR, LNK_FAB_ERR1.CREDIT_VIOL]),
  (LNK_FAB_ERR2, [LNK_FAB_ERR2.LATE_RSP, LNK_FAB_ERR2.HOPS]),
  (LNK_FAB_ERR3, [LNK_FAB_ERR3.BAD_PART, LNK_FAB_ERR3.NOROUTE]),
  (LNK_FAB_PC_TXU, [pcCount LNK_FAB_PC_TXU, pcOvf LNK_FAB_PC_TXU]),
  (LNK_FAB_PC_RXU, [pcCount LNK_FAB_PC_RXU, pcOvf LNK_FAB_PC_RXU]),
  (LNK_FAB_PC_REPLAY, [pcCount LNK_FAB_PC_REPLAY, pcOvf LNK_FAB_PC_REPLAY]),
  (LNK_FAB_PC_RETRAIN, [pcCount LNK_FAB_PC_RETRAIN, pcOvf LNK_FAB_PC_RETRAIN]),
  (LNK_FAB_PC_TRANSIT, [pcCount LNK_FAB_PC_TRANSIT, pcOvf LNK_FAB_PC_TRANSIT]),
  (LNK_FAB_PC_ERRRSP, [pcCount LNK_FAB_PC_ERRRSP, pcOvf LNK_FAB_PC_ERRRSP]),
  (VAT_RED_XFWD, [VAT_RED_XFWD.GROUP, VAT_RED_XFWD.SELF, VAT_RED_XFWD.EN, VAT_RED_XFWD.XTAG, VAT_RED_XFWD.XEXPECT]),
  (FACE_STAT, [FACE_STAT.STATE, FACE_STAT.SLICES, FACE_STAT.HOLD, FACE_STAT.FPG, FACE_STAT.FALM]),
  (FACE_CTL, [FACE_CTL.START, FACE_CTL.STOP, FACE_CTL.HOLD, FACE_CTL.RELEASE, FACE_CTL.MIN_SL, FACE_CTL.VIOL_LIM]),
  (FACE_CAP, [FACE_CAP.TRAINED, FACE_CAP.VC1_DEPTH, FACE_CAP.VERSION]),
  (FACE_ERR0, [FACE_ERR0.CRC, FACE_ERR0.BAD_CTL]),
  (FACE_ERR1, [FACE_ERR1.BAD_PKT, FACE_ERR1.CREDIT_VIOL]),
  (FACE_ERR2, [FACE_ERR2.SEQ_ERR, FACE_ERR2.TAG_DUP]),
  (FACE_ERR3, [FACE_ERR3.DENY, FACE_ERR3.STALL]),
  (FACE_ERR4, [FACE_ERR4.SPACING]),
  (FACE_PC_RXB, [pcCount FACE_PC_RXB, pcOvf FACE_PC_RXB]),
  (FACE_PC_TXB, [pcCount FACE_PC_TXB, pcOvf FACE_PC_TXB]),
  (FACE_PC_REPLAY, [pcCount FACE_PC_REPLAY, pcOvf FACE_PC_REPLAY]),
  (FACE_PC_REQ, [pcCount FACE_PC_REQ, pcOvf FACE_PC_REQ]),
  (HOST_STAT, [HOST_STAT.DL_UP, HOST_STAT.WIDTH, HOST_STAT.SPEED, HOST_STAT.FLIT]),
  (HOST_ERR0, [HOST_ERR0.BAD_REQ, HOST_ERR0.UNEXP_CPL]),
  (HOST_ERR1, [HOST_ERR1.CPL_TO, HOST_ERR1.POISON]),
  (HOST_ERR2, [HOST_ERR2.CPL_ERR, HOST_ERR2.LINK_DOWN]),
  (HOST_PC_TXWR, [pcCount HOST_PC_TXWR, pcOvf HOST_PC_TXWR]),
  (HOST_PC_TXRD, [pcCount HOST_PC_TXRD, pcOvf HOST_PC_TXRD]),
  (HOST_PC_RXREQ, [pcCount HOST_PC_RXREQ, pcOvf HOST_PC_RXREQ]),
  (HOST_PC_CMD, [pcCount HOST_PC_CMD, pcOvf HOST_PC_CMD]),
  (HOST_WIN_BASE, [HOST_WIN_BASE.BASE])]
/-- Part 7 of the register table: each register with its fields. -/
def regTable7 : List (Reg × List Fld) := [
  (HOST_WIN_SIZE, [HOST_WIN_SIZE.SIZE]),
  (HOST_WIN_ADDR, [HOST_WIN_ADDR.HADDR]),
  (HOST_WIN_CFG, [HOST_WIN_CFG.OWNER, HOST_WIN_CFG.EN, HOST_WIN_CFG.WR]),
  (CMD_W, [CMD_W.WORD]),
  (CMD_STAT, [CMD_STAT.HANDLE, CMD_STAT.STATUS, CMD_STAT.DISCARD, CMD_STAT.FLUSHED, CMD_STAT.OPEN]),
  (RING_CTL, [RING_CTL.FLUSH, RING_CTL.EN, RING_CTL.CLOG]),
  (CQ_BASE, [CQ_BASE.OFFSET]),
  (CQ_CONS, [CQ_CONS.CONS]),
  (CQ_PROD, [CQ_PROD.PROD]),
  (RING_ERR, [RING_ERR.DROP]),
  (DIC_SRC, [DIC_SRC.TARGETS, DIC_SRC.CLASS, DIC_SRC.AUTO, DIC_SRC.VEC, DIC_SRC.LEVEL, DIC_SRC.INSVC, DIC_SRC.OWNER]),
  (DIC_PEND, [DIC_PEND.PEND]),
  (DIC_MASK, [DIC_MASK.MASK]),
  (DIC_RESAMPLE, [DIC_RESAMPLE.WORD]),
  (DIC_COAL_N, [DIC_COAL_N.COUNT, DIC_COAL_N.TIME]),
  (DIC_COAL_F, [DIC_COAL_F.COUNT, DIC_COAL_F.TIME]),
  (DIC_BADCOMP, [DIC_BADCOMP.COUNT]),
  (DIC_LATCH, [DIC_LATCH.LATCH]),
  (DIC_LEVEL, [DIC_LEVEL.LEVEL]),
  (DIC_CLAIM, [DIC_CLAIM.SRC]),
  (DIC_FCLAIM, [DIC_FCLAIM.SRC]),
  (DIC_VIEW, [DIC_VIEW.SEEN]),
  (DIC_FVIEW, [DIC_FVIEW.SEEN]),
  (DIC_COMPLETE, [DIC_COMPLETE.SRC]),
  (DIC_FCOMPLETE, [DIC_FCOMPLETE.SRC]),
  (VAT_EV_PEND, [VAT_EV_PEND.PEND]),
  (VAT_EV_EN, [VAT_EV_EN.EN]),
  (VAT_EV_DBELL, [VAT_EV_DBELL.SRC]),
  (VAT_EV_CFAULT, [VAT_EV_CFAULT.CORE]),
  (VAT_EV_STAT, [VAT_EV_STAT.SUM]),
  (VAT_EV_ERR, [VAT_EV_ERR.DB_BAD]),
  (VAT_EV_WAKE, [VAT_EV_WAKE.CORE0, VAT_EV_WAKE.WEN0, VAT_EV_WAKE.CORE1, VAT_EV_WAKE.WEN1, VAT_EV_WAKE.CORE2, VAT_EV_WAKE.WEN2, VAT_EV_WAKE.CORE3, VAT_EV_WAKE.WEN3, VAT_EV_WAKE.CORE4, VAT_EV_WAKE.WEN4, VAT_EV_WAKE.CORE5, VAT_EV_WAKE.WEN5, VAT_EV_WAKE.CORE6, VAT_EV_WAKE.WEN6, VAT_EV_WAKE.CORE7, VAT_EV_WAKE.WEN7]),
  (VAT_EV_PC_DBELL, [pcCount VAT_EV_PC_DBELL, pcOvf VAT_EV_PC_DBELL]),
  (PWR_DOM_STAT, [PWR_DOM_STAT.STATE, PWR_DOM_STAT.REASON]),
  (PWR_DOM_CTL, [PWR_DOM_CTL.REQ]),
  (PWR_DOM_SHADOW, [PWR_DOM_SHADOW.STATE]),
  (PWR_LOOP, [PWR_LOOP.BHI, PWR_LOOP.BLO]),
  (PWR_THR, [PWR_THR.THROT]),
  (PWR_LIMIT, [PWR_LIMIT.LIMIT, PWR_LIMIT.DEVCAP]),
  (PWR_MEAS, [PWR_MEAS.BODRA, PWR_MEAS.GUEST, PWR_MEAS.GLOSS])]
/-- Part 8 of the register table: each register with its fields. -/
def regTable8 : List (Reg × List Fld) := [
  (PWR_EVT, [PWR_EVT.HOT, PWR_EVT.REG, PWR_EVT.SKEW, PWR_EVT.SENSOR, PWR_EVT.OVER, PWR_EVT.HOLDUP]),
  (PWR_EVT_EN, [PWR_EVT_EN.EN]),
  (PWR_TRIP_REC, [PWR_TRIP_REC.VALID, PWR_TRIP_REC.MRAM, PWR_TRIP_REC.SRC, PWR_TRIP_REC.TEMP, PWR_TRIP_REC.TIME]),
  (PWR_SKEW0, [PWR_SKEW0.DOM]),
  (PWR_SKEW1, [PWR_SKEW1.DOM]),
  (PWR_SKEW_CFG, [PWR_SKEW_CFG.SKEW_T]),
  (PWR_ERR, [PWR_ERR.REQ_REJ, PWR_ERR.WR_REJ]),
  (PWR_G_CFG, [PWR_G_CFG.VSET]),
  (PWR_G_MEAS, [PWR_G_MEAS.V, PWR_G_MEAS.I, PWR_G_MEAS.P, PWR_G_MEAS.ILIM]),
  (PWR_SENS, [PWR_SENS.TEMP, PWR_SENS.FAILED, PWR_SENS.PEAK]),
  (PWR_VAT_V, [PWR_VAT_V.FLOOR, PWR_VAT_V.CAP, PWR_VAT_V.POLICY, PWR_VAT_V.APPLIED, PWR_VAT_V.HWCAP, PWR_VAT_V.BIND, PWR_VAT_V.TJ]),
  (PWR_VAT_PC_CAPHELD, [pcCount PWR_VAT_PC_CAPHELD, pcOvf PWR_VAT_PC_CAPHELD]),
  (PWR_VAT_PC_HWHELD, [pcCount PWR_VAT_PC_HWHELD, pcOvf PWR_VAT_PC_HWHELD]),
  (PWR_VAT_PC_FLOORLOST, [pcCount PWR_VAT_PC_FLOORLOST, pcOvf PWR_VAT_PC_FLOORLOST]),
  (PWR_VAT_PC_ABSORB, [pcCount PWR_VAT_PC_ABSORB, pcOvf PWR_VAT_PC_ABSORB]),
  (MC_BOOT_STAT, [MC_BOOT_STAT.PHASE, MC_BOOT_STAT.RESULT, MC_BOOT_STAT.CAUSE, MC_BOOT_STAT.BANK, MC_BOOT_STAT.TRIAL, MC_BOOT_STAT.JFULL, MC_BOOT_STAT.AUTOLOAD, MC_BOOT_STAT.ERR, MC_BOOT_STAT.START_CNT]),
  (MC_BOOT_TIME, [MC_BOOT_TIME.TREADY]),
  (MC_BOOT_CTL, [MC_BOOT_CTL.RESET]),
  (MC_JRNL_STAT, [MC_JRNL_STAT.USED, MC_JRNL_STAT.ADDED]),
  (MC_MRAM_ERR, [MC_MRAM_ERR.CORR, MC_MRAM_ERR.UNCORR]),
  (MC_TOPO_STAT, [MC_TOPO_STAT.EXPECT, MC_TOPO_STAT.ADMITTED, MC_TOPO_STAT.DONE, MC_TOPO_STAT.PASS]),
  (MC_TOPO_MISS, [MC_TOPO_MISS.PORTS]),
  (MC_TOPO_CFG, [MC_TOPO_CFG.TOPO_WAIT]),
  (MC_BOOT_PTIME, [MC_BOOT_PTIME.US]),
  (MC_DEF_VAT, [MC_DEF_VAT.TOTAL, MC_DEF_VAT.WITHDRAWN, MC_DEF_VAT.FUSE, MC_DEF_VAT.JRNL, MC_DEF_VAT.NEW, MC_DEF_VAT.RETRY]),
  (MC_DEF_MAP0, [MC_DEF_MAP0.DEF]),
  (MC_DEF_MAP1, [MC_DEF_MAP1.DEF]),
  (MC_JRNL, [MC_JRNL.WORD]),
  (VAT_TEST_CTL, [VAT_TEST_CTL.GO_S, VAT_TEST_CTL.GO_F, VAT_TEST_CTL.TO]),
  (VAT_TEST_STAT, [VAT_TEST_STAT.BUSY, VAT_TEST_STAT.DONE]),
  (VAT_TEST_FAIL0, [VAT_TEST_FAIL0.FAIL]),
  (VAT_TEST_FAIL1, [VAT_TEST_FAIL1.FAIL]),
  (VAT_TEST_SKIP0, [VAT_TEST_SKIP0.SKIP]),
  (VAT_TEST_SKIP1, [VAT_TEST_SKIP1.SKIP]),
  (TWIN_STAT, [TWIN_STAT.STATE, TWIN_STAT.LEADER, TWIN_STAT.PORTS, TWIN_STAT.RING_USED]),
  (TWIN_CTL, [TWIN_CTL.LEAD, TWIN_CTL.TEST_GO]),
  (TWIN_CFG, [TWIN_CFG.WLOG, TWIN_CFG.MATCH_T, TWIN_CFG.LOST_T, TWIN_CFG.SYNC_T]),
  (TWIN_DIV, [TWIN_DIV.KEY, TWIN_DIV.KIND]),
  (TWIN_DIVSIG, [TWIN_DIVSIG.SIG]),
  (TWIN_EVT, [TWIN_EVT.DIV, TWIN_EVT.CMP, TWIN_EVT.INTEG, TWIN_EVT.ALONE, TWIN_EVT.SYNCED])]
/-- Part 9 of the register table: each register with its fields. -/
def regTable9 : List (Reg × List Fld) := [
  (TWIN_EVT_EN, [TWIN_EVT_EN.EN]),
  (TWIN_ERR0, [TWIN_ERR0.CORR, TWIN_ERR0.SUSPECT]),
  (TWIN_ERR1, [TWIN_ERR1.BAD_PKT, TWIN_ERR1.DUP]),
  (TWIN_PC_REC, [pcCount TWIN_PC_REC, pcOvf TWIN_PC_REC]),
  (TWIN_PC_MATCH, [pcCount TWIN_PC_MATCH, pcOvf TWIN_PC_MATCH]),
  (TWIN_PC_TEST, [pcCount TWIN_PC_TEST, pcOvf TWIN_PC_TEST]),
  (TWIN_PC_STALL, [pcCount TWIN_PC_STALL, pcOvf TWIN_PC_STALL]),
  (RIND_STAT, [RIND_STAT.STATE, RIND_STAT.VALIDATED, RIND_STAT.CLAIMED, RIND_STAT.DEBUG]),
  (RIND_CTL, [RIND_CTL.GO, RIND_CTL.SELFTEST]),
  (RIND_CMD_ADDR, [RIND_CMD_ADDR.ADDR]),
  (RIND_CMD_LEN, [RIND_CMD_LEN.LEN]),
  (RIND_RSP_ADDR, [RIND_RSP_ADDR.ADDR]),
  (RIND_CMD_STAT, [RIND_CMD_STAT.STATUS, RIND_CMD_STAT.DONE, RIND_CMD_STAT.REJ]),
  (RIND_NONCE, [RIND_NONCE.NONCE]),
  (RIND_UID, [RIND_UID.UID]),
  (RIND_FUSE, [RIND_FUSE.CODE_V, RIND_FUSE.DEBUG_PERM, RIND_FUSE.CLEAR_OK, RIND_FUSE.FW_VALID_ONLY]),
  (RIND_FWSVN, [RIND_FWSVN.RUN_SVN, RIND_FWSVN.MIN_SVN]),
  (RIND_SLOT, [RIND_SLOT.STATE, RIND_SLOT.PRINT]),
  (RIND_KEYS, [RIND_KEYS.LIVE]),
  (RIND_ERR, [RIND_ERR.CMD_FAIL, RIND_ERR.AUTH_FAIL]),
  (RIND_PC_CMD, [pcCount RIND_PC_CMD, pcOvf RIND_PC_CMD]),
  (RIND_PC_KEYGEN, [pcCount RIND_PC_KEYGEN, pcOvf RIND_PC_KEYGEN])]
/-- Every register of the device with its fields. -/
def regTable : List (Reg × List Fld) :=
  regTable0 ++ regTable1 ++ regTable2 ++ regTable3 ++ regTable4 ++ regTable5 ++ regTable6 ++ regTable7 ++ regTable8 ++ regTable9

end Sys2Proof.Machine
end

