-- ==== Sys2Proof/Machine/Operands.lean ====
section
/-! DEFINITION. The values that operands of the curd core and the churn stand for: exact dyadic numbers,
the binary floating-point formats, the MX element formats and scales, OB4 (05 R142 to R156), and the
extraction of packed elements (R143). -/

namespace Sys2Proof.Machine

/-- Bits [lo + w - 1 : lo] of a natural number. -/
def bitsOf (x lo w : Nat) : Nat := (x >>> lo) % 2 ^ w

/-- A bit vector's bits [lo + w - 1 : lo]. -/
def bvBits {n : Nat} (x : BitVec n) (lo w : Nat) : Nat := bitsOf x.toNat lo w

/-- The value of the low `w` bits of `x` read as two's complement. -/
def sextNat (x w : Nat) : Int :=
  let y := x % 2 ^ w
  if 2 * y < 2 ^ w then (y : Int) else (y : Int) - (2 : Int) ^ w

/-- Element `e` of width `w` of a packed operand: bits [w·e + w − 1 : w·e] (R143). -/
def element (x w e : Nat) : Nat := bitsOf x (w * e) w

/-- A decoded operand: a NaN (signaling or quiet), an infinity, or the finite number ±m × 2^e.
A zero keeps its sign. -/
inductive Val where
  | nan (signaling : Bool)
  | inf (neg : Bool)
  | fin (neg : Bool) (m : Nat) (e : Int)
  deriving DecidableEq, Repr

/-- A binary layout with sign, exponent and fraction: the constants of R150. `maxCode` is the code of the
largest finite magnitude; `infCode` that of infinity where the format has one. -/
structure BinFmt where
  ebits : Nat
  fbits : Nat
  bias : Nat
  maxCode : Nat
  infCode : Option Nat
  deriving DecidableEq, Repr

namespace BinFmt
/-- binary32 (R144, R150). -/
def b32 : BinFmt := ⟨8, 23, 127, 0x7F7FFFFF, some 0x7F800000⟩
/-- binary16 (R144, R150). -/
def b16 : BinFmt := ⟨5, 10, 15, 0x7BFF, some 0x7C00⟩
/-- bfloat16 (R144, R150). -/
def bf16 : BinFmt := ⟨8, 7, 127, 0x7F7F, some 0x7F80⟩
/-- MXFP8 E4M3 (R148, R150). -/
def e4m3 : BinFmt := ⟨4, 3, 7, 0x7E, none⟩
/-- MXFP8 E5M2 (R148, R150). -/
def e5m2 : BinFmt := ⟨5, 2, 15, 0x7B, some 0x7C⟩
/-- MXFP6 E3M2 (R148, R150). -/
def e3m2 : BinFmt := ⟨3, 2, 3, 0x1F, none⟩
/-- MXFP6 E2M3 (R148, R150). -/
def e2m3 : BinFmt := ⟨2, 3, 1, 0x1F, none⟩
/-- MXFP4 E2M1 (R148, R150). -/
def e2m1 : BinFmt := ⟨2, 1, 1, 0x7, none⟩
end BinFmt

/-- The sign bit's position. -/
def BinFmt.signPos (f : BinFmt) : Nat := f.ebits + f.fbits

/-- The exponent of one unit of the subnormal range: smin = 2^qmin (R150). -/
def BinFmt.qmin (f : BinFmt) : Int := 1 - (f.bias : Int) - f.fbits

/-- The finite magnitude of the code `c` (sign removed): a subnormal or a normal number (R150). -/
def BinFmt.magnitude (f : BinFmt) (c : Nat) : Nat × Int :=
  let ex := c >>> f.fbits
  let fr := c % 2 ^ f.fbits
  if ex = 0 then (fr, f.qmin) else (2 ^ f.fbits + fr, f.qmin + ex - 1)

/-- Decode a code of a binary interchange format (R144, R145): a NaN is signaling when the most significant
fraction bit is 0. -/
def decodeBinary (f : BinFmt) (x : Nat) : Val :=
  let neg := bitsOf x f.signPos 1 = 1
  let c := x % 2 ^ f.signPos
  if c >>> f.fbits = 2 ^ f.ebits - 1 then
    if c % 2 ^ f.fbits = 0 then .inf neg else .nan (bitsOf c (f.fbits - 1) 1 = 0)
  else
    let (m, e) := f.magnitude c
    .fin neg m e

/-- Decode an MX floating-point element (R148): E4M3 has NaN at magnitude 0x7F and no infinity; E5M2 has both;
the others hold numbers only. Every MX NaN is quiet. -/
def decodeMxFloat (f : BinFmt) (x : Nat) : Val :=
  let neg := bitsOf x f.signPos 1 = 1
  let c := x % 2 ^ f.signPos
  if f.maxCode < c then
    if f.infCode = some c then .inf neg else .nan false
  else
    let (m, e) := f.magnitude c
    .fin neg m e

/-- An integer as a value. -/
def Val.ofInt (i : Int) (e : Int) : Val := .fin (i < 0) i.natAbs e

/-- The element formats of R116 with a width and a decoding. -/
def fmtWidth (fmt : Nat) : Nat :=
  match fmt with
  | 0 => 4 | 1 => 8 | 2 => 16 | 3 => 16 | 4 => 32 | 5 => 8 | 6 => 8 | 7 => 8 | 8 => 8 | 9 => 4
  | 10 => 8 | 11 => 4 | 12 => 32 | _ => 0

/-- Is `fmt` an MX element format (codes 5 to 10, R146)? -/
def isMx (fmt : Nat) : Bool := 5 ≤ fmt && fmt ≤ 10

/-- The binary layout of a floating-point format code. -/
def fmtBin (fmt : Nat) : BinFmt :=
  match fmt with
  | 2 => .bf16 | 3 => .b16 | 4 => .b32 | 5 => .e4m3 | 6 => .e5m2 | 7 => .e3m2 | 8 => .e2m3 | _ => .e2m1

/-- The value of an element code in format `fmt`, before any MX scale (R142, R144, R148). Bits [7:6] of an MXFP6
container are ignored (R116). -/
def decodeElem (fmt x : Nat) : Val :=
  match fmt with
  | 0 => .ofInt (sextNat x 4) 0
  | 1 => .ofInt (sextNat x 8) 0
  | 2 => decodeBinary .bf16 (x % 2 ^ 16)
  | 3 => decodeBinary .b16 (x % 2 ^ 16)
  | 4 => decodeBinary .b32 (x % 2 ^ 32)
  | 5 => decodeMxFloat .e4m3 (x % 2 ^ 8)
  | 6 => decodeMxFloat .e5m2 (x % 2 ^ 8)
  | 7 => decodeMxFloat .e3m2 (x % 2 ^ 6)
  | 8 => decodeMxFloat .e2m3 (x % 2 ^ 6)
  | 10 => .ofInt (sextNat x 8) (-6)
  | 12 => .ofInt (sextNat x 32) 0
  | _ => decodeMxFloat .e2m1 (x % 2 ^ 4)

/-- A value times the E8M0 scale `sc`: code 0xFF makes it NaN (R147). -/
def Val.scaled (v : Val) (sc : Nat) : Val :=
  if sc = 0xFF then .nan false else
  match v with
  | .fin n m e => .fin n m (e + sc - 127)
  | v => v

/-- The outlier slots of an OB4 operand applied to element `idx` (R152, R153): slot 1 wins, an empty slot
(value 0x0000) replaces nothing, the value is not scaled. -/
def ob4Value (v : Val) (slot0 slot1 : Nat) (idx : Nat) : Val :=
  let pick (slot : Nat) (v : Val) : Val :=
    if bitsOf slot 8 16 ≠ 0 ∧ bitsOf slot 0 8 = idx then decodeBinary .bf16 (bitsOf slot 8 16) else v
  pick slot1 (pick slot0 v)

/-- The effect of one term on an accumulator lane: an exact number, or a special bit with the flag that the
issuing core sets (R156, R159). -/
inductive Term where
  | num (neg : Bool) (m : Nat) (e : Int)
  | pinf | ninf
  | q (nv : Bool)
  deriving DecidableEq, Repr

/-- Is the value a signaling NaN? -/
def Val.isSNaN : Val → Bool
  | .nan true => true
  | _ => false

/-- Is the value a NaN? -/
def Val.isNaN : Val → Bool
  | .nan _ => true
  | _ => false

/-- Is the value an infinity? -/
def Val.isInf : Val → Bool
  | .inf _ => true
  | _ => false

/-- Is the value a zero? -/
def Val.isZero : Val → Bool
  | .fin _ 0 _ => true
  | _ => false

/-- The sign of a value that is not a NaN. -/
def Val.sign : Val → Bool
  | .nan _ => false
  | .inf n => n
  | .fin n _ _ => n

/-- The product of two factors as a term (R156, R159). -/
def termMul (x y : Val) : Term :=
  match x, y with
  | .nan a, .nan b => .q (a || b)
  | .nan a, _ => .q a
  | _, .nan b => .q b
  | .inf a, .inf b => if a = b then .pinf else .ninf
  | .inf a, .fin b m _ => if m = 0 then .q true else if a = b then .pinf else .ninf
  | .fin a m _, .inf b => if m = 0 then .q true else if a = b then .pinf else .ninf
  | .fin a m e, .fin b m' e' => .num (a != b) (m * m') (e + e')

/-- The operand of `ACC.ADDV` as a term (R156, R159). -/
def termOf (x : Val) : Term :=
  match x with
  | .nan s => .q s
  | .inf n => if n then .ninf else .pinf
  | .fin n m e => .num n m e

end Sys2Proof.Machine
end

