-- ==== Sys2Proof/Machine/Flags.lean ====
section
/-! DEFINITION. Rounding, the sticky flags of `FFLAGS` and the results that are rounded: read-out, conversion and
element-wise floating point (05 R161 to R178). -/

namespace Sys2Proof.Machine

/-- The sticky flags, in the bit order of `FFLAGS` (R121, R172). -/
abbrev Flags := BitVec 7

namespace Flags
/-- `NV`, bit 0. -/
def nv : Flags := 1
/-- `DZ`, bit 1: set by no curd core instruction. -/
def dz : Flags := 2
/-- `OF`, bit 2. -/
def of : Flags := 4
/-- `UF`, bit 3. -/
def uf : Flags := 8
/-- `NX`, bit 4. -/
def nx : Flags := 16
/-- `SAT`, bit 5. -/
def sat : Flags := 32
/-- `AOV`, bit 6. -/
def aov : Flags := 64
/-- A flag when a condition holds. -/
def when (c : Bool) (f : Flags) : Flags := if c then f else 0
end Flags

/-- The 24-bit value that decides stochastic rounding (R164), from the seed, the counter k, the element position and
the member index. -/
def stochR (seed k : BitVec 32) (e m : Nat) : Nat :=
  let h : BitVec 32 := seed ^^^ (k * 0x9E3779B1#32) ^^^ (BitVec.ofNat 32 (m * 64 + e) * 0x85EBCA77#32)
  let h := h ^^^ (h >>> 16)
  let h := h * 0x7FEB352D#32
  let h := h ^^^ (h >>> 15)
  let h := h * 0x846CA68B#32
  let h := h ^^^ (h >>> 16)
  (h >>> 8).toNat

/-- The rounding context of one element: `FRM` (R121) and the value r of R164. -/
structure Rnd where
  mode : Nat
  r : Nat
  deriving DecidableEq, Repr

/-- ⌊m × 2^e ÷ 2^q⌋ with the remainder and its denominator. -/
def quantise (m : Nat) (e q : Int) : Nat × Nat × Nat :=
  if q ≤ e then (m * 2 ^ (e - q).toNat, 0, 1)
  else (m / 2 ^ (q - e).toNat, m % 2 ^ (q - e).toNat, 2 ^ (q - e).toNat)

/-- Choose between n and n + 1 for the magnitude n + rem/den: the modes of R121, with mode 4 under R164. -/
def roundUnit (c : Rnd) (neg : Bool) (n rem den : Nat) : Nat :=
  if rem = 0 then n else
  match c.mode with
  | 0 => if 2 * rem > den ∨ (2 * rem = den ∧ n % 2 = 1) then n + 1 else n
  | 2 => if neg then n else n + 1
  | 3 => if neg then n + 1 else n
  | 4 => if c.r < 2 ^ 24 * rem / den then n + 1 else n
  | _ => n

/-- Does a magnitude beyond the largest finite value become infinity (R162)? Otherwise it becomes the largest
finite value. In mode 4 a value that is rounded past the largest finite one stands at ∞ (R162, R164). -/
def overflowToInf (mode : Nat) (neg : Bool) : Bool :=
  match mode with
  | 1 => false
  | 2 => !neg
  | 3 => neg
  | _ => true

/-- Round the non-zero magnitude m × 2^e to the format (R162): the code without its sign, and the flags. `mx` marks an
MX element destination, which saturates. Tininess is judged after rounding to the format's precision without a lower
limit of the exponent (R162, R166: log 12). -/
def roundFloat (f : BinFmt) (mx : Bool) (c : Rnd) (neg : Bool) (m : Nat) (e : Int) : Nat × Flags :=
  let lead : Int := (Nat.log2 m : Int) + e
  let q := max (lead - f.fbits) f.qmin
  let (n, rem, den) := quantise m e q
  let n' := roundUnit c neg n rem den
  let code := n' + (q - f.qmin).toNat * 2 ^ f.fbits
  if f.maxCode < code then
    if mx then (f.maxCode, .sat ||| .nx)
    else
      match f.infCode with
      | some i => (if overflowToInf c.mode neg then i else f.maxCode, .of ||| .nx)
      | none => (f.maxCode, .of ||| .nx)
  else
    let (u, urem, uden) := quantise m e (lead - f.fbits)
    let u' := roundUnit c neg u urem uden
    let tiny := lead + (if u' = 2 ^ (f.fbits + 1) then 1 else 0) < 1 - (f.bias : Int)
    (code, Flags.when (rem ≠ 0) (Flags.nx ||| Flags.when tiny .uf))

/-- The sign bit of a code. -/
def BinFmt.signed (f : BinFmt) (neg : Bool) (code : Nat) : Nat := code + (if neg then 2 ^ f.signPos else 0)

/-- The canonical NaN (R145). -/
def BinFmt.nanCode (f : BinFmt) : Nat := (2 ^ f.ebits - 1) * 2 ^ f.fbits + 2 ^ (f.fbits - 1)

/-- A value written in a binary interchange format (R145, R162). -/
def toBinary (f : BinFmt) (c : Rnd) (v : Val) : Nat × Flags :=
  match v with
  | .nan _ => (f.nanCode, 0)
  | .inf n => (f.signed n (f.infCode.getD f.maxCode), 0)
  | .fin n 0 _ => (f.signed n 0, 0)
  | .fin n m e => let (code, fl) := roundFloat f false c n m e; (f.signed n code, fl)

/-- A value written as INT32 (R163). -/
def toInt32 (c : Rnd) (v : Val) : Nat × Flags :=
  match v with
  | .nan _ => (0, .nv)
  | .inf n => (if n then 0x80000000 else 0x7FFFFFFF, .sat ||| .nx)
  | .fin neg m e =>
    let (n, rem, den) := quantise m e 0
    let n' := roundUnit c neg n rem den
    if neg then
      if n' > 2 ^ 31 then (0x80000000, .sat ||| .nx) else ((2 ^ 32 - n') % 2 ^ 32, Flags.when (rem ≠ 0) .nx)
    else
      if n' > 2 ^ 31 - 1 then (0x7FFFFFFF, .sat ||| .nx) else (n', Flags.when (rem ≠ 0) .nx)

/-- A finite value written as MXINT8 (R148, R162, R170): a multiple of 2^-6 from −1.984375 to 1.984375. -/
def toMxInt8 (c : Rnd) (neg : Bool) (m : Nat) (e : Int) : Nat × Flags :=
  let (n, rem, den) := quantise m e (-6)
  let n' := roundUnit c neg n rem den
  let (k, fl) := if n' > 127 then (127, Flags.sat ||| Flags.nx) else (n', Flags.when (rem ≠ 0) .nx)
  (if neg then (256 - k) % 256 else k, fl)

/-- A finite value written as the MX element format `fmt` (R162, R170). A zero keeps its sign, except in MXINT8. -/
def toMxElem (fmt : Nat) (c : Rnd) (neg : Bool) (m : Nat) (e : Int) : Nat × Flags :=
  if fmt = 10 then toMxInt8 c neg m e
  else
    let f := fmtBin fmt
    if m = 0 then (f.signed neg 0, 0)
    else let (code, fl) := roundFloat f true c neg m e; (f.signed neg code, fl)

/-- The result of a read-out or conversion into `fmt` 2, 3, 4 or 12 (R162, R163). -/
def toFmt (fmt : Nat) (c : Rnd) (v : Val) : Nat × Flags :=
  if fmt = 12 then toInt32 c v else toBinary (fmtBin fmt) c v

/-- ±m × 2^e as an integer multiple of 2^q, for q ≤ e. -/
def dyInt (neg : Bool) (m : Nat) (e q : Int) : Int :=
  let k : Int := (m * 2 ^ (e - q).toNat : Nat)
  if neg then -k else k

/-- The exact sum of two finite numbers; a zero sum is +0, or −0 under mode 3, unless both operands are zeros of one
sign (R162: IEEE 754-2019). -/
def addFin (mode : Nat) (n1 : Bool) (m1 : Nat) (e1 : Int) (n2 : Bool) (m2 : Nat) (e2 : Int) : Val :=
  let q := min e1 e2
  let s := dyInt n1 m1 e1 q + dyInt n2 m2 e2 q
  if s = 0 then .fin (if m1 = 0 ∧ m2 = 0 ∧ n1 = n2 then n1 else mode = 3) 0 0
  else .fin (s < 0) s.natAbs q

/-- Order of two values that are not NaN: is x < y? −0 and +0 are equal. -/
def Val.lt (x y : Val) : Bool :=
  match x, y with
  | .inf a, .inf b => a && !b
  | .inf a, .fin _ _ _ => a
  | .fin _ _ _, .inf b => !b
  | .fin a m e, .fin b m' e' => dyInt a m e (min e e') < dyInt b m' e' (min e e')
  | _, _ => false

/-- Are two values that are not NaN equal? −0 equals +0 (R167). -/
def Val.eqv (x y : Val) : Bool := !x.isNaN && !y.isNaN && !x.lt y && !y.lt x

/-- The sum x + y (R166): infinities, NaN and the exact sum, with `NV`. -/
def valAdd (mode : Nat) (x y : Val) : Val × Flags :=
  if x.isNaN ∨ y.isNaN then (.nan false, Flags.when (x.isSNaN || y.isSNaN) .nv)
  else
    match x, y with
    | .inf a, .inf b => if a = b then (.inf a, 0) else (.nan false, .nv)
    | .inf a, _ => (.inf a, 0)
    | _, .inf b => (.inf b, 0)
    | .fin n m e, .fin n' m' e' => (addFin mode n m e n' m' e', 0)
    | _, _ => (.nan false, 0)

/-- The negation of a value. -/
def Val.neg : Val → Val
  | .nan s => .nan s
  | .inf n => .inf (!n)
  | .fin n m e => .fin (!n) m e

/-- The exact product x × y (R166). -/
def valMul (x y : Val) : Val × Flags :=
  if x.isNaN ∨ y.isNaN then (.nan false, Flags.when (x.isSNaN || y.isSNaN) .nv)
  else
    match x, y with
    | .fin n m e, .fin n' m' e' => (.fin (n != n') (m * m') (e + e'), 0)
    | a, b => if a.isZero ∨ b.isZero then (.nan false, .nv) else (.inf (a.sign != b.sign), 0)

/-- Fused multiply-add: ∞ × 0 raises `NV` even with a quiet NaN addend (R166). -/
def valFma (mode : Nat) (x y z : Val) : Val × Flags :=
  let (p, fl) := valMul x y
  let (s, fl') := valAdd mode p z
  (s, fl ||| fl')

/-- minimumNumber and maximumNumber (R166): the numeric operand against a NaN, −0 below +0. -/
def valMinMax (wantMax : Bool) (x y : Val) : Val × Flags :=
  let fl := Flags.when (x.isSNaN || y.isSNaN) .nv
  let below (a b : Val) : Bool := a.lt b || (a.eqv b && a.sign && !b.sign)
  if x.isNaN then (if y.isNaN then .nan false else y, fl)
  else if y.isNaN then (x, fl)
  else (if wantMax then (if below x y then y else x) else (if below y x then y else x), fl)

/-- One element of `VFP` (R166): function 0 `FADD`, 1 `FSUB`, 2 `FMUL`, 3 `FMA`, 4 `FMIN`, 5 `FMAX`. -/
def vfpElem (fn : Nat) (f : BinFmt) (c : Rnd) (x y d : Nat) : Nat × Flags :=
  let a := decodeBinary f x
  let b := decodeBinary f y
  let (v, fl) :=
    match fn with
    | 0 => valAdd c.mode a b
    | 1 => valAdd c.mode a b.neg
    | 2 => valMul a b
    | 3 => valFma c.mode a b (decodeBinary f d)
    | 4 => valMinMax false a b
    | _ => valMinMax true a b
  let (code, fl') := toBinary f c v
  (code, fl ||| fl')

/-- One lane of `FEQ`, `FLT` or `FLE` (R167): the result and the flags. -/
def fcmpElem (fn : Nat) (f : BinFmt) (x y : Nat) : Bool × Flags :=
  let a := decodeBinary f x
  let b := decodeBinary f y
  if a.isNaN ∨ b.isNaN then
    (false, Flags.when (fn ≠ 6 || a.isSNaN || b.isSNaN) .nv)
  else
    match fn with
    | 6 => (a.eqv b, 0)
    | 7 => (a.lt b, 0)
    | _ => (a.lt b || a.eqv b, 0)

end Sys2Proof.Machine
end

