-- ==== Sys2Proof/Machine/Accum.lean ====
section
/-! DEFINITION. The long accumulator lane, its terms and read-out (05 R155 to R160), and the long-form partial with
its encoding and merging (R179 to R184). -/

namespace Sys2Proof.Machine

open Sys2Proof

/-- One lane of a long-accumulator set: A and the special bits P, N, Q (R155). -/
structure Lane where
  a : Acc := 0
  p : Bool := false
  n : Bool := false
  q : Bool := false
  deriving DecidableEq, Repr

/-- Is the integer outside the range of a lane (R155)? -/
def accOut (x : Int) : Bool := x < -(2 ^ 639 : Int) || (2 ^ 639 : Int) ≤ x

/-- Add one term to a lane: the new lane and the flags of the issuing core (R157, R159). -/
def Lane.add (l : Lane) (t : Term) : Lane × Flags :=
  match t with
  | .num neg m e =>
    let x := dyInt neg m e (-300)
    ({ l with a := l.a + BitVec.ofInt 640 x }, Flags.when (accOut (l.a.toInt + x)) .aov)
  | .pinf => ({ l with p := true }, 0)
  | .ninf => ({ l with n := true }, 0)
  | .q nv => ({ l with q := true }, Flags.when nv .nv)

/-- Add a list of terms in order. -/
def Lane.addAll (l : Lane) (ts : List Term) : Lane × Flags :=
  ts.foldl (fun (acc : Lane × Flags) t => let (l', f) := acc.1.add t; (l', acc.2 ||| f)) (l, 0)

/-- The value of a lane at read-out with its flag (R160). -/
def Lane.value (l : Lane) : Val × Flags :=
  let fl := Flags.when (l.p && l.n) .nv
  if l.q ∨ (l.p ∧ l.n) then (.nan false, fl)
  else if l.p then (.inf false, fl)
  else if l.n then (.inf true, fl)
  else (.ofInt l.a.toInt (-300), fl)

/-- Read a lane out in `fmt` 2, 3, 4 or 12 (R160, R162, R163, R168). -/
def Lane.readOut (l : Lane) (fmt : Nat) (c : Rnd) : Nat × Flags :=
  let (v, fl) := l.value
  let (code, fl') := toFmt fmt c v
  (code, fl ||| fl')

/-- The lowest set bit of a non-zero number. -/
def lowBit (x : Nat) : Nat := Nat.log2 (x &&& (2 ^ 640 - x))

/-- The windows of A (R181), at most `fuel` of them; five suffice. -/
def encodeWins : Nat → Acc → List Window
  | 0, _ => []
  | fuel + 1, r =>
    if r = 0 then []
    else
      let q := min (lowBit r.toNat) 512
      let w : BitVec 128 := (r >>> q).setWidth 128
      ⟨w, q⟩ :: encodeWins fuel (r - (w.signExtend 640 <<< q))

/-- Encode A (R181): one zero window for zero, else strictly rising windows. -/
def encodeAcc (a : Acc) : List Window := if a = 0 then [⟨0, 0⟩] else encodeWins 5 a

/-- The accumulator value of windows in any order (R180). -/
def decodeAcc (ws : List Window) : Acc := ws.foldl (fun acc x => acc + (x.w.signExtend 640 <<< x.pos)) 0

/-- The accumulator value of a partial (R180). -/
def partialValue (x : Partial) : Acc := decodeAcc x.wins

/-- The 16-bit tag and the lane: the key of a reduction (R179). -/
def partialKey (x : Partial) : BitVec 16 × BitVec 4 := (x.tag, x.lane)

/-- `EXPECT` as a count: 0 means 256 (R179). -/
def expectCount (e : BitVec 8) : Nat := if e = 0 then 256 else e.toNat

/-- Is a received partial malformed (R183)? `short` marks a packet with too few bytes for its `NWIN`. -/
def partialMalformed (x : Partial) (short : Bool) : Bool :=
  x.wins.length = 0 || x.wins.length > 5 || x.merged = 0 || x.merged > 256 || x.wins.any (fun w => w.pos > 512) || short

/-- What replaces a malformed partial (R183): A = 0, Q set, MERGED 1. -/
def partialSanitised (x : Partial) : Partial :=
  { x with merged := 1, p := false, n := false, q := true, aov := false, wins := [⟨0, 0⟩] }

/-- Merge two partials of one key (R182); the `EXPECT` of the first stands. -/
def partialMerge (x y : Partial) : Partial :=
  { x with
    merged := min (x.merged + y.merged) 256
    p := x.p || y.p
    n := x.n || y.n
    q := x.q || y.q
    aov := x.aov || y.aov || accOut ((partialValue x).toInt + (partialValue y).toInt)
    wins := encodeAcc (partialValue x + partialValue y) }

/-- The partial that `ACC.PART` emits for a lane under the tag register `PTAG` (R184). -/
def Lane.toPartial (l : Lane) (ptag : BitVec 32) (i : Nat) : Partial :=
  { tag := ptag.setWidth 16, lane := BitVec.ofNat 4 i, expect := (ptag >>> 16).setWidth 8, merged := 1
    p := l.p, n := l.n, q := l.q, aov := false, wins := encodeAcc l.a }

/-- The 8-byte header of a partial (R179). -/
def partialHeader (x : Partial) : BitVec 64 :=
  BitVec.ofNat 64 (x.tag.toNat + x.lane.toNat * 2 ^ 16 + x.expect.toNat * 2 ^ 20 + (x.merged % 512) * 2 ^ 28
    + (x.wins.length % 8) * 2 ^ 37 + x.p.toNat * 2 ^ 40 + x.n.toNat * 2 ^ 41 + x.q.toNat * 2 ^ 42 + x.aov.toNat * 2 ^ 43)

/-- The windows of a record: 18 bytes each, `W` then `POS` (05 R179). -/
def winsBytes (ws : List Window) : Nat :=
  ws.foldr (fun w acc => w.w.toNat + w.pos * 2 ^ 128 + acc * 2 ^ 144) 0

/-- A partial as the bytes of its long form (05 R179): the header, then its windows. -/
def partialBytes (p : Partial) : Nat := (partialHeader p).toNat + 2 ^ 64 * winsBytes p.wins

/-- The partial of the bytes of a packet that holds `n` bytes (R179), and whether it is malformed (R183). -/
def partialOfBytes (n d : Nat) : Partial × Bool :=
  let f := fun lo w => d / 2 ^ lo % 2 ^ w
  let nwin := f 37 3
  let wins := (List.range (min nwin 5)).map (fun i =>
    (⟨BitVec.ofNat 128 (f (64 + 144 * i) 128), f (192 + 144 * i) 10⟩ : Window))
  let x : Partial :=
    { tag := BitVec.ofNat 16 (f 0 16), lane := BitVec.ofNat 4 (f 16 4), expect := BitVec.ofNat 8 (f 20 8), merged := f 28 9
      p := f 40 1 = 1, n := f 41 1 = 1, q := f 42 1 = 1, aov := f 43 1 = 1, wins := wins }
  (x, 5 < nwin || partialMalformed x (n < 8 + 18 * nwin))

end Sys2Proof.Machine
end

