-- ==== Sys2Proof/Machine/State.lean ====
section
/-! DEFINITION. The state of the block: everything the spec gives the device, as plain data. Every field that software
can see as a register has its one home in `regs` (the register map of Regs.lean); the structures below hold the rest.
Sparse maps are lists of (key, value) pairs in one canonical form: keys strictly rising, no value equal to the
map's default. -/

namespace Sys2Proof.Machine

open Sys2Proof

/-- A sparse map with a default value: keys strictly rising, no entry equal to the default. -/
abbrev SMap (α : Type) := List (Nat × α)

/-! ### Messages in flight -/

/-- A T-net message (07 R245): operation 0 increment, 1 registration, 2 acknowledgement, 3 release, 4 read,
5 read reply, 6 set threshold. -/
structure TMsg where
  op : Nat
  tally : Nat
  value : Nat
  src : Nat
  kind : Nat
  /-- The vat a message is going to, when it leaves a tally. -/
  dst : Nat := 64
  /-- The core, or 4,096 + vat for another unit, that sent a message to a tally; 8,192 for one that left a tally. -/
  org : Nat := 8192
  /-- The message answers a registration (06 R203), not a reach. -/
  answer : Bool := false
  deriving DecidableEq, Repr

/-- A message that has been sent and has not arrived. -/
inductive Msg where
  /-- A request with its requester, tag and global address (01 R32). -/
  | req (src : Agent) (tag : Nat) (ga : Dword) (op : MemOp)
  /-- A reply to a requester's request of that tag. -/
  | reply (dst : Agent) (tag : Nat) (r : Reply)
  /-- A replaced curd cache line offered to its home slice (04 R137, 09 R304): core, global address, data, request time. -/
  | victim (c : Nat) (ga : Dword) (data : Line) (rtime : Nat)
  /-- A C-net message to a logical core (07 R242). -/
  | cnet (dst : Nat) (urgent : Bool) (sender payload : Word)
  /-- A doorbell to a vat (17 R522). -/
  | doorbell (v : Nat) (src : Nat)
  | tnet (m : TMsg)
  /-- A long-form partial on its way to the churn of its home vat. -/
  | part (src : Nat) (p : Partial)
  /-- A forwarded partial to another device (15 R474): device, partition of the sender, partial. -/
  | xpart (dev : Nat) (spart : Nat) (p : Partial)
  /-- A line from memory, or an error, on its way to the slot `id` of a slice (09 R301). -/
  | fill (v id : Nat) (res : Option Line)
  /-- A posted write to host memory: Requester ID, host address, byte mask and data of its line (16 R505). -/
  | hostWr (rid : Nat) (haddr : Nat) (mask : Mask) (data : Line)
  /-- A message to the speculation unit of vat `v` of this device, or to another device (08 R259): `v` is 64 then. -/
  | spec (dev v : Nat) (m : SpecMsg)
  /-- A curd cache injection (04 R139). -/
  | inject (c : Nat) (line : Nat) (data : Line) (rtime : Nat)
  deriving DecidableEq, Repr

/-- A running audit of the ledger (02 R63, R66): the pool of the self-test it carries, and the reports that came: pool,
instance, and the sum of the instance's counts less its base. -/
structure Audit where
  test : Option Nat := none
  reports : List ((Nat × Nat) × Int) := []
  deriving DecidableEq, Repr

/-! ### The running image (03) -/

/-- A partition record (03 R76). -/
structure PartRec where
  mode : Nat := 0
  hostFn : Nat := 0
  verifyPeer : Nat := 255
  vatMask : BitVec 64 := 0
  msixBase : Nat := 0
  msixCount : Nat := 0
  deriving DecidableEq, Repr

/-- A stage of a partition (03 R83). -/
structure StageRec where
  part : Nat
  stage : Nat
  vat : Nat
  entry : Nat
  next : Nat
  cores : BitVec 64
  inTally : Nat
  outTally : Nat
  deriving DecidableEq, Repr

/-- A tally entry of the image (03 R84). -/
structure TallyRec where
  id : Nat
  count : Nat
  thresh : Nat
  deriving DecidableEq, Repr

/-- A slice record of `CREAM` (03 R85): cache ways and scratchpad owner, 255 for none. -/
structure SliceRec where
  ways : Nat := 16
  scrPart : Nat := 255
  deriving DecidableEq, Repr

/-- A share record of `CREAM` (03 R85). -/
structure ShareRec where
  slice : Nat
  part : Nat
  wayMask : BitVec 16
  qshare : Nat
  deriving DecidableEq, Repr

/-- A crock region (03 R86), in 32 MiB units. -/
structure CrockRegion where
  base : Nat
  size : Nat
  part : Nat
  imode : Nat
  vat : Nat
  keep : Bool
  kv : Bool
  shared : Bool
  crock : Nat
  deriving DecidableEq, Repr

/-- A cellar region (03 R87), in 1 GiB units. -/
structure CellarRegion where
  pos : Nat
  part : Nat
  keep : Bool
  encrypt : Bool
  shared : Bool
  base : Nat
  size : Nat
  deriving DecidableEq, Repr

/-- A port record of `FABRIC` (03 R89). -/
structure PortRec where
  use : Nat := 0
  bond : Nat := 255
  peerDev : Nat := 0
  peerPort : Nat := 0
  deriving DecidableEq, Repr

/-- A face record (03 R79). -/
structure FaceRec where
  occ : Nat := 0
  owner : Nat := 255
  budget : Nat := 0
  deriving DecidableEq, Repr

/-- A register-map entry (03 R91): partition, writable, page offset in register space. -/
structure RegmapRec where
  part : Nat
  rw : Bool
  offset : Nat
  deriving DecidableEq, Repr

/-- What the running images define and no register holds (03 R67 to R91). -/
structure Image where
  /-- A full image is loaded. -/
  configured : Bool := false
  parts : List (Nat × PartRec) := []
  /-- Vat to its 64 physical core indices (R80, R81). -/
  maps : List (Nat × List Nat) := []
  /-- Vat to its `KIND` array (R82). -/
  kinds : List (Nat × List Nat) := []
  stages : List StageRec := []
  tallies : List TallyRec := []
  slices : List (Nat × SliceRec) := []
  shares : List ShareRec := []
  prioCh : List Nat := []
  crock : List CrockRegion := []
  cellar : List CellarRegion := []
  cellarPop : BitVec 8 := 0
  cellarRate : Nat := 0
  linkGroups : BitVec 4 := 0
  powerLimit : Nat := 0
  topo : Nat := 0
  ports : List (Nat × PortRec) := []
  twin : Option (Nat × Nat) := none
  regmap : List RegmapRec := []
  faces : List (Nat × FaceRec) := []
  deriving DecidableEq, Repr

/-- An operation of the management core's queue (03 R94, 21 R629): an image load with its handle, none for an automatic one,
the length its command gave and its bytes as the checking pass reads them; a zeroisation; a twin synchronisation with its
`DIR` and `NOCOPY` (20 R606); an authenticated command with the bytes of its block. -/
inductive McOp where
  | image (handle : Option Nat) (len : Nat) (bytes : List Byte)
  | zeroise (handle : Nat) (words : List Dword)
  | sync (handle : Nat) (sink nocopy : Bool)
  | rind (blk : Option (List Byte))
  deriving DecidableEq, Repr

/-! ### Curd cores (04, 06) -/

/-- An entry of the store buffer (04 R128): a local or far line address, the bytes written, and for a far store the
global address its translation gave. `reg` is the access size in bytes of a register-window store (R131). -/
structure SbEntry where
  far : Bool
  line : Nat
  mask : Mask
  data : Line
  zero : Bool := false
  ga : Dword := 0
  reg : Nat := 0
  deriving DecidableEq, Repr

/-- A far store or zero-fill that has left the store buffer and is not yet acknowledged (R126). -/
structure OutStore where
  tag : Nat
  zero : Bool
  line : Nat
  deriving DecidableEq, Repr

/-- An entry of the curd cache (R131). -/
structure CacheEnt where
  valid : Bool := false
  line : Nat := 0
  data : Line := 0
  age : Nat := 0
  pending : Bool := false
  streaming : Bool := false
  hit : Bool := false
  /-- A pending line that is invalidated when its zero-fill is acknowledged (R136, R138). -/
  drop : Bool := false
  /-- The request time of the line, `MC_TSC`[31:0] (09). -/
  rtime : Nat := 0
  deriving DecidableEq, Repr

/-- What a blocked instruction waits for (R105). -/
inductive BlkKind where
  | fld (rd : BitVec 5)
  | vldf (vr : BitVec 4) (stream : Bool)
  | atom (rd : BitVec 5)
  | trd (rd : BitVec 5)
  deriving DecidableEq, Repr

/-- The blocking request of a core: its kind, its far address, its instruction word, the members whose data has not
returned, and whether the access is a register-window access, which fills no line (R131). -/
structure Blocked where
  kind : BlkKind
  fa : Nat
  word : Word
  waits : List Nat
  regWin : Bool := false
  /-- A shootdown met the fill (13 R411): it returns to its instruction and is not installed. -/
  noFill : Bool := false
  /-- `MC_TSC`[31:0] when the request was sent (09). -/
  rtime : Nat := 0
  deriving DecidableEq, Repr

/-- An error of a posted store waiting to be taken as `STORE_ERROR` (R126): sub-code, address, member. -/
structure StoreErr where
  sub : Nat
  addr : Nat
  member : Nat
  deriving DecidableEq, Repr

/-- Why a task is suspended (R194). -/
inductive WaitKind where
  | page (va : Nat)
  | twait (rd : BitVec 5) (tally : Nat) (armed : Bool)
  | recv (rd rs1 : BitVec 5)
  | wfe
  deriving DecidableEq, Repr

/-- One logical curd core (R103): its registers and the units around them. -/
structure CoreSt where
  sreg : SMap Word := []
  vreg : SMap Line := []
  preg : SMap (BitVec 16) := []
  /-- Lane i of set a at key 16a + i. -/
  acc : SMap Lane := []
  pc : BitVec 16 := 0
  /-- The word at `PC` and the four words of its fetch window (R109), each with a mark for a word whose fetch met an
  uncorrectable error (R122). -/
  fbuf : List (Word × Bool) := []
  fflags : Flags := 0
  frm : BitVec 3 := 0
  fseed : Word := 0
  ptag : Word := 0
  tvec : Word := 0
  tepc : Word := 0
  tcause : Word := 0
  tinsn : Word := 0
  taddrlo : Word := 0
  taddrhi : Word := 0
  inHandler : Bool := false
  member : BitVec 4 := 0
  /-- The stochastic counter k (05 R165). -/
  k : Word := 0
  /-- A running `DIV`: destination and result (R105). -/
  div : Option (BitVec 5 × Word) := none
  /-- The slot of the task on this dispatch target (06 R194). -/
  task : Option Nat := none
  blk : Option Blocked := none
  /-- The far access whose translation walk holds the instruction (13 R400): virtual address, write, member index,
  instruction word. -/
  walk : Option (Nat × Bool × Nat × Word) := none
  wait : Option WaitKind := none
  /-- `HALT` holds until the gate registration is served (06 R196). -/
  halting : Bool := false
  sb : List SbEntry := []
  /-- The wait of R129 of the instruction at `PC` has been counted. -/
  partWait : Bool := false
  outst : List OutStore := []
  nextTag : Nat := 0
  storeErrs : List StoreErr := []
  cache : SMap CacheEnt := []
  /-- The prefetch side buffer, oldest first: virtual line address, data and request time (R134). -/
  side : List (Nat × Line × Nat) := []
  /-- Lines whose prefetch is outstanding, with the time of the request. -/
  pref : List (Nat × Nat) := []
  /-- The receive queues of VC0 and VC1, oldest first: sender word and payload (07 R242). -/
  rx0 : List (Word × Word) := []
  rx1 : List (Word × Word) := []
  /-- The event latch (17 R523). -/
  evLatch : Bool := false
  deriving DecidableEq, Repr

/-! ### Signed events of a twin (20 R596 to R598) -/

/-- A stream of signed events: the number of its current window and the events counted in it; the counts of windows
that a boundary closed and that are not whole; what is hashed of each window (events, sum); the records that wait
to be accepted (window, count, signature). -/
structure Stream where
  num : Nat := 0
  count : Nat := 0
  shorts : SMap Nat := []
  acc : SMap (Nat × Dword) := []
  recs : List (Nat × Nat × Dword) := []
  deriving DecidableEq, Repr

/-- Where the destination lines of a task's ladle descriptor are signed (20 R596): stream, the window and the count at
submission, and 2^`WLOG` then. -/
structure SignPos where
  stream : Nat
  num : Nat
  count : Nat
  size : Nat
  deriving DecidableEq, Repr

/-! ### Tasks (06) -/

/-- The gate wait of a task (06 R203): none, registered, or armed. -/
inductive GateSt where
  | none | registered | armed
  deriving DecidableEq, Repr

/-- What a task slot holds beside its registers (06 R190, R194): the captured `VAT_TASK_DESC` and `VAT_TASK_ARG`, the
stage and its `NEXT` for an image-created task, the gate wait. -/
structure TaskSt where
  desc : Dword := 0
  arg : Word := 0
  stage : Option (Nat × Nat) := none
  gate : GateSt := .none
  deriving DecidableEq, Repr

/-- Who waits at a tally (06 R203): a core in `TWAIT`, or a gated task slot. -/
inductive Waiter where
  | core (c : Nat)
  | slot (v k : Nat)
  deriving DecidableEq, Repr

/-! ### The churn (06 R205 to R212) -/

/-- A piece of a result write: virtual address, bytes, data. -/
structure RedPiece where
  va : Nat
  n : Nat
  data : Nat
  deriving DecidableEq, Repr

/-- A lane of a reduction entry (06 R206 to R208): what is merged so far, the result pieces that wait to be sent, and
those sent and not acknowledged, with their global addresses. -/
structure RedLane where
  part : Option Partial := none
  todo : List RedPiece := []
  out : List (Nat × Dword) := []
  deriving DecidableEq, Repr

/-- A queued churn invocation (06 R209). -/
structure Invoc where
  entry : Nat
  arg : Word
  kind : Nat
  deriving DecidableEq, Repr

/-- What a churn program waits for (06 R210, R212): the data of a load, the completion of a store, or a walk. -/
inductive ChurnWait where
  | ld (rd : BitVec 4)
  | st
  | walk
  deriving DecidableEq, Repr

/-- A running churn program (06 R209): its registers, its next word, the instructions it has run, and program memory
as it was when the invocation began. -/
structure ChurnRun where
  /-- The stream that signs the program's events, for a program that a completion invoked (20 R596). -/
  stream : Option Nat := none
  pc : Nat
  regs : SMap Dword := []
  count : Nat := 0
  prog : SMap Word := []
  wait : Option ChurnWait := none
  deriving DecidableEq, Repr

/-- The churn of a vat beside its registers. The RNG state before any seed is written is a DESIGN CHOICE (log 4). -/
structure ChurnSt where
  early : List Partial := []
  k : Word := 0
  invq : List Invoc := []
  run : Option ChurnRun := none
  scratch : SMap Dword := []
  rng : Dword := 0x9E3779B97F4A7C15
  deriving DecidableEq, Repr

/-! ### The ladles (06 R213 to R218) -/

/-- The transfer of an active descriptor: its row, the source bytes read and the destination bytes written of that row,
the bytes read and not yet converted, the bytes that wait to be written (each a number and its length), the read that
is outstanding (tag, bytes), the writes and read-backs that are (tag, global address, is a read-back), the last address
written through each host window entry (R216), whether the read-backs were sent, the address whose page fault holds the
ladle (13 R402), the destination lines written so far, and `MC_TSC`[31:0] when the last read
was issued. -/
structure LAct where
  row : Nat := 0
  soff : Nat := 0
  doff : Nat := 0
  ibuf : Nat := 0
  ilen : Nat := 0
  obuf : Nat := 0
  olen : Nat := 0
  rd : Option (Nat × Nat × Dword) := none
  wrs : List (Nat × Dword × Bool) := []
  hosts : List (Nat × Dword) := []
  fenced : Bool := false
  hold : Option Nat := none
  lines : Nat := 0
  rdT : Nat := 0
  deriving DecidableEq, Repr

/-- A queued descriptor: its sequence number, its eight words, and where its lines are signed (20 R596). -/
structure LItem where
  seq : Nat
  words : List Dword
  sign : Option SignPos := none
  deriving DecidableEq, Repr

/-- A ladle beside its registers: its queue with the active descriptor first, the next sequence number, the staged
words, the transfer that runs, and the tag of its next request. -/
structure LadleSt where
  queue : List LItem := []
  seq : Nat := 0
  stg : List Dword := []
  act : Option LAct := none
  tag : Nat := 0
  deriving DecidableEq, Repr

/-! ### Networks (07) -/

/-- An occupied reduction slot of a router (07 R247): its partial, `MC_TSC` when it opened, and whether it is marked for
forwarding. -/
structure RedSlot where
  part : Partial
  time : Nat
  marked : Bool
  deriving DecidableEq, Repr

/-! ### Speculation units (08) -/

/-- An outstanding epoch (08 R265, R266): its number, start, draft count, run-ahead flag and guess, the tokens the unit
holds of it, and whether it has been presented. -/
structure SpecEpoch where
  e : Nat
  s : Nat
  n : Nat
  ra : Bool
  g : Nat
  toks : Nat := 0
  presented : Bool := false
  deriving DecidableEq, Repr

/-- A record of the token ring before its `SEQ` (08 R286). -/
structure SpecRec where
  type : Nat
  prov : Bool := false
  tok : Nat := 0
  pos : Nat
  epoch : Nat := 0
  deriving DecidableEq, Repr

/-- A verdict whose table writes are not all acknowledged (08 R271): its fields, the epochs that left the table and the
records to queue. -/
structure SpecVerd where
  e : Nat
  l : Nat
  a : Nat
  y : Nat
  left : Nat
  drafter : Bool
  recs : List SpecRec
  deriving DecidableEq, Repr

/-- A write that waits to be sent: kind 0 block table, 1 draft buffer, 2 token ring; its virtual address, or for the ring
its host-window offset; its bytes. A range of zeroes may be longer than a line. -/
structure SpecWr where
  kind : Nat
  va : Nat
  n : Nat
  data : Nat
  deriving DecidableEq, Repr

/-- A speculation unit beside its registers: outstanding epochs oldest first, the next epoch number, the forwarded
`OPEN`s without an answer, the block table as the unit wrote it (keyed 65,536 × stream + block), the used pages of both
pools in rising order, the writes to send and those outstanding (tag, kind, line address, global address), the next tag,
the verdict in progress, the output queue (a record, and whether it is the last of its batch), the records written since
`START`, the read-back that is outstanding (tag, records it covers, global address) and the one that follows it, the
provisional tokens that stand posted (position, token), and the reason of the stream's end. -/
structure SpecSt where
  epochs : List SpecEpoch := []
  next : Nat := 1
  waits : List (Nat × Bool × Nat) := []
  blocks : SMap Nat := []
  usedC : List Nat := []
  usedH : List Nat := []
  todo : List SpecWr := []
  outs : List (Nat × Nat × Nat × Dword) := []
  tag : Nat := 0
  busy : Option SpecVerd := none
  outq : List (SpecRec × Bool) := []
  wseq : Nat := 0
  rb : Option (Nat × Nat × Dword) := none
  rbNext : Option Nat := none
  posted : List (Nat × Nat) := []
  reason : Nat := 0
  deriving DecidableEq, Repr

/-! ### The Cream store (09) -/

/-- A cached line (09 R297): its address in lines, its data, its reference bit. -/
structure CrmLine where
  line : Nat
  data : Line
  ref : Bool
  deriving DecidableEq, Repr

/-- A valid entry of the atomic buffer (09 R305). -/
structure AtomEnt where
  line : Nat
  data : Line
  locked : Bool
  deriving DecidableEq, Repr

/-- A request that holds a slot of a slice (09 R308): where it came from, its operation, its address in lines, the kind
of slot (0 reserved share, 1 common, 2 unreserved share, 3 real-time), its partition, and whether it has been granted
and waits for memory or the host. -/
structure SliceReq where
  src : Agent
  tag : Nat
  ga : Dword
  op : MemOp
  line : Nat
  kind : Nat
  part : Option Nat
  rt : Bool
  granted : Bool := false
  deriving DecidableEq, Repr

/-- A slice beside its registers: cached lines keyed 16 × set + way, the last-write time of each set, the atomic buffer
with the least recently used entry first, the requests that hold slots, and the next slot number of the model. -/
structure SliceSt where
  cache : SMap CrmLine := []
  lastW : SMap Nat := []
  atomb : List AtomEnt := []
  slots : SMap SliceReq := []
  next : Nat := 0
  deriving DecidableEq, Repr

/-- A request that a memory controller has accepted from a slice: the slice, the slot that waits for it (none for the
write-through of an atomic), the line, what it writes, its partition and its global address. -/
structure MemReq where
  home : Nat
  id : Option Nat
  line : Nat
  write : Option (Mask × Line)
  part : Option Nat
  rt : Bool
  ga : Dword
  deriving DecidableEq, Repr

/-- An outstanding read over PCIe (16 R502): its tag, the slice and slot that wait for it, and the offset in the host
window; or the ring whose read-back it is (16 R509). -/
structure HostRd where
  tag : Nat
  home : Nat
  id : Nat
  off : Nat
  ring : Option Nat := none
  deriving DecidableEq, Repr

/-! ### The crock (10, 12) -/

/-- A run of a traffic generator (10 R338, 11 R365), as its registers stood at `GO`: mode, pattern, `RAW`, first line,
length, seed, `MC_TSC` then, and the pseudo-channel in a cellar. -/
structure TgRun where
  mode : Nat
  pat : Nat
  raw : Bool
  base : Nat
  len : Nat
  seed : Nat
  t0 : Nat
  pc : Nat := 0
  deriving DecidableEq, Repr

/-- A generator beside its registers: its run, what it wrote to the array of its channel as raw bytes (keyed by line), and
the free value that names what the array held when the test began (log 3). -/
structure TgSt where
  run : Option TgRun := none
  mem : SMap Nat := []
  epoch : Nat := 0
  deriving DecidableEq, Repr

/-- A crock channel beside its registers: its `UNREP` rows (layer, bank, row) (10 R337), the 1 ms period of the lines
counted per layer and those counts (12 R372), the poison list (12 R375), the address of its last uncorrectable record
(12 R380), and its generator. -/
structure CrkCh where
  unrep : List (Nat × Nat × Nat) := []
  period : Nat := 0
  counts : SMap Nat := []
  poison : List Nat := []
  lastUe : Option Nat := none
  tg : TgSt := {}
  deriving DecidableEq, Repr

/-! ### The cellar (11, 12) -/

/-- A cellar position beside its registers: the second of the symbols counted per lane (keyed 64 × pseudo-channel + lane)
and those counts (11 R359), the address of its last uncorrectable record (12 R380), the command that was reissued after a
parity error (11 R362), no valid temperature reading, the training that runs is a bring-up's, the available list of the
last bring-up, the rating and the whole GiB of the stack that it found, its generators by channel, and the free value that names what the arrays held when a test began. -/
structure CelSt where
  second : Nat := 0
  counts : SMap Nat := []
  lastUe : Option Nat := none
  reissue : Option Nat := none
  noTemp : Bool := false
  bringUp : Bool := true
  prev : Option Nat := none
  stack : Option (Nat × Nat) := none
  tgs : SMap TgSt := []
  deriving DecidableEq, Repr

/-! ### Fault records (12 R385) -/

/-- A fault record before its `TIME` and `SEQ` are put in. -/
structure FRec where
  cls : Nat
  sub : Nat := 0
  part : Option Nat := none
  fatal : Bool := false
  unit : Nat
  inst : Nat := 0
  addr : Dword := 0
  info : Nat := 0
  deriving DecidableEq, Repr

/-- A record on its way to a partition's fault ring (13 R406): partition, four words, and whether the record went to
the device fault queue as well; the tag of its request once it is sent, and whether that is the read-back. -/
structure RingWrite where
  part : Nat
  words : List Dword
  both : Bool
  tag : Option Nat := none
  back : Bool := false
  deriving DecidableEq, Repr

/-! ### Address translation (13) -/

/-- An entry of a vat TLB (13 R397): VA[47:25] of the page, whether it covers 1 GiB, the page's global address, `W`,
`TGT` and the reference bit. -/
structure TlbEnt where
  vpage : Nat
  big : Bool
  ga : Dword
  w : Bool
  tgt : Nat
  ref : Bool
  deriving DecidableEq, Repr

/-- A requester that waits for a walk (13 R400): agent, virtual address, write, and whether it is a prefetch. -/
structure WalkReq where
  src : Agent
  va : Nat
  write : Bool
  pref : Bool
  deriving DecidableEq, Repr

/-- How a walk ended (13 R393 to R404). -/
inductive WalkRes where
  /-- A page: size, global address, `W`, `TGT`. -/
  | page (big : Bool) (ga : Dword) (w : Bool) (tgt : Nat)
  /-- A page fault with the reason of R403. -/
  | fault (reason : Nat)
  /-- Refused: `XLT_DENY` with its `SUB`. -/
  | deny (sub : Nat)
  /-- A table read error: `XLT_WALK_UE` with its `SUB`. -/
  | ue (sub : Nat)
  deriving DecidableEq, Repr

/-- Where a walk stands (13 R400). -/
inductive WalkStage where
  | queued
  | readL1
  | readL2 (tbl : Nat)
  | done (r : WalkRes)
  deriving DecidableEq, Repr

/-- A walk (13 R400): the vat that asked first, the partition, VA[47:25], the requests merged into it, its stage, the
walker that runs it, the tag of its table read, and the address of the L2 entry it read (R408). -/
structure Walk where
  vat : Nat
  part : Nat
  vpage : Nat
  reqs : List WalkReq
  stage : WalkStage := .queued
  walker : Nat := 0
  tag : Nat := 0
  l2 : Nat := 0
  deriving DecidableEq, Repr

/-- A page that waits for the migration engine (13 R408): partition, VA[47:25], the address of its L2 entry, and the
entry that the walk read. -/
structure MigPage where
  part : Nat
  vpage : Nat
  l2 : Nat
  entry : Dword
  deriving DecidableEq, Repr

/-- A request of a vat that a shootdown waits for (13 R410 phase 4): a far store or zero-fill of a core by its tag, a
blocking request of a core by its address and time, a prefetch, a ladle's request by its tag, a churn program's by the
instructions run, a result write, a speculation unit's write by its tag. -/
inductive ReqId where
  | store (c tag : Nat)
  | load (c fa time : Nat)
  | pref (c line time : Nat)
  | ladle (v l tag : Nat)
  | churn (v count : Nat)
  | red (v e l va : Nat)
  | spec (v tag : Nat)
  deriving DecidableEq, Repr

/-! ### Decyth lanes (14) -/

/-- A lane beside its registers: the offset values in use and whether their calibration runs (R436); where the receiver
hunts, its run of valid headers, and which of the last 64 headers were invalid (R429); the blocks since the last first
block, the first blocks found at their spacing, the boundaries in a row that lost their control block, and whether the
last boundary's header was invalid (R426, R430); the blocks in the elastic buffer (R427); the frames without error in
`LOCK` (R432); the 1 ms period of the uncorrectable frames and their count (R422); whether a marker with `READY` came
(R433); the last capability record and how often in a row it came (R434); the `ENTER` received, true for shallow (R439);
`LOGN` of the scan that runs (R440); the frames sent since the last filler (R424); the last level sent, the length of
its run (R428), the levels of the last frame sent, and the place in the generator's pattern (R442); the units received
and not taken by the port, with their mark *bad* (R422), and the units given to the lane that its last frame had no room
for, with whether they are resent (R449). -/
structure LaneSt where
  trim : Nat := 0
  cal : Bool := false
  pos : Nat := 0
  hunt : Nat := 0
  inv : BitVec 64 := 0
  gap : Nat := 0
  firsts : Nat := 0
  miss : Nat := 0
  pend : Bool := false
  occ : Nat := 8
  good : Nat := 0
  uePeriod : Nat := 0
  ue : Nat := 0
  ready : Bool := false
  cap : Option (BitVec 128) := none
  capn : Nat := 0
  enter : Option Bool := none
  eye : Option Nat := none
  fills : Nat := 0
  level : BitVec 2 := 0
  run : Nat := 0
  tx : List (BitVec 2) := []
  pg : Nat := 0
  rxq : List (BitVec 257 × Bool) := []
  carry : List (BitVec 257 × Bool) := []
  deriving DecidableEq, Repr

/-! ### Decyth fabric (15) -/

/-- A packet: the fields of its header (15 R451) and its payload units. -/
structure Pkt where
  type : Nat
  vc : Nat
  dl : Nat := 0
  rt : Bool := false
  dst : Nat
  src : Nat
  spart : Nat
  npay : Nat := 0
  hops : Nat := 0
  txn : Nat := 0
  lseq : Nat := 0
  addr : Dword := 0
  arg : Dword := 0
  aop : Nat := 0
  /-- The reserved bits of the header. -/
  res : Nat := 0
  pay : List (BitVec 256) := []
  deriving DecidableEq, Repr

/-- A data unit of a port's replay buffer (15 R455): its bits, its pool, and, on the last unit of a packet, the packet's
`VC` and `LSEQ`. -/
structure DUnit where
  bits : BitVec 256
  pool : Nat
  last : Option (Nat × Nat)
  deriving DecidableEq, Repr

/-- A port beside its registers: returns to `DETECT` without `ACTIVE` (14 R432), its own `ENTER` sent, true for shallow
(14 R439), `MC_TSC` at the last refresh burst (14 R438), whether it trains on after it was `ACTIVE` (15 R459). Units to
send, each with whether it is resent; the lanes next in turn (R449). The next number to send, the replay buffer with the
oldest first, its timeouts without progress; the units sent and those freed in each pool, modulo 2^13 (R455, R456). The
next number to accept, the number of the next unit to arrive, whether units are discarded until a `REPLAY`; the units held and those freed in each pool; the units of a packet not yet complete. The
packets that wait for credit. The 1 ms periods and counts of quarantine events and of sequence errors (R478), the second
and count of retrains (R458). The lane masks of both directions, the mask proposed, the mask agreed, and whether `WSW`
was sent and taken (R460). -/
structure PortSt where
  tries : Nat := 0
  sent : Option Bool := none
  burst : Nat := 0
  retrain : Bool := false
  txq : List (BitVec 257 × Bool) := []
  txLane : Nat := 0
  rxLane : Nat := 0
  txSeq : Nat := 0
  replay : List DUnit := []
  stalls : Nat := 0
  used : List Nat := [0, 0, 0, 0, 0, 0]
  credit : List Nat := [0, 0, 0, 0, 0, 0]
  rxNext : Nat := 0
  rxSeq : Nat := 0
  discard : Bool := false
  held : List Nat := [0, 0, 0, 0, 0, 0]
  freed : List Nat := [0, 0, 0, 0, 0, 0]
  asm : List (BitVec 256) := []
  pkts : List Pkt := []
  viol : Nat × Nat := (0, 0)
  seqErr : Nat × Nat := (0, 0)
  flap : Nat × Nat := (0, 0)
  txMask : BitVec 8 := 0
  rxMask : BitVec 8 := 0
  prop : Option (BitVec 8) := none
  agreed : Option (BitVec 8) := none
  wswSent : Bool := false
  wswTaken : Bool := false
  deriving DecidableEq, Repr

/-- A link (15 R462 to R464): the next `LSEQ` of each `VC`, the packets not fully acknowledged with their port, the
packets that wait for the window, the next `LSEQ` to deliver of each `VC`, and the packets that arrived with their
port. -/
structure LinkSt where
  next : List Nat := [0, 0, 0]
  unacked : List (Nat × Pkt) := []
  wait : List Pkt := []
  exp : List Nat := [0, 0, 0]
  rx : List (Nat × Pkt) := []
  deriving DecidableEq, Repr

/-- An outbound request slot (15 R465): the link's group, its `TXN`, the requester with its tag and address, whether a
register or memory was asked for, and `MC_TSC` when the request left. A message of a speculation unit has no requester. -/
structure FabSlot where
  grp : Nat
  txn : Nat
  src : Option (Agent × Nat)
  ga : Dword := 0
  reg : Bool := false
  time : Nat
  deriving DecidableEq, Repr

/-- A request of another device that was admitted (15 R471): its packet, the tags of its lines that are not served, and
whether one failed. -/
structure RemReq where
  pkt : Pkt
  tags : List Nat
  err : Bool := false
  deriving DecidableEq, Repr

/-! ### Face sites (16) -/

/-- A slice of a site (16 R486, R488): whether the guest's `CAP` was accepted, the next packet to accept, the number of
the next one to arrive, whether packets are discarded until a `REPLAY`; the next packet to send, the replay buffer with
the oldest first; the guest's `VC` 1 buffer with the beats sent to it and freed in it; the beats held and freed in `VC` 0
and in `VC` 2; the packets accepted in each; the responses that wait; the beats last driven. A packet is its beats' data. -/
structure SliceF where
  cap : Bool := false
  rxNext : Nat := 0
  rxSeq : Nat := 0
  discard : Bool := false
  txSeq : Nat := 0
  replay : List (List (BitVec 128)) := []
  depth : Nat := 0
  used : Nat := 0
  credit : Nat := 0
  held0 : Nat := 0
  held2 : Nat := 0
  freed0 : Nat := 0
  freed2 : Nat := 0
  q0 : List (List (BitVec 128)) := []
  q2 : List (List (BitVec 128)) := []
  resp : List (List (BitVec 128)) := []
  wire : List Beat := []
  deriving DecidableEq, Repr

/-- A request of a guest that is being served (16 R490, R491): its header, its slice, the model's tag of its first line,
the tags not answered, the lines read, and the first error's reason. -/
structure SiteReq where
  hdr : BitVec 128
  sl : Nat
  base : Nat
  left : List Nat
  data : List (Nat × Line) := []
  err : Nat := 0
  deriving DecidableEq, Repr

/-- A site beside its registers: failed tries to train, the 1 ms period and count of quarantine events (16 R500), the
requests that are being served and the model's next tag, its slices, and `MC_TSC` at the last retrim (16 R485). -/
structure SiteSt where
  tries : Nat := 0
  viol : Nat × Nat := (0, 0)
  reqs : List SiteReq := []
  next : Nat := 0
  slices : SMap SliceF := []
  retrim : Nat := 0
  deriving DecidableEq, Repr

/-! ### The host (16) -/

/-- An accepted item of a command ring that has not started (16 R506, R507): its handle and its eight words. -/
structure RingItem where
  handle : Nat
  words : List Dword
  deriving DecidableEq, Repr

/-- A completion record (16 R509): handle, status, opcode, `DETAIL`. -/
structure CqRec where
  handle : Nat
  status : Nat
  op : Nat
  detail : Nat
  deriving DecidableEq, Repr

/-- A command ring beside its registers: the words of the item in staging and whether a flush cut it; the items accepted
so far, modulo 2^26; the items that have not started, oldest first; the completion records that wait for `EN`; the records
written, modulo 2^32; the read-back that is outstanding: its tag, where it got one, and the records it covers. -/
structure RingSt where
  stg : List Dword := []
  cut : Bool := false
  seq : Nat := 0
  items : List RingItem := []
  comps : List CqRec := []
  written : Nat := 0
  rb : Option (Option Nat × Nat) := none
  deriving DecidableEq, Repr

/-- An MSI-X vector (16 R504): address, data, mask, pending bit. -/
structure Msix where
  addr : Dword := 0
  data : Word := 0
  masked : Bool := true
  pend : Bool := false
  deriving DecidableEq, Repr

/-- What the endpoint answered the last request of the host (16 R503, R517, 19 R568). -/
inductive HostRsp where
  | none
  | data (d : Dword)
  | written
  | completerAbort
  | unsupported
  | dropped
  | success
  | requestRetry
  deriving DecidableEq, Repr

/-! ### Interrupts (17) -/

/-- A target of the device interrupt controller in a class (17 R531, R532): the sources counted since the last delivery,
those of them that it still sees, `MC_TSC` when the timer started, and whether its line is asserted. -/
structure DicTgt where
  counted : List Nat := []
  live : List Nat := []
  timer : Option Nat := none
  line : Bool := false
  deriving DecidableEq, Repr

/-! ### Power (18) -/

/-- The voltage loop of a vat beside its registers (18 R548, R542): the die cap and the current cap in force, whether the
die maximum cap is, `MC_TSC` at the last fault of its regulator, and whether a second fault within a second holds it. -/
structure VatPow where
  dieCap : Option Nat := none
  dieMax : Bool := false
  curCap : Option Nat := none
  faultT : Option Nat := none
  dead : Bool := false
  deriving DecidableEq, Repr

/-- The supplies of the device (18 R551, R553, 22 R647, R648): the auxiliary supply, `PWR_OK`, the latch of the trip, a
fault of a regulator that `ALERT_N` still shows, power above its limit that it still shows, the cause of the start that
waits to run, the keep entries that the start marks `LOST`, whether the retention rail was absent, whether the start records a
trip, and whether `REFCLK_SYS` is lost (22 R650). -/
structure SupplySt where
  aux : Bool := false
  pwrOk : Bool := false
  tripped : Bool := false
  above : Bool := false
  due : Option Nat := none
  lost : List Nat := []
  noVret : Bool := false
  tripRec : Bool := false
  refLost : Bool := false
  deriving DecidableEq, Repr

/-! ### MRAM (16 R514, 19 R570, R573) -/

/-- An entry of the keep table (16 R514): a crock region, or a cellar region with its position. -/
structure KeepEnt where
  cellar : Bool
  part : Nat
  encrypt : Bool := false
  shared : Bool := false
  lost : Bool := false
  active : Bool := true
  imode : Nat := 0
  vat : Nat := 0
  crock : Nat := 0
  pos : Nat := 0
  base : Nat
  size : Nat
  tag : Dword := 0
  seq : Dword := 0
  deriving DecidableEq, Repr

/-- An image-signing key slot (21 R621): 0 `EMPTY`, 1 `ACTIVE`, 2 `REVOKED`; its public keys, ECDSA P-384 and ML-DSA-87. -/
structure RindSlot where
  state : Nat := 0
  ec : List Byte := []
  ml : List Byte := []
  deriving DecidableEq, Repr

/-- What MRAM holds beside the journal and the keep table: the boot control record, the cellar rate of the last full
image applied (0 for none), the starts in a row that the boot watchdog caused, the calibration values of lanes (keyed
8 × port + lane) (14 R436), the version of the sequencer code (14 R448), the firmware banks (19 R573), and the Rind's area
(21 R621): slots, owner record, and the wrapped partition keys, each with the `SEQUENCE` of the image that created it. -/
structure Mram where
  active : Nat := 0
  trial : Bool := false
  attempts : Nat := 0
  autoload : Bool := false
  celRate : Nat := 0
  wdStarts : Nat := 0
  laneCal : List (Nat × Nat) := []
  seqVer : Nat := 0
  bankA : List Byte := []
  bankB : List Byte := []
  slots : SMap RindSlot := []
  claimed : Bool := false
  minSeq : Dword := 0
  minSvn : Nat := 0
  wrapped : List (Nat × Dword) := []
  deriving DecidableEq, Repr

/-! ### Twin pairs (20) -/

/-- An entry of the delay ring (20 R599): whether its record is this device's own, and the record of R598. -/
structure TwinEnt where
  own : Bool
  word : BitVec 124
  deriving DecidableEq, Repr

/-- A synchronisation that runs (20 R606, R607): its part and `NOCOPY`, the writes that are not
acknowledged, whether one failed, the bytes copied, and who has sent `SYNC_DONE`. -/
structure TwinSync where
  sink : Bool
  nocopy : Bool
  left : Nat := 0
  bad : Bool := false
  bytes : Nat := 0
  ownDone : Bool := false
  peerDone : Bool := false
  deriving DecidableEq, Repr

/-! ### The Rind (21) -/

/-! ### Sideband and test (22) -/

/-- What stands between `TDI` and `TDO` (22 R656). -/
inductive JtagPath where
  | bypass
  | idcode
  | boundary (extest : Bool)
  | face (n : Nat)
  | wrapper
  | network
  | debug
  deriving DecidableEq, Repr

/-- What a sideband target answered last (22 R654): data, an acknowledgement, or none. -/
inductive SbRsp where
  | none
  | data (d : Dword)
  | ack
  | nak
  deriving DecidableEq, Repr

/-- Why the machine stops. The spec gives every event an effect on the state, so no meaning of this block faults. -/
inductive Fault where
  /-- Raised by no meaning: no behaviour of this block stops the model. Safe. -/
  | none
  deriving DecidableEq, Repr

/-- Why a command has no meaning here. -/
inductive Refusal where
  /-- The command has no meaning yet. Raised by its arm of the dispatch only. Safe. -/
  | notModelled (mnemonic : String)
  deriving DecidableEq, Repr

/-- The state of the block. -/
structure State where
  /-- The commands that wait, first in first out. -/
  pending : List Instr := []
  /-- The registers that differ from their reset values, keyed by register-space offset (01 R40). -/
  regs : SMap Dword := []
  /-- Memory by device physical address (01 R35): bytes that are not zero. -/
  mem : List Host.Cell := []
  /-- The model's own counter of free values drawn so far (DESIGN CHOICE, log 3). -/
  free : Nat := 0
  /-- Each vat's copy of `MC_TSC` as last read (02 R56). -/
  tscCopy : SMap Nat := []
  /-- The messages that have been sent inside the device or out of it and have not been delivered. -/
  net : List Msg := []
  /-- Pool instances that were re-based while an audit runs (02 R63). -/
  rebased : List (Nat × Nat) := []
  /-- The audit that runs. -/
  audit : Option Audit := none
  /-- Late replies discarded (02 R55). -/
  late : Nat := 0
  /-- What the management core's last access to register space was answered (00 R13). -/
  mgmtRsp : Option Reply := none
  /-- The pool of a self-test that the next audit carries (02 R66). -/
  ledgerTest : Option Nat := none
  /-- The running images. -/
  img : Image := {}
  /-- The partition in phases 4 to 8 of a warm reload (03 R99). -/
  reloading : Option Nat := none
  /-- The operation that the management core runs, and those that wait (03 R94). -/
  mcRun : Option McOp := none
  mcQueue : List McOp := []
  /-- The logical cores, by core ID. -/
  cores : SMap CoreSt := []
  /-- The streams of signed events, keyed 256 × vat + stream. -/
  streams : SMap Stream := []
  /-- Streams whose source waits for the acceptance of a record (20 R598). -/
  twinWait : List Nat := []
  /-- The churns, by vat. -/
  churns : SMap ChurnSt := []
  /-- Reduction lanes, keyed (64 × vat + entry) × 16 + lane. -/
  redLanes : SMap RedLane := []
  /-- Registrations not answered yet, in the order they were sent: vat, tally, waiter (06 R203, R204). -/
  regQueue : List (Nat × Nat × Waiter) := []
  /-- Task slots, keyed 256 × vat + slot. -/
  tasks : SMap TaskSt := []
  /-- The slot last dispatched to a target, keyed 64 × vat + k (06 R197). -/
  lastDisp : SMap Nat := []
  /-- The ladles, keyed 4 × vat + ladle. -/
  ladles : SMap LadleSt := []
  /-- Reduction slots, keyed 8 × physical core location + slot (07 R247). -/
  slots : SMap (Option RedSlot) := []
  /-- Credits that are held or in flight, keyed (65,536 × pool + instance) × 4 + virtual channel (07 R252). -/
  credOut : SMap Nat := []
  /-- Pool instances that the ledger excludes (02 R62). -/
  excluded : List (Nat × Nat) := []
  /-- The speculation units, by anchor vat. -/
  specs : SMap SpecSt := []
  /-- The Cream slices, by vat. -/
  slices : SMap SliceSt := []
  /-- Requests in the memory controllers, in the order they reached them (10 R326, 11 R348). -/
  memq : List MemReq := []
  /-- Outstanding reads of host memory. -/
  hostRds : List HostRd := []
  /-- The crock channels. -/
  crks : SMap CrkCh := []
  /-- The valid bits of the crock range (12 R375): bit i of entry n belongs to the line 512 n + i of the range. -/
  valid : SMap (BitVec 512) := []
  /-- The cellar positions. -/
  cels : SMap CelSt := []
  /-- The count of records offered to the device fault queue, modulo 2^32 (12 R385). -/
  fqSeq : Nat := 0
  /-- Records being written to fault rings, oldest first (13 R406). -/
  ringWrites : List RingWrite := []
  /-- Vat TLB entries, keyed 256 × vat + index (13 R397). -/
  tlb : SMap TlbEnt := []
  /-- Micro-TLBs, keyed 4 × vat + ladle: indices of vat TLB entries, oldest first (13 R398). -/
  micro : SMap (List Nat) := []
  /-- The walk queue and the walks that walkers run (13 R400). -/
  walks : List Walk := []
  /-- Requesters whose translation waits for a place in the walk queue (13 R400). -/
  xltRetry : List Agent := []
  /-- The next tag of the walkers' and the fault rings' requests, the model's own. -/
  xtag : Nat := 0
  /-- Pages that wait for migration, in arrival order, and the copy that runs with its frame (13 R408). -/
  migq : List MigPage := []
  mig : Option (MigPage × Nat) := none
  /-- The shootdown that runs (13 R410): each vat that has not drained, with its requests from before its cut. -/
  shoot : List (Nat × List ReqId) := []
  /-- The lanes, keyed 8 × port + lane. -/
  lanes : SMap LaneSt := []
  /-- The lane-group references that are present (14 R416). -/
  refs : BitVec 4 := 0
  /-- The Decyth ports. -/
  ports : SMap PortSt := []
  /-- The links, keyed by bond group, or 256 + port for a port without one. -/
  links : SMap LinkSt := []
  /-- Outbound request slots of the links. -/
  fabSlots : List FabSlot := []
  /-- Requests that wait for a slot: the packet, its requester and tag, its address, whether it asks for a register. -/
  fabWait : List (Pkt × Option (Agent × Nat) × Dword × Bool) := []
  /-- Requests from other devices that links delivered and that are not decided, with the port they came by. -/
  remq : List (Nat × Pkt) := []
  /-- Requests from other devices that are being served. -/
  remote : List RemReq := []
  /-- The next tag of such a request, the model's own. -/
  remTag : Nat := 0
  /-- The face sites. -/
  sites : SMap SiteSt := []
  /-- The reason of R453 of a bus error on its way to a face site, by the tag of the request. -/
  reasons : List (Agent × Nat × Nat) := []
  /-- The command rings. -/
  rings : SMap RingSt := []
  /-- The MSI-X vectors. -/
  msix : SMap Msix := []
  /-- What the endpoint answered last. -/
  hostRsp : HostRsp := .none
  /-- The targets of the interrupt controller, keyed 2 × target + class. -/
  dic : SMap DicTgt := []
  /-- The vats' voltage loops. -/
  pow : SMap VatPow := []
  /-- Requests that wait for the end of a domain's transition (18 R542): 1 `OFF`, 2 `ON`; 3 an image apply. -/
  domReq : SMap Nat := []
  /-- Domains whose ports or sites start when they are `ON`: an image apply gave them work (14 R432, 16 R494). -/
  domStart : List Nat := []
  /-- The supplies. -/
  sup : SupplySt := {}
  /-- The keep table by entry number (16 R514). -/
  keep : List (Nat × KeepEnt) := []
  /-- The rest of MRAM (19 R573). -/
  mram : Mram := {}
  /-- A topology check runs (19 R586). -/
  topoRun : Bool := false
  /-- The duration of phase 7 and of the whole start, of a start that still runs (19 R591). -/
  startEnd : Option (Word × Word) := none
  /-- The delay ring of a twin, and the entry to allocate next (20 R599). -/
  twinRing : SMap (Option TwinEnt) := []
  twinNext : Nat := 0
  /-- The partner's records, notices and sync writes that have arrived, with their ports; a record says whether it is the
  last of its packet (20 R599, R609). -/
  twinIn : List (Nat × BitVec 124 × Bool) := []
  twinNotes : List (Nat × Nat) := []
  twinWr : List (Nat × Pkt) := []
  /-- The bit of the next injected test (20 R601). -/
  twinBit : Nat := 0
  /-- The partner's `DIR` and `NOCOPY`, from its `SYNC_READY`, and `MC_TSC` when it came (20 R606). -/
  twinPeer : Option (Bool × Bool × Nat) := none
  twinSync : Option TwinSync := none
  /-- A `GO` has been written and its block is not yet served (21 R628). -/
  rindWait : Bool := false
  /-- Requests to the DRBG since it was seeded (21 R617). -/
  drbg : Nat := 0
  /-- The configuration digest (21 R634). -/
  cfgDigest : BitVec 384 := 0
  /-- The path that the JTAG instruction selects (22 R656). -/
  jtag : JtagPath := .idcode
  /-- What the JTAG data register captures: the identification, or 0. -/
  jtagDr : Word := 0x1409656F
  /-- What a sideband target answered last. -/
  sbRsp : SbRsp := .none
  deriving DecidableEq, Repr

/-- The device right after reset: every register at the reset value of its table, memory with nothing listed, no
command waiting (log 4). -/
def State.reset : State := {}

end Sys2Proof.Machine
end

