-- ==== Sys2Proof/Machine/Ops.lean ====
section
/-! DEFINITION. The named operations that the meanings share: registers and their fields, counters, cores, vat
events, device interrupt latches, and the identities of units. -/

namespace Sys2Proof.Machine

open Sys2Proof

/-! ### Registers -/

/-- The register-space offset of an instance (01 R40). -/
def Reg.addr (r : Reg) (i : Nat := 0) (j : Nat := 0) (k : Nat := 0) : Nat :=
  match r.dims with
  | [] => r.base
  | [(a, _)] => r.base + a * i
  | [(a, _), (b, _)] => r.base + a * i + b * j
  | (a, _) :: (b, _) :: (c, _) :: _ => r.base + a * i + b * j + c * k

/-- The value of a register. The map holds each value's difference from its reset value, so that an unlisted register
reads as reset. -/
def State.reg (s : State) (r : Reg) (i : Nat := 0) (j : Nat := 0) (k : Nat := 0) : Dword :=
  smGet 0 s.regs (r.addr i j k) ^^^ BitVec.ofNat 64 r.reset

/-- Set a register. -/
def State.setReg (s : State) (r : Reg) (x : Dword) (i : Nat := 0) (j : Nat := 0) (k : Nat := 0) : State :=
  { s with regs := smSet 0 s.regs (r.addr i j k) (x ^^^ BitVec.ofNat 64 r.reset) }

/-- Put `x` into bits [lo + w − 1 : lo] of a word. -/
def putBits (d : Dword) (lo w x : Nat) : Dword :=
  let m : Dword := (BitVec.ofNat 64 (2 ^ w - 1)) <<< lo
  (d &&& ~~~m) ||| ((BitVec.ofNat 64 (x % 2 ^ w)) <<< lo)

/-- The value of a field. -/
def State.fld (s : State) (f : Fld) (i : Nat := 0) (j : Nat := 0) (k : Nat := 0) : Nat :=
  bvBits (s.reg f.reg i j k) f.lo f.width

/-- Is a one-bit field set? -/
def State.bit (s : State) (f : Fld) (i : Nat := 0) (j : Nat := 0) (k : Nat := 0) : Bool := s.fld f i j k ≠ 0

/-- Set a field. -/
def State.setFld (s : State) (f : Fld) (x : Nat) (i : Nat := 0) (j : Nat := 0) (k : Nat := 0) : State :=
  s.setReg f.reg (putBits (s.reg f.reg i j k) f.lo f.width x) i j k

/-- Add to a count that stays at its largest value (12 R391). -/
def State.bumpErr (s : State) (f : Fld) (i : Nat := 0) (j : Nat := 0) (k : Nat := 0) (n : Nat := 1) : State :=
  s.setFld f (min (s.fld f i j k + n) (2 ^ f.width - 1)) i j k

/-- Write a field only when a condition holds. -/
def State.when (s : State) (c : Bool) (f : State → State) : State := if c then f s else s

/-- A draw of a free value (log 3): the counter advances, the value is a constant of `Config` applied to the old one. -/
def State.drawn (s : State) : State := { s with free := s.free + 1 }

/-! ### Messages -/

/-- The device's own ID (01 R32). -/
def State.devId (s : State) : Nat := s.fld MC_IMG_ID.DEV_ID

/-- Is this device the follower of a twin, whose work outside the device is dropped (20 R595)? -/
def State.twinMute (s : State) : Bool := s.fld TWIN_STAT.STATE ≠ 0 && !s.bit TWIN_STAT.LEADER

/-- Is a global address on another device or in host memory (01 R32, 20 R595)? A type 1 address of the own device is
local. -/
def State.offDevice (s : State) (ga : Dword) : Bool :=
  bvBits ga 62 2 = 2 || (bvBits ga 62 2 = 1 && bvBits ga 48 14 ≠ s.devId)

/-- Does a requester's work belong to a partition's vats, so that a twin signs it (20 R596)? -/
def agentInVat : Agent → Bool
  | .core _ | .ladle .. | .churn _ | .redEntry .. | .specUnit _ => true
  | _ => false

/-- Take a message out of flight when it arrives (log 7). -/
def State.recvMsg (s : State) (m : Msg) : State := { s with net := s.net.erase m }

/-! ### Cores -/

/-- The vat of a core (01 R24). -/
def vatOf (c : Nat) : Nat := c / 64
/-- The index k of a core in its vat. -/
def idxOf (c : Nat) : Nat := c % 64

/-- A core's state. -/
def State.core (s : State) (c : Nat) : CoreSt := smGet {} s.cores c

/-- Replace a core's state. -/
def State.setCore (s : State) (c : Nat) (x : CoreSt) : State := { s with cores := smSet {} s.cores c x }

/-- Change a core's state. -/
def State.updCore (s : State) (c : Nat) (f : CoreSt → CoreSt) : State := s.setCore c (f (s.core c))

/-- A scalar register; `s0` reads zero (04 R103). -/
def CoreSt.s (x : CoreSt) (r : BitVec 5) : Word := if r = 0 then 0 else smGet 0 x.sreg r.toNat

/-- Write a scalar register; a write to `s0` is discarded (04 R103). -/
def CoreSt.setS (x : CoreSt) (r : BitVec 5) (w : Word) : CoreSt :=
  if r = 0 then x else { x with sreg := smSet 0 x.sreg r.toNat w }

/-- A scalar pair `sn`, n even (04 R104). -/
def CoreSt.pair (x : CoreSt) (r : BitVec 5) : Dword :=
  BitVec.ofNat 64 ((x.s r).toNat + 2 ^ 32 * (x.s (r + 1)).toNat)

/-- Write a scalar pair. -/
def CoreSt.setPair (x : CoreSt) (r : BitVec 5) (w : Dword) : CoreSt :=
  (x.setS r (w.setWidth 32)).setS (r + 1) ((w >>> 32).setWidth 32)

/-- A vector register. -/
def CoreSt.v (x : CoreSt) (r : Nat) : Line := smGet 0 x.vreg r

/-- Write a vector register. -/
def CoreSt.setV (x : CoreSt) (r : Nat) (w : Line) : CoreSt := { x with vreg := smSet 0 x.vreg r w }

/-- A vector pair `vn` as 1,024 bits (04 R104). -/
def CoreSt.vpair (x : CoreSt) (r : Nat) : Nat := (x.v r).toNat + 2 ^ 512 * (x.v (r + 1)).toNat

/-- A predicate register; `p0` reads 0xFFFF (04 R103). -/
def CoreSt.p (x : CoreSt) (r : Nat) : BitVec 16 := if r = 0 then 0xFFFF else smGet 0 x.preg r

/-- Write a predicate register; a write to `p0` is discarded (04 R103). -/
def CoreSt.setP (x : CoreSt) (r : Nat) (w : BitVec 16) : CoreSt :=
  if r = 0 then x else { x with preg := smSet 0 x.preg r w }

/-- Lane i of accumulator set a. -/
def CoreSt.lane (x : CoreSt) (a i : Nat) : Lane := smGet {} x.acc (16 * a + i)

/-- Write lane i of accumulator set a. -/
def CoreSt.setLane (x : CoreSt) (a i : Nat) (l : Lane) : CoreSt := { x with acc := smSet {} x.acc (16 * a + i) l }

/-- The cluster kind of a core: 0 single, 1 press, 2 whisk (04 R121 `MEMBER`). -/
def CoreSt.kind (x : CoreSt) : Nat := bvBits x.member 2 2

/-- The member index of a core (04 R121 `MEMBER`). -/
def CoreSt.midx (x : CoreSt) : Nat := bvBits x.member 0 2

/-- The cores that the leader `c` drives, in member order (04 R120, 03 R82): the members of a press in rows (log 13). -/
def State.members (s : State) (c : Nat) : List Nat :=
  match (s.core c).kind with
  | 1 => [c, c + 1, c + 8, c + 9]
  | 2 => [c, c + 1]
  | _ => [c]

/-- The leader of the cluster of core `c` (04 R120). -/
def State.leader (s : State) (c : Nat) : Nat :=
  let x := s.core c
  match x.kind with
  | 1 => c - (if x.midx % 2 = 1 then 1 else 0) - (if x.midx / 2 = 1 then 8 else 0)
  | 2 => c - x.midx
  | _ => c

/-! ### Partitions (03 R68) -/

/-- The partition of a vat. -/
def State.partOf (s : State) (v : Nat) : Option Nat :=
  (s.img.parts.find? (fun e => e.2.vatMask.getLsbD v)).map Prod.fst

/-- The record of a partition. -/
def State.part (s : State) (p : Nat) : Option PartRec := (s.img.parts.find? (fun e => e.1 = p)).map Prod.snd

/-- Do two vats belong to one partition? -/
def State.samePart (s : State) (v w : Nat) : Bool := s.partOf v ≠ none && s.partOf v = s.partOf w

/-- Is the device fatal (12 R390)? -/
def State.fatal (s : State) : Bool := s.bit MC_ERR_STAT.FATAL

/-! ### Vat events (17 R521 to R523) -/

/-- Set a bit of a four-word register. -/
def State.setWordBit (s : State) (f : Fld) (i n : Nat) : State :=
  s.setFld f (s.fld f i (n / 64) ||| 2 ^ (n % 64)) i (n / 64)

/-- A bit of a four-word register. -/
def State.wordBit (s : State) (f : Fld) (i n : Nat) : Bool := (s.fld f i (n / 64)).testBit (n % 64)

/-- The fetch buffer's words (04 R109): the word at `PC` and its window, seen through the pending local stores of the
core (04 R110). -/
def csBase (c : Nat) : Nat := 0x420000000 + c * 0x10000

/-- One byte of a core store as its own core's later fetch sees it: pending stores have drained (04 R110). -/
def fetchByte (s : State) (x : CoreSt) (c a : Nat) : Nat :=
  let hit := x.sb.reverse.find? (fun e => !e.far && e.line = a / 64 && e.mask.getLsbD (a % 64))
  match hit with
  | some e => bvBits e.data (8 * (a % 64)) 8
  | none => (Memory.get s.mem (csBase c + a)).toNat

/-- The word at a core-store offset as fetch sees it. -/
def fetchWord (s : State) (c a : Nat) : Word :=
  let x := s.core c
  let b := fun k => fetchByte s x c ((a + k) % 65536)
  BitVec.ofNat 32 (b 0 + 2 ^ 8 * b 1 + 2 ^ 16 * b 2 + 2 ^ 24 * b 3)

/-- Does an armed injection hit the next access through this target of core `c` (12 R383)? The number of bits, or 0. -/
def State.injBits (s : State) (c target : Nat) : Nat :=
  if s.bit VAT_ECC_INJ.ARM (vatOf c) ∧ s.fld VAT_ECC_INJ.TARGET (vatOf c) = target
      ∧ (2 ≤ target ∨ s.fld VAT_ECC_INJ.CORE (vatOf c) = idxOf c) then
    s.fld VAT_ECC_INJ.BITS (vatOf c)
  else 0

/-- An access through an injection target: a single bit is corrected and counted in `corr`, two are uncorrectable and
counted in `VAT_ECC1.UNCORR`; the injection is used up (12 R383, R384). -/
def State.useInj (s : State) (v bits : Nat) (corr : Fld) : State :=
  if bits = 0 then s
  else
    let s := s.setFld VAT_ECC_INJ.ARM 0 v
    if bits = 1 then s.bumpErr corr v else s.bumpErr VAT_ECC1.UNCORR v

/-- Fetch one word: the word with its mark for an uncorrectable error, and the state after the access. -/
def State.fetch1 (s : State) (c a : Nat) : (Word × Bool) × State :=
  let b := s.injBits c 0
  ((fetchWord s c a, b = 2), s.useInj (vatOf c) b VAT_ECC0.CORR_CS)

/-- Refill the fetch buffer of a core from its `PC` (04 R109). -/
def State.refill (s : State) (c : Nat) : State :=
  let pc := (s.core c).pc.toNat
  let step := fun (acc : List (Word × Bool) × State) k =>
    let (w, s') := acc.2.fetch1 c ((pc + 4 * k) % 65536)
    (acc.1 ++ [w], s')
  let (ws, s') := [0, 1, 2, 3, 4].foldl step ([], s)
  s'.updCore c (fun x => { x with fbuf := ws })

/-- Move to the next word without a refill: the window slides by one and captures one word (04 R109, R110). -/
def State.advance (s : State) (c : Nat) : State :=
  let x := s.core c
  let pc := x.pc + 4
  let (w, s') := s.fetch1 c ((pc.toNat + 16) % 65536)
  s'.updCore c (fun x => { x with pc := pc, fbuf := x.fbuf.drop 1 ++ [w] })

/-- Set the state of a task slot (06 R193). -/
def State.setTask (s : State) (v slot st wait : Nat) : State :=
  (s.setFld VAT_TASK_CTL.STATE st v slot).setFld VAT_TASK_CTL.WAIT wait v slot

/-- Resume the suspended task of core `c` (06 R194). -/
def State.resumeTask (s : State) (c : Nat) : State :=
  let s := match (s.core c).task with
    | some t => s.setTask (vatOf c) t 3 0
    | none => s
  s.updCore c (fun x => { x with wait := none })

/-- Count a completed instruction (04 R141) without the overflow event. -/
def State.bumpRaw (s : State) (r : Reg) (i j k : Nat) : State × Bool :=
  let n := s.fld (pcCount r) i j k
  if n = 2 ^ 48 - 1 then ((s.setFld (pcCount r) 0 i j k).setFld (pcOvf r) 1 i j k, true)
  else (s.setFld (pcCount r) (n + 1) i j k, false)

/-- Set the event latch of core `c`'s leader; a task that waits in `WFE` resumes, which clears the latch, and the
`WFE` completes (17 R523). The flag says that the instruction counter wrapped. -/
def State.setEventLatch (s : State) (c : Nat) : State × Bool :=
  let l := s.leader c
  match (s.core l).wait with
  | some .wfe =>
    let (s, w) := s.bumpRaw VAT_CORE_PC_INSN (vatOf l) (idxOf l) 0
    (((s.updCore l (fun x => { x with evLatch := false })).resumeTask l).advance l, w)
  | _ => (s.updCore l (fun x => { x with evLatch := true }), false)

/-- One source of a vat's event unit: the pending bit is set, and on its rise the latch of the core that
`VAT_EV_WAKE` names (17 R521, R523). -/
def State.raiseOne (s : State) (v src : Nat) : State × Bool :=
  if s.wordBit VAT_EV_PEND.PEND v src then (s, false)
  else
    let s := s.setWordBit VAT_EV_PEND.PEND v src
    let wake := bvBits (s.reg VAT_EV_WAKE v (src / 8)) (8 * (src % 8)) 8
    if wake.testBit 7 then s.setEventLatch (64 * v + wake % 64) else (s, false)

/-- A source of a vat's event unit occurs (17 R521, R523). A counter that wraps as a waiting core resumes raises the
counter source in turn. -/
def State.raiseVat (s : State) (v src : Nat) : State :=
  let (s, w) := s.raiseOne v src
  if w then (s.raiseOne v 1).1 else s

/-- The summary of a vat (17 R523). -/
def State.vatSum (s : State) (v : Nat) : Bool :=
  [0, 1, 2, 3].any (fun w => s.fld VAT_EV_PEND.PEND v w &&& s.fld VAT_EV_EN.EN v w ≠ 0)

/-- Set the latch of a latched source of the interrupt controller (17 R524). -/
def State.dicLatch (s : State) (src : Nat) : State :=
  s.setFld DIC_LATCH.LATCH (s.fld DIC_LATCH.LATCH (src / 64) ||| 2 ^ (src % 64)) (src / 64)

/-- Add one to a performance counter of the layout of 04 R141. On a wrap `OVF` is set, and the counter source of the
vat (17 R521) or of the device (17 R524) occurs. -/
def State.bump (s : State) (r : Reg) (i : Nat := 0) (j : Nat := 0) (k : Nat := 0) : State :=
  let (s, wrapped) := s.bumpRaw r i j k
  if wrapped then (if 0x1000000 ≤ r.base then s.raiseVat i 1 else s.dicLatch 233) else s

/-- Add `n` to a performance counter. -/
def State.bumpN (s : State) (r : Reg) (n : Nat) (i : Nat := 0) (j : Nat := 0) (k : Nat := 0) : State :=
  let x := s.fld (pcCount r) i j k + n
  let s := s.setFld (pcCount r) (x % 2 ^ 48) i j k
  if 2 ^ 48 ≤ x then
    let s := s.setFld (pcOvf r) 1 i j k
    if 0x1000000 ≤ r.base then s.raiseVat i 1 else s.dicLatch 233
  else s

/-! ### Power domains -/

/-- Is a power domain `ON` (18 R541)? -/
def State.domOn (s : State) (d : Nat) : Bool := s.fld PWR_DOM_STAT.STATE d = 2

/-! ### Requesters -/

/-- A ladle. -/
def State.ladle (s : State) (v l : Nat) : LadleSt := smGet {} s.ladles (4 * v + l)

/-- A word of a descriptor. -/
def LItem.word (d : LItem) (i : Nat) : Dword := d.words.getD i 0

/-- `FLAGS` of a descriptor, and its `GLOBAL` (06 R214). -/
def LItem.flags (d : LItem) : Nat := bvBits (d.word 0) 8 8
def LItem.isGlobal (d : LItem) : Bool := d.flags.testBit 0

/-- The owner of a face site (03 R79). -/
def State.siteOwner (s : State) (n : Nat) : Option Nat :=
  match smFind s.img.faces n with
  | some f => if f.owner < 64 then some f.owner else none
  | none => none

/-- The partition of a requester: none for the management core, the host physical function and device-wide engines, and
for a ladle that runs a `GLOBAL` descriptor (06 R215). -/
def State.agentPart (s : State) (a : Agent) : Option Nat :=
  match a with
  | .core c => s.partOf (vatOf c)
  | .ladle v l => match (s.ladle v l).queue with
    | d :: _ => if d.isGlobal then none else s.partOf v
    | [] => s.partOf v
  | .churn v => s.partOf v
  | .redEntry v _ _ => s.partOf v
  | .specUnit v => s.partOf v
  | .vatUnit v => s.partOf v
  | .faultRing p => some p
  | .ring r => some r
  | .site n => s.siteOwner n
  | .fabric _ p => if p < 64 then some p else none
  | .walker k => (s.walks.find? (fun w => w.walker = k && (match w.stage with
      | .readL1 => true
      | .readL2 _ => true
      | _ => false))).map (fun w => w.part)
  | .migration => none
  | .host => none
  | .mgmt => none
  | .rind => none
  | .twin => none

/-- Does a requester's request carry `RT` (09 R309)? -/
def agentRt (a : Agent) : Bool :=
  match a with
  | .mgmt | .specUnit _ | .redEntry .. => true
  | _ => false

/-! ### Physical places -/

/-- The physical index of a logical core in its vat (03 R80): identity where no image gives a map. -/
def State.physIdx (s : State) (c : Nat) : Nat :=
  match smFind s.img.maps (vatOf c) with
  | some m => m.getD (idxOf c) (idxOf c)
  | none => idxOf c

/-- The physical core location of a logical core, `vat[5:0] prow[3:0] pcol[2:0]` (01 R25). -/
def State.physLoc (s : State) (c : Nat) : Nat :=
  let v := vatOf c
  v * 128 + s.physIdx c

end Sys2Proof.Machine
end

