-- ==== Sys2Proof/Machine/Link.lean ====
section
/-! DEFINITION. Sending: packets of the fabric, links and routes, request slots, the credits and replay buffer of a port
(15 R449 to R470), and the one operation that sends a message of any kind. -/

namespace Sys2Proof.Machine

open Sys2Proof

/-! ### Ports and lanes -/

/-- A port. -/
def State.port (s : State) (p : Nat) : PortSt := smGet {} s.ports p

/-- Replace a port. -/
def State.setPort (s : State) (p : Nat) (x : PortSt) : State := { s with ports := smSet {} s.ports p x }

/-- A lane of a port. -/
def State.ln (s : State) (p j : Nat) : LaneSt := smGet {} s.lanes (8 * p + j)

/-- Replace a lane. -/
def State.setLn (s : State) (p j : Nat) (x : LaneSt) : State := { s with lanes := smSet {} s.lanes (8 * p + j) x }

/-- A link. -/
def State.link (s : State) (g : Nat) : LinkSt := smGet {} s.links g

/-- Replace a link. -/
def State.setLink (s : State) (g : Nat) (x : LinkSt) : State := { s with links := smSet {} s.links g x }

/-- The record of a port (03 R89). -/
def State.portRec (s : State) (p : Nat) : PortRec := (smFind s.img.ports p).getD {}

/-- The group of the twin ports, which form one link (20 R594). -/
def twinGrp : Nat := 512

/-- The group of ports that a port's link is made of (15 R462, 20 R594). -/
def State.portGrp (s : State) (p : Nat) : Nat :=
  let r := s.portRec p
  if r.use = 2 then twinGrp else if r.bond = 255 then 256 + p else r.bond

/-- Is a port usable (15 R462)? -/
def State.usable (s : State) (p : Nat) : Bool := s.fld LNK_FAB_STAT.STATE p = 1

/-- The usable ports of a group. -/
def State.linkPorts (s : State) (g : Nat) : List Nat :=
  (List.range 48).filter (fun p => s.usable p && s.portGrp p = g && (s.portRec p).use ≠ 0)

/-- The state of a port (14 R431). -/
def State.portState (s : State) (p : Nat) : Nat := s.fld LNK_STAT.STATE p

/-- The lock bits of a port's lanes clear, with what found them. -/
def State.unlock (s : State) (p : Nat) : State :=
  (List.range 8).foldl (fun s j =>
    let x := s.ln p j
    let s := s.setLn p j { x with hunt := 0, inv := 0, gap := 0, firsts := 0, miss := 0, pend := false, good := 0, enter := none }
    (s.setFld LNK_LN_STAT.BLOCK_LOCK 0 p j).setFld LNK_LN_STAT.FRAME_LOCK 0 p j) s

/-- An end wakes from a low-power state (14 R439). -/
def State.portWake (s : State) (p : Nat) : State :=
  if s.portState p = 7 ∨ s.portState p = 8 then
    let s := s.setPort p { s.port p with sent := none }
    (s.unlock p).setFld LNK_STAT.STATE 9 p
  else s

/-! ### Packets (15 R451, R452) -/

/-- The reserved bits of a header. -/
def pktReserved : BitVec 256 :=
  BitVec.ofNat 256 (2 ^ 47 + (2 ^ 12 - 1) * 2 ^ 84 + (2 ^ 24 - 1) * 2 ^ 232)

/-- The header unit of a packet. -/
def Pkt.header (k : Pkt) : BitVec 256 :=
  BitVec.ofNat 256 (k.type % 16 + k.vc % 4 * 2 ^ 4 + k.dl % 2 * 2 ^ 6 + k.rt.toNat * 2 ^ 7 + k.dst % 2 ^ 14 * 2 ^ 8
    + k.src % 2 ^ 14 * 2 ^ 22 + k.spart % 128 * 2 ^ 36 + k.npay % 16 * 2 ^ 43 + k.hops % 256 * 2 ^ 48
    + k.txn % 2 ^ 16 * 2 ^ 56 + k.lseq % 4096 * 2 ^ 72 + k.addr.toNat * 2 ^ 96 + k.arg.toNat * 2 ^ 160
    + k.aop % 256 * 2 ^ 224) ||| (BitVec.ofNat 256 k.res &&& pktReserved)

/-- The packet of a header unit, without its payload. -/
def pktOf (h : BitVec 256) : Pkt :=
  let f := fun lo n => bvBits h lo n
  { type := f 0 4, vc := f 4 2, dl := f 6 1, rt := h.getLsbD 7, dst := f 8 14, src := f 22 14, spart := f 36 7
    npay := f 43 4, hops := f 48 8, txn := f 56 16, lseq := f 72 12, addr := BitVec.ofNat 64 (f 96 64)
    arg := BitVec.ofNat 64 (f 160 64), aop := f 224 8, res := (h &&& pktReserved).toNat }

/-- The payload units of `n` bytes of data. -/
def payUnits (n d : Nat) : List (BitVec 256) :=
  (List.range ((n + 31) / 32)).map (fun i => BitVec.ofNat 256 (d / 2 ^ (256 * i)))

/-- The pool of a packet (15 R454). -/
def Pkt.pool (k : Pkt) : Nat := 2 * k.vc + k.dl

/-- Is a packet a request, which is answered? -/
def Pkt.isReq (k : Pkt) : Bool := k.type = 1 || k.type = 2 || k.type = 3 || k.type = 9

/-! ### Credits and the replay buffer (15 R455, R456) -/

/-- The credits that a port holds in a pool. -/
def PortSt.credits (x : PortSt) (pool : Nat) : Nat :=
  1024 - (x.used.getD pool 0 + 8192 - x.credit.getD pool 0) % 8192

/-- Put a packet's units into the unit stream. -/
def PortSt.push (x : PortSt) (k : Pkt) : PortSt :=
  let us := k.header :: k.pay
  let n := us.length
  let ds := (us.zip (List.range n)).map (fun (u, i) => (⟨u, k.pool, if i + 1 = n then some (k.vc, k.lseq) else none⟩ : DUnit))
  { x with
    txq := x.txq ++ us.map (fun u => (u.setWidth 257, false))
    replay := x.replay ++ ds
    txSeq := (x.txSeq + n) % 65536
    used := x.used.set k.pool ((x.used.getD k.pool 0 + n) % 8192) }

/-- Put packets into the unit stream while credits and room in the replay buffer last; a pool that waits holds back its
own packets only. The answer adds the packets that wait. -/
def PortSt.pumpGo : List Pkt → List Nat → PortSt → List Pkt → PortSt
  | [], _, x, kept => { x with pkts := kept }
  | k :: ks, stop, x, kept =>
    let n := 1 + k.pay.length
    if stop.contains k.pool ∨ x.credits k.pool < n ∨ 8192 < x.replay.length + n then
      PortSt.pumpGo ks (k.pool :: stop) x (kept ++ [k])
    else PortSt.pumpGo ks stop (x.push k) kept

/-- A port sends what it can; one in a low-power state wakes for it (14 R439). -/
def State.portPump (s : State) (p : Nat) : State :=
  let x := s.port p
  let s := s.setPort p (PortSt.pumpGo x.pkts [] x [])
  if (s.port p).txq = [] then s else s.portWake p

/-! ### Links (15 R462, R463) -/

/-- The units of a port that are not acknowledged. -/
def PortSt.open (x : PortSt) : Nat := x.replay.length + x.pkts.foldl (fun a k => a + 1 + k.pay.length) 0

/-- The usable port of a group with the fewest unacknowledged units, the lowest in a tie. -/
def State.linkPort (s : State) (g : Nat) : Option Nat :=
  (s.linkPorts g).foldl (fun best p => match best with
    | none => some p
    | some b => if (s.port p).open < (s.port b).open then some p else some b) none

/-- The coordinate and the extent of this device in a dimension, and its dimension and direction for a port (15 R469). -/
def State.portDim (s : State) (p : Nat) : Option (Nat × Bool) :=
  match s.fld MC_FAB_TOPO.TOPO with
  | 1 => some (0, p < 24)
  | 2 => some (p / 12 / 2, p / 12 % 2 = 0)
  | 3 => some (p / 8 / 2, p / 8 % 2 = 0)
  | _ => none
def State.dimSize (s : State) (d : Nat) : Nat × Nat :=
  match d with
  | 0 => (s.fld MC_FAB_COORD.X, s.fld MC_FAB_TOPO.DIM_X)
  | 1 => (s.fld MC_FAB_COORD.Y, s.fld MC_FAB_TOPO.DIM_Y)
  | _ => (s.fld MC_FAB_COORD.Z, s.fld MC_FAB_TOPO.DIM_Z)

/-- The dateline class of a packet that leaves by port `out`, having come by `inp` or from here (15 R470). -/
def State.hopDl (s : State) (k : Pkt) (inp : Option Nat) (out : Nat) : Nat :=
  match s.portDim out with
  | none => 0
  | some (d, plus) =>
    let dl := match inp.bind s.portDim with
      | some (e, _) => if e = d then k.dl else 0
      | none => 0
    let (x, n) := s.dimSize d
    if (plus ∧ x + 1 = n) ∨ (!plus ∧ x = 0) then 1 else dl

/-- Give a packet of a link its number and its port (15 R463). -/
def State.linkPut (s : State) (g : Nat) (k : Pkt) : State :=
  match s.linkPort g with
  | none => s
  | some p =>
    let x := s.link g
    let n := x.next.getD k.vc 0
    let k := { k with lseq := n }
    let s := s.setLink g { x with next := x.next.set k.vc ((n + 1) % 4096), unacked := x.unacked ++ [(p, k)] }
    let s := s.setPort p { s.port p with pkts := (s.port p).pkts ++ [k] }
    let s := if k.type = 7 ∧ k.src = s.devId then s.bump LNK_FAB_PC_ERRRSP p else s
    s.portPump p

/-- Send the packets that wait for the window of 1,024 in their `VC`. -/
def State.linkPump (s : State) (g : Nat) : State :=
  let w := (s.link g).wait
  w.foldl (fun s k =>
    if ((s.link g).unacked.filter (fun e => e.2.vc = k.vc)).length < 1024 then s.linkPut g k
    else s.setLink g { s.link g with wait := (s.link g).wait ++ [k] }) (s.setLink g { s.link g with wait := [] })

/-! ### Routes (15 R467) -/

/-- `mix` (15 R467). -/
def fabMix (k l : Dword) : Dword :=
  let h := (k ^^^ (l * 0x9E3779B97F4A7C15)) * 0xBF58476D1CE4E5B9
  h ^^^ (h >>> 31)

/-- The flow of a packet (15 R467). -/
def Pkt.flow (k : Pkt) : Dword :=
  let ends : Dword := (BitVec.ofNat 64 k.src <<< 50) ^^^ (BitVec.ofNat 64 k.dst <<< 36)
  ends ^^^ (match k.type with
    | 1 => BitVec.ofNat 64 (bvBits k.addr 6 42)
    | 2 => BitVec.ofNat 64 (bvBits k.addr 6 42)
    | 3 => BitVec.ofNat 64 (bvBits k.addr 6 42)
    | 8 => BitVec.ofNat 64 (bvBits (k.pay.headD 0) 0 16 * 16 + bvBits (k.pay.headD 0) 16 4)
    | _ => BitVec.ofNat 64 k.txn)

/-- The name of the link of a usable port: the lowest port ID in it (15 R462). -/
def State.linkName (s : State) (p : Nat) : Nat := (s.linkPorts (s.portGrp p)).headD p

/-- `choose_link` (15 R467): the name of the link, or no route. -/
def State.chooseLink (s : State) (k : Pkt) : Option Nat :=
  if !s.bit MC_FAB_RT.VALID k.dst then none
  else
    let m := s.fld MC_FAB_RT.PORT_MASK k.dst
    let cand := ((List.range 48).filter (fun p => m.testBit p && s.usable p && (s.portRec p).use = 1)).map s.linkName
    cand.foldl (fun best l => match best with
      | none => some l
      | some b => if (fabMix k.flow (BitVec.ofNat 64 b)).toNat < (fabMix k.flow (BitVec.ofNat 64 l)).toNat then some l
        else some b) none

/-- Send a packet on its link; none where it has no route. -/
def State.linkSend (s : State) (k : Pkt) (inp : Option Nat) : Option State :=
  (s.chooseLink k).map (fun l =>
    let g := s.portGrp l
    let k := { k with dl := s.hopDl k inp l }
    (s.setLink g { s.link g with wait := (s.link g).wait ++ [k] }).linkPump g)

/-- Send a packet to the partner of a twin (20 R609); it is lost where no twin port is usable. -/
def State.twinSend (s : State) (k : Pkt) : State :=
  if s.linkPorts twinGrp = [] then s
  else (s.setLink twinGrp { s.link twinGrp with wait := (s.link twinGrp).wait ++ [k] }).linkPump twinGrp

/-- The partner of a twin. -/
def State.twinPartner (s : State) : Nat := (s.img.twin.map Prod.fst).getD 0

/-- A packet to the partner (20 R609). -/
def State.twinPkt (s : State) (type vc : Nat) : Pkt :=
  { type := type, vc := vc, dst := s.twinPartner, src := s.devId, spart := 0x40 }

/-- Send a notice (20 R603, R609). -/
def State.twinNotice (s : State) (code : Nat) : State :=
  s.twinSend { s.twinPkt 0xB 0 with arg := BitVec.ofNat 64 code }

/-- Send a packet, or drop it. -/
def State.linkSendOr (s : State) (k : Pkt) (inp : Option Nat) : State := (s.linkSend k inp).getD s

/-! ### Requests to other devices (15 R465) -/

/-- The lowest transaction tag that no slot uses (log 18). -/
def freeTxn (used : List Nat) : Nat → Nat → Nat
  | 0, t => t
  | n + 1, t => if used.contains t then freeTxn used n (t + 1) else t

/-- Put a message into flight. -/
def State.put (s : State) (m : Msg) : State := { s with net := s.net ++ [m] }

/-- A request fails on the fabric: its requester receives a bus error, whose reason a face site passes on (15 R453,
16 R491). -/
def State.failReply (s : State) (a : Agent) (tag reason : Nat) : State :=
  match a with
  | .site _ => State.put { s with reasons := s.reasons ++ [(a, tag, reason)] } (.reply a tag .busError)
  | _ => s.put (.reply a tag .busError)

/-- Send a request packet: it takes a slot and a tag, waits for a slot, or completes with a bus error where it has no
route (15 R453, R465). -/
def State.fabLaunch (s : State) (k : Pkt) (who : Option (Agent × Nat)) (ga : Dword) (reg : Bool) : State :=
  let txn := freeTxn (s.fabSlots.map (fun e => e.txn)) s.fabSlots.length 0
  let k := { k with txn := txn }
  match s.chooseLink k with
  | none => match who with
    | some (a, t) => s.failReply a t 1
    | none => s
  | some l =>
    let g := s.portGrp l
    if 4096 ≤ (s.fabSlots.filter (fun e => e.grp = g)).length then
      { s with fabWait := s.fabWait ++ [(k, who, ga, reg)] }
    else
      let e : FabSlot := { grp := g, txn := txn, src := who, ga := ga, reg := reg, time := s.fld MC_TSC.COUNT }
      State.linkSendOr { s with fabSlots := s.fabSlots ++ [e] } k none

/-- Try the requests that wait for a slot. -/
def State.fabPump (s : State) : State :=
  s.fabWait.foldl (fun s w => s.fabLaunch w.1 w.2.1 w.2.2.1 w.2.2.2) { s with fabWait := [] }

/-- The device that a global address leads to, when it is another one (01 R32). -/
def State.awayDev (s : State) (ga : Dword) : Option Nat :=
  let d := bvBits ga 48 14
  if (bvBits ga 62 2 = 1 ∨ bvBits ga 62 2 = 2) ∧ d ≠ s.devId then some d else none

/-- `SPART` of a requester (15 R451). -/
def State.spart (s : State) (a : Agent) : Nat := (s.agentPart a).getD 64

/-- A request leaves for another device (15 R452). -/
def State.fabRequest (s : State) (a : Agent) (tag : Nat) (ga : Dword) (op : MemOp) (dev : Nat) : State :=
  let base : Pkt := { type := 1, vc := 0, rt := agentRt a, dst := dev, src := s.devId, spart := s.spart a, addr := ga &&& ~~~63 }
  let o := bvBits ga 0 6
  let write := fun (m : Mask) (d : Line) => { base with type := 2, npay := 2, arg := m, pay := payUnits 64 d.toNat }
  let k := match op with
    | .read _ => base
    | .regRead _ => base
    | .write m d => write m d
    | .zero => write (BitVec.allOnes 64) 0
    | .regWrite n d => write (BitVec.ofNat 64 ((2 ^ n - 1) * 2 ^ o)) (BitVec.ofNat 512 (d.toNat * 2 ^ (8 * o)))
    | .atomic fn x e => { base with type := 3, addr := ga, arg := BitVec.ofNat 64 (x.toNat + e.toNat * 2 ^ 32), aop := fn }
  let reg := match op with
    | .regRead _ => true
    | .regWrite .. => true
    | _ => false
  s.fabLaunch k (some (a, tag)) ga reg

/-- The line of a request of another device is answered: with its last one the response leaves (15 R452, R453). -/
def State.fabReply (s : State) (tag : Nat) (r : Reply) : State :=
  match s.remote.find? (fun e => e.tags.contains tag) with
  | none => s
  | some e =>
    let e' := { e with tags := e.tags.erase tag, err := e.err || decide (r = .busError) }
    let rest := s.remote.erase e
    if e'.tags ≠ [] then { s with remote := rest ++ [e'] }
    else
      let base : Pkt := { type := 5, vc := 1, rt := e.pkt.rt, dst := e.pkt.src, src := s.devId, spart := e.pkt.spart, txn := e.pkt.txn }
      let k := if e'.err then { base with type := 7, arg := 3 } else match r with
        | .data d => { base with type := 4, npay := 2, pay := payUnits 64 d.toNat }
        | .word w => { base with type := 6, arg := w &&& 0xFFFFFFFF }
        | _ => base
      State.linkSendOr { s with remote := rest } k none

/-- A partial leaves for another device (15 R452, R474); one for this device is delivered here. -/
def State.fabPartial (s : State) (dev spart : Nat) (q : Partial) : State :=
  if dev = s.devId then s.put (.part (65536 + dev) q)
  else
    let n := 8 + 18 * q.wins.length
    let k : Pkt := { type := 8, vc := 2, rt := true, dst := dev, src := s.devId, spart := spart, npay := (n + 31) / 32
                     pay := payUnits n (partialBytes q) }
    s.linkSendOr k none

/-- A message of a speculation unit leaves for another device (08 R259, 15 R452). The spec states no layout of its 32
bytes: they are a free value of the message's words (log 18). -/
def State.fabSpec (s : State) (dev spart : Nat) (words : List Nat) : State :=
  s.fabLaunch { type := 9, vc := 0, rt := true, dst := dev, src := s.devId, spart := spart, npay := 1
                pay := [Config.specUnit words] } none 0 false

/-! ### Sending -/

/-- Deliver a message to the network that carries it: requests to other devices, answers to their requests, and partials
leave through the fabric. -/
def State.dispatch (s : State) (m : Msg) : State :=
  match m with
  | .req a t ga op => match s.awayDev ga with
    | some d => s.fabRequest a t ga op d
    | none => s.put m
  | .reply (.fabric ..) t r => s.fabReply t r
  | .xpart dev p q => s.fabPartial dev p q
  | m => s.put m

/-- Send a message. A twin's follower acknowledges writes to other devices and hosts itself and drops them, fails its
atomics there, and drops what its units send to other devices (20 R595). -/
def State.send (s : State) (m : Msg) : State :=
  if !s.twinMute then s.dispatch m
  else match m with
    | .req a t ga op =>
      if agentInVat a && s.offDevice ga then
        match op with
        | .read _ | .regRead _ => s.dispatch m
        | .atomic .. => s.put (.reply a t .busError)
        | _ => s.put (.reply a t .done)
      else s.dispatch m
    | .spec dev _ _ => if dev = s.devId then s.put m else s
    | .xpart dev _ _ => if dev = s.devId then s.dispatch m else s
    | m => s.dispatch m

end Sys2Proof.Machine
end

