-- ==== Sys2Proof/Machine/Report.lean ====
section
/-! DEFINITION. Fault records and their queues, device-fatal causes, and what the ledger excludes (12 R385 to R390, 13 R406,
R407, 02 R62). -/

namespace Sys2Proof.Machine

open Sys2Proof

/-! ### Fault records (12 R385 to R390, 13 R406, R407) -/

/-- The four words of a record (12 R385). -/
def FRec.words (r : FRec) (time : Dword) (seq : Nat) : List Dword :=
  let w0 := r.cls % 256 + (r.sub % 256) * 2 ^ 8 + ((r.part.getD 0) % 64) * 2 ^ 16
    + (if r.part.isSome then 2 ^ 22 else 0) + (if r.fatal then 2 ^ 23 else 0) + (r.unit % 256) * 2 ^ 24
    + (r.inst % 65536) * 2 ^ 32
  [BitVec.ofNat 64 w0, r.addr, time, BitVec.ofNat 64 (r.info % 2 ^ 32 + (seq % 2 ^ 32) * 2 ^ 32)]

/-- Write the words of a record into an array of registers. -/
def State.putWords (s : State) (put : State → Nat → Dword → State) (ws : List Dword) : State :=
  (ws.foldl (fun (acc : State × Nat) w => (put acc.1 acc.2 w, acc.2 + 1)) (s, 0)).1

/-- Offer four words to the device fault queue: queued at `TAIL`, or lost when 256 are queued (12 R386). -/
def State.fqPut (s : State) (ws : List Dword) : State :=
  let n := s.fld MC_FQ_STAT.COUNT
  if n = 256 then
    let s := if s.fld MC_FQ_LOST.COUNT = 0 then s.putWords (fun s w d => s.setReg MC_FQ_LFIRST d w) ws else s
    (s.putWords (fun s w d => s.setReg MC_FQ_LLAST d w) ws).bumpErr MC_FQ_LOST.COUNT
  else
    let t := s.fld MC_FQ_TAIL.TAIL
    let s := s.putWords (fun s w d => s.setReg MC_FQ_ENTRY d (t % 256) w) ws
    ((s.setFld MC_FQ_TAIL.TAIL ((t + 1) % 512)).setFld MC_FQ_STAT.COUNT (n + 1)).setFld MC_FQ_STAT.FULL
      (if n + 1 = 256 then 1 else 0)

/-- Records of partition `p` on their way to its ring. -/
def State.ringBusy (s : State) (p : Nat) : Nat := (s.ringWrites.filter (fun r => r.part = p)).length

/-- Change the oldest record of a partition that is on its way. -/
def ringHead (p : Nat) (f : RingWrite → Option RingWrite) : List RingWrite → List RingWrite
  | [] => []
  | r :: rs => if r.part = p then (match f r with
      | some r => r :: rs
      | none => rs) else r :: ringHead p f rs

/-- The oldest record of a partition that is on its way. -/
def State.ringFirst (s : State) (p : Nat) : Option RingWrite := s.ringWrites.find? (fun r => r.part = p)

/-- The global address of a ring's record (13 R406). -/
def State.ringGa (s : State) (p q : Nat) : Dword :=
  BitVec.ofNat 64 (s.fld XLT_FR_BASE.ADDR p * 4096 + q % 2 ^ s.fld XLT_FR_CFG.RLOG p * 32)

/-- Write the oldest record of a partition when it has not been sent: one is written at a time (13 R406). A record for
the ring alone carries its sequence number in the ring (12 R385). -/
def State.ringSend (s : State) (p : Nat) : State :=
  match s.ringFirst p with
  | some r =>
    if r.tag.isSome then s
    else
      let q := s.fld XLT_FR_PROD.PROD p
      let ws := if r.both then r.words
        else r.words.take 3 ++ [(r.words.getD 3 0 &&& 0xFFFFFFFF) ||| (BitVec.ofNat 64 q <<< 32)]
      let ga := s.ringGa p q
      let o := bvBits ga 0 6
      let d := ws.foldr (fun w a => w.toNat + a * 2 ^ 64) 0
      State.send { s with xtag := s.xtag + 1,
                          ringWrites := ringHead p (fun r => some { r with words := ws, tag := some s.xtag }) s.ringWrites }
        (.req (.faultRing p) s.xtag (ga &&& ~~~63) (.write (BitVec.ofNat 64 ((2 ^ 32 - 1) * 2 ^ o)) (BitVec.ofNat 512 (d * 2 ^ (8 * o)))))
  | none => s

/-- Send a record to a partition's fault ring (13 R406), or lose it (13 R407). -/
def State.ringPost (s : State) (p : Nat) (ws : List Dword) (both : Bool) : State :=
  let used := (s.fld XLT_FR_PROD.PROD p + 2 ^ 32 - s.fld XLT_FR_CONS.CONS p) % 2 ^ 32 + s.ringBusy p
  if s.bit XLT_FR_CFG.EN p ∧ used < 2 ^ s.fld XLT_FR_CFG.RLOG p then
    State.ringSend { s with ringWrites := s.ringWrites ++ [{ part := p, words := ws, both := both }] } p
  else s.bumpErr XLT_FR_LOST.COUNT p

/-- Report a fault to the device fault queue, and to the partition's ring where a partition applies (12 R385). -/
def State.fault (s : State) (r : FRec) : State :=
  let ws := r.words (s.reg MC_TSC) s.fqSeq
  let s := { s with fqSeq := (s.fqSeq + 1) % 2 ^ 32 }
  let s := s.fqPut ws
  match r.part with
  | some p => s.ringPost p ws true
  | none => s

/-- Report a fault to a partition's ring only, with the ring's own sequence number (12 R385, 13 R402). -/
def State.faultRing (s : State) (p : Nat) (r : FRec) : State :=
  let q := s.fld XLT_FR_PROD.PROD p + s.ringBusy p
  s.ringPost p (r.words (s.reg MC_TSC) q) false

/-- A device-fatal cause (12 R390): the first cause is kept, each writes its own record. A twin tells its partner first
(20 R603). -/
def State.goFatal (s : State) (cause : Nat) (r : FRec) : State :=
  let s := if s.fatal then s
    else
      let s := if s.fld TWIN_STAT.STATE = 0 then s else s.twinNotice 4
      (s.setFld MC_ERR_STAT.FATAL 1).setFld MC_ERR_STAT.CAUSE cause
  s.fault { r with fatal := true }

/-- A pool instance is excluded from the ledger (02 R62). -/
def State.exclude (s : State) (pool inst : Nat) : State :=
  let s := if s.excluded.contains (pool, inst) then s else { s with excluded := s.excluded ++ [(pool, inst)] }
  s.setFld MC_LEDGER_STAT.EXCL (s.fld MC_LEDGER_STAT.EXCL ||| 2 ^ pool)

/-- A pool instance is re-based: its owner was reset, or both ends of a link exchanged their counts (02 R61, R62). An
audit that runs leaves it to the next (02 R63). -/
def State.rebase (s : State) (pool inst : Nat) : State :=
  let ex := s.excluded.filter (fun e => e ≠ (pool, inst))
  let bits := if ex.any (fun e => e.1 = pool) then s.fld MC_LEDGER_STAT.EXCL ||| 2 ^ pool
    else s.fld MC_LEDGER_STAT.EXCL - s.fld MC_LEDGER_STAT.EXCL / 2 ^ pool % 2 * 2 ^ pool
  let rb := if s.audit.isSome && !s.rebased.contains (pool, inst) then s.rebased ++ [(pool, inst)] else s.rebased
  State.setFld { s with excluded := ex, rebased := rb } MC_LEDGER_STAT.EXCL bits

/-- The pool instances that a vat owns: its slice, its ladles, its tallies, its tokens (02 R65). -/
def vatPool (v : Nat) (slice : Bool) (e : Nat × Nat) : Bool :=
  (e.1 = 6 && e.2 = v && slice) || (e.1 = 7 && e.2 / 4 = v) || (e.1 = 8 && e.2 / 256 = v) || (e.1 = 9 && e.2 = v)

/-- All of them. -/
def vatPools (v : Nat) (slice : Bool) : List (Nat × Nat) :=
  (if slice then [(6, v)] else []) ++ (List.range 4).map (fun l => (7, 4 * v + l)) ++ (List.range 256).map (fun i => (8, 256 * v + i))
  ++ [(9, v)]

/-- Re-base the excluded instances of a vat; an audit that runs leaves all its instances to the next (02 R62, R63). -/
def State.rebaseVat (s : State) (v : Nat) (slice : Bool) : State :=
  let s := (s.excluded.filter (vatPool v slice)).foldl (fun (s : State) e => s.rebase e.1 e.2) s
  if s.audit.isSome then { s with rebased := s.rebased ++ vatPools v slice } else s

end Sys2Proof.Machine
end

