-- ==== Sys2Proof/Machine/Lanes.lean ====
section
/-! DEFINITION. Decyth lanes: frames, control blocks, alignment, the states of a port and its bring-up, calibration, low
power, eye scans and loopbacks (14 R415 to R448); with them how a port is admitted, held, retrained and leaves its link
(15 R457 to R464). -/

namespace Sys2Proof.Machine

open Sys2Proof

/-! ### Frames on the line (14 R418 to R428) -/

/-- The Gray code of a symbol (14 R418). -/
def lineLevel (msb lsb : Bool) : BitVec 2 :=
  match msb, lsb with
  | false, false => 0
  | false, true => 1
  | true, true => 2
  | true, false => 3

/-- The symbols of a block: a header level, then 128 symbols of the payload (14 R418, R419). -/
def blockLevels (header : BitVec 2) (payload : Nat) : List (BitVec 2) :=
  header :: (List.range 128).map (fun k => lineLevel (payload.testBit (2 * k + 1)) (payload.testBit (2 * k)))

/-- Stuffing (14 R428): after 24 identical levels a transition symbol, which starts a run of 1. -/
def stuffGo : List (BitVec 2) → BitVec 2 → Nat → List (BitVec 2) × BitVec 2 × Nat
  | [], level, run => ([], level, run)
  | l :: ls, level, run =>
    let n := if l = level then run + 1 else 1
    if n = 24 then
      let t : BitVec 2 := if l.toNat ≤ 1 then 3 else 0
      let (r, e) := stuffGo ls t 1
      (l :: t :: r, e)
    else
      let (r, e) := stuffGo ls l n
      (l :: r, e)

/-- The next `n` bits of the scrambler's sequence from a window of 31 bits, the oldest lowest (14 R423). -/
def scramblerBits : Nat → Nat → Nat
  | 0, _ => 0
  | n + 1, w =>
    let b := w % 2
    let c := (w % 2 + w / 8 % 2) % 2
    b + 2 * scramblerBits n (w / 2 + c * 2 ^ 30)

/-- The window at the first payload bit of a frame on lane j (14 R423). -/
def scramblerSeed (j : Nat) : Nat := Nat.xor 0x7FFFFFFF (j * 2 ^ 24) % 2 ^ 31

/-- The message stream of 80 units (14 R421 step 1). -/
def frameMessage (units : List (BitVec 257)) : Nat := units.foldr (fun u a => u.toNat + a * 2 ^ 257) 0

/-- The message symbols of codeword c, the first lowest (14 R421 step 2). -/
def codewordMessage (m c : Nat) : Nat :=
  (List.range 514).foldl (fun a k => a + m / 2 ^ (10 * (4 * k + c)) % 1024 * 2 ^ (10 * k)) 0

/-- The coded stream: the message symbols, then the parity symbols of the four codewords in turn (14 R421 step 3). -/
def frameCode (units : List (BitVec 257)) : Nat :=
  let m := frameMessage units
  let ps := (List.range 4).map (fun c => Config.laneParity (codewordMessage m c))
  m % 2 ^ 20560 + (List.range 120).foldl (fun a k => a + ps.getD (k % 4) 0 / 2 ^ (10 * (k / 4)) % 1024 * 2 ^ (20560 + 10 * k)) 0

/-- The symbols of a frame's coded stream on lane j: scrambled, in 85 blocks (14 R420, R421 step 4, R423). -/
def frameLevels (j code : Nat) : List (BitVec 2) :=
  let x := Nat.xor code (scramblerBits 21760 (scramblerSeed j))
  (List.range 85).flatMap (fun b => blockLevels (if b = 0 then 3 else 1) (x / 2 ^ (256 * b) % 2 ^ 256))

/-- The payload of a control block: type, complement, then 0x88, with bytes 2 to 17 given for `CAPX` (14 R425). -/
def controlPayload (type : Nat) (rec : Option (BitVec 128)) : Nat :=
  let tail := (List.range 30).foldl (fun a i => a + 0x88 * 2 ^ (8 * (i + 2))) 0
  type + (255 - type) * 2 ^ 8 + (match rec with
    | some r => r.toNat * 2 ^ 16 + tail / 2 ^ 144 * 2 ^ 144
    | none => tail)

/-- Put symbols on a lane's line. -/
def LaneSt.send (x : LaneSt) (ls : List (BitVec 2)) : LaneSt :=
  let (out, level, run) := stuffGo ls x.level x.run
  { x with tx := out, level := level, run := run }

/-- A control unit of the link layer (15 R454). -/
def controlUnit (ctype x : Nat) : BitVec 257 := BitVec.ofNat 257 (2 ^ 256 + ctype + x * 16)

/-- The `IDLE` unit. -/
def idleUnit : BitVec 257 := controlUnit 1 0

/-! ### Links that gain or lose a port (15 R462, R464) -/

/-- The lowest lane of a mask. -/
def lowLane (m : BitVec 8) : Nat := ((List.range 8).find? (fun j => m.getLsbD j)).getD 0

/-- The lane after `j` in a mask, in ascending order round robin (15 R449). -/
def nextLane (m : BitVec 8) (j : Nat) : Nat :=
  ((List.range 8).map (fun i => (j + 1 + i) % 8)).find? (fun i => m.getLsbD i) |>.getD j

/-- The number of lanes in a mask. -/
def laneCount (m : BitVec 8) : Nat := ((List.range 8).filter (fun j => m.getLsbD j)).length

/-- A start that waits for its topology check ends (19 R569, R570, R591): its result, its times, and the end of a trial on
the trial bank. -/
def State.startFinish (s : State) (result : Nat) : State :=
  match s.startEnd with
  | none => s
  | some (t7, ready) =>
    let s := ((s.setFld MC_BOOT_STAT.RESULT result).setFld MC_BOOT_STAT.PHASE 0).setFld MC_BOOT_TIME.TREADY ready.toNat
    let s : State := { s.setFld MC_BOOT_PTIME.US t7.toNat 7 with startEnd := none }
    if s.bit MC_BOOT_STAT.TRIAL then State.setFld { s with mram := { s.mram with trial := false } } MC_BOOT_STAT.TRIAL 0 else s

/-- The ports that the image uses, and those of them that are not admitted (19 R586). -/
def State.topoPorts (s : State) : List Nat := (List.range 48).filter (fun p => (s.portRec p).use ≠ 0)
def State.topoMissing (s : State) : List Nat := s.topoPorts.filter (fun p => !s.usable p)

/-- The fields of `MC_TOPO_STAT` and `MC_TOPO_MISS` (19 R586). -/
def State.topoFields (s : State) : State :=
  let n := s.topoPorts.length
  let miss := s.topoMissing
  ((s.setFld MC_TOPO_STAT.EXPECT n).setFld MC_TOPO_STAT.ADMITTED (n - miss.length)).setFld MC_TOPO_MISS.PORTS
    (miss.foldl (fun a p => a + 2 ^ p) 0)

/-- The topology check follows each admission and loss (19 R586): it ends when no expected port is missing; after it the
fields follow, and a degraded device becomes `READY`. -/
def State.topoSync (s : State) : State :=
  if !s.topoRun ∧ !s.bit MC_TOPO_STAT.DONE then s
  else
    let all : Bool := s.topoMissing = []
    if s.topoRun ∧ !all then s
    else
      let s := s.topoFields
      if !all then s
      else
        let s := (s.setFld MC_TOPO_STAT.DONE 1).setFld MC_TOPO_STAT.PASS 1
        let s := if s.fld MC_BOOT_STAT.RESULT = 2 then s.setFld MC_BOOT_STAT.RESULT 1 else s
        if s.topoRun then State.startFinish { s with topoRun := false } 1 else s

/-- `LNK_FAB_STAT.LINK` of every usable port of a group (15 R462, R481); the topology check sees the change. -/
def State.nameLink (s : State) (g : Nat) : State :=
  let ps := s.linkPorts g
  (ps.foldl (fun s p => s.setFld LNK_FAB_STAT.LINK (ps.headD 0) p) s).topoSync

/-- A fabric or lane fault record of a port (14 R444, 15 R479); the group's interrupt source occurs (17 R524). -/
def State.lnkRecord (s : State) (cls p info : Nat) : State :=
  (s.dicLatch (226 + p / 12)).fault { cls := cls, unit := 6, inst := p, info := info }

/-- `INFO` of the lane layer's records: the state and the lane mask (14 R444). -/
def State.lnkInfo (s : State) (p : Nat) : Nat := s.portState p + s.fld LNK_STAT.LANES p * 16

/-- A request of this device whose packet failed on a link completes with a bus error (15 R453, R464). -/
def State.fabFail (s : State) (g : Nat) (k : Pkt) : State :=
  if !k.isReq ∨ k.src ≠ s.devId then s
  else match s.fabSlots.find? (fun e => e.grp = g && e.txn = k.txn) with
    | none => s
    | some e =>
      let s := { s with fabSlots := s.fabSlots.erase e }
      match e.src with
      | some (a, t) => s.failReply a t 7
      | none => s

/-- A port leaves its link (15 R464): its packets are sent again on the other ports, or fail when no port is left. -/
def State.linkLeave (s : State) (p : Nat) : State :=
  let x := s.port p
  let was := s.usable p
  let g := s.portGrp p
  let s := s.setPort p { tries := x.tries, viol := x.viol, seqErr := x.seqErr, flap := x.flap }
  let s := ((s.setFld LNK_FAB_STAT.STATE 0 p).setFld LNK_FAB_STAT.WIDTH 0 p).setFld LNK_FAB_STAT.LINK 0 p
  if !was ∨ (s.portRec p).use = 0 then s
  else
    let s := s.nameLink g
    let l := s.link g
    if s.linkPorts g ≠ [] then
      let mine := l.unacked.filter (fun e => e.1 = p)
      let s := s.setLink g { l with unacked := l.unacked.filter (fun e => e.1 ≠ p) }
      mine.foldl (fun s e =>
        match s.linkPort g with
        | none => s
        | some q =>
          let s := s.setLink g { s.link g with unacked := (s.link g).unacked ++ [(q, e.2)] }
          (s.setPort q { s.port q with pkts := (s.port q).pkts ++ [e.2] }).portPump q) s
    else
      let lost := l.unacked.map Prod.snd ++ l.wait
      let s := s.setLink g { l with unacked := [], wait := [] }
      let s := lost.foldl (fun s k => s.fabFail g k) s
      (s.fabPump).lnkRecord 0x3A p lost.length

/-! ### States of a port (14 R431, R432) -/

/-- Does an eye scan of a lane run on in a state (14 R440)? -/
def State.eyeOk (s : State) (p j st : Nat) : Bool :=
  st = 4 || st = 5 || st = 6 || st = 10 || st = 11 || (st = 3 && s.bit LNK_LN_STAT.DONE p j)

/-- A scan ends before it is complete, with the counts taken so far (14 R440). -/
def State.eyeAbort (s : State) (p j smp err : Nat) : State :=
  let x := s.ln p j
  match x.eye with
  | none => s
  | some n =>
    let smp := min smp (2 ^ n)
    let s := s.setLn p j { x with eye := none }
    let s := (s.setFld (pcCount LNK_LN_EYE_SMP) smp p j).setFld (pcCount LNK_LN_EYE_ERR) (min err smp) p j
    (s.setFld LNK_LN_STAT.EYE_BUSY 0 p j).setFld LNK_LN_STAT.EYE_ABORTED 1 p j

/-- A port takes a state with its lanes. Scans that may not run there end; the counts that they have reached by then are
free values (log 3). -/
def State.portGo (s : State) (p st : Nat) (lanes : BitVec 8) : State :=
  let s := (s.setFld LNK_STAT.STATE st p).setFld LNK_STAT.LANES lanes.toNat p
  (List.range 8).foldl (fun s j =>
    if (s.ln p j).eye.isSome ∧ !s.eyeOk p j st then
      State.eyeAbort s.drawn.drawn p j (Config.freeNat s.free) (Config.freeNat (s.free + 1))
    else s) s

/-- What the lanes of a port knew of its partner is gone. -/
def State.laneReset (s : State) (p : Nat) : State :=
  (List.range 8).foldl (fun s j =>
    let x := s.ln p j
    let s := s.setLn p j { x with ready := false, cap := none, capn := 0, rxq := [], carry := [], occ := 8 }
    (s.setFld LNK_LN_STAT.DONE 0 p j).setFld LNK_LN_STAT.POL_INV 0 p j) (s.unlock p)

/-- `LNK_STAT.DETECTED` and its bits per lane. -/
def State.setDetected (s : State) (p : Nat) (m : BitVec 8) : State :=
  (List.range 8).foldl (fun s j => s.setFld LNK_LN_STAT.DETECTED (if m.getLsbD j then 1 else 0) p j)
    (s.setFld LNK_STAT.DETECTED m.toNat p)

/-- A port goes to `OFF`; calibrations that run end without a result. -/
def State.portOff (s : State) (p : Nat) : State :=
  let s := ((s.linkLeave p).laneReset p).setDetected p 0
  let s := (List.range 8).foldl (fun s j => s.setLn p j { s.ln p j with cal := false }) s
  s.portGo p 0 0

/-- A port goes to `CAL`: every lane calibrates (14 R436). -/
def State.portCal (s : State) (p : Nat) : State :=
  let s := (s.laneReset p).setDetected p 0
  let s := (List.range 8).foldl (fun s j => s.setLn p j { s.ln p j with cal := true }) s
  s.portGo p 1 0xFF

/-- A port goes to `DETECT`, and on to `LOOPBACK` where `LOOP` is 1 or 2 (14 R432, R441). -/
def State.portDetect (s : State) (p : Nat) : State :=
  let s := (((s.linkLeave p).laneReset p).setDetected p 0).portGo p 2 0xFF
  let loop := s.fld LNK_CTL.LOOP p
  if loop = 1 ∨ loop = 2 then s.portGo p 10 0xFF else s

/-- A bring-up fails (14 R432): counted, and after 16 in a row recorded. -/
def State.portFail (s : State) (p : Nat) : State :=
  let s := (s.bumpErr LNK_ERR1.TIMEOUT p).setFld LNK_STAT.LAST_TO (s.portState p) p
  let n := (s.port p).tries + 1
  let s := s.setPort p { s.port p with tries := n }
  let s := if n = 16 then s.lnkRecord 0x32 p (s.lnkInfo p) else s
  s.portDetect p

/-- May a port leave `OFF`: its group is powered and has its reference? Firmware loads the sequencer's code first where
it must, with the group's calibration values (14 R431, R436, 19 R578). -/
def State.portStart (s : State) (p : Nat) : State :=
  let g := p / 12
  if s.portState p ≠ 0 ∨ !s.domOn (72 + g) ∨ !s.bit LNK_GRP_STAT.REF_OK p then s
  else
    let s := if s.bit LNK_GRP_STAT.SEQ_LOADED p ∧ !s.bit LNK_GRP_STAT.SEQ_FAULT p then s
      else
        let s := (List.range 12).foldl (fun s i =>
          let q := 12 * g + i
          ((s.setFld LNK_GRP_STAT.SEQ_LOADED 1 q).setFld LNK_GRP_STAT.SEQ_FAULT 0 q).setFld LNK_GRP_STAT.SEQ_VER s.mram.seqVer q) s
        (List.range 96).foldl (fun s i =>
          match smFind s.mram.laneCal (96 * g + i) with
          | some t => s.setLn (12 * g + i / 8) (i % 8) { s.ln (12 * g + i / 8) (i % 8) with trim := t }
          | none => s) s
    s.portCal p

/-! ### Hold, retrain, admission (15 R457 to R459) -/

/-- A port enters `HELD` (15 R458). -/
def State.portHold (s : State) (p reason : Nat) : State :=
  let s := if s.portState p = 11 then s
    else
      let lanes := BitVec.ofNat 8 (s.fld LNK_STAT.LANES p)
      ((s.linkLeave p).portGo p 11 lanes).setFld LNK_FAB_STAT.STATE 2 p
  (s.setFld LNK_FAB_STAT.HOLD reason p).lnkRecord 0x38 p reason

/-- Count an event in a period of `MC_TSC`: the period, and the events in it. -/
def countIn (c : Nat × Nat) (period : Nat) : Nat × Nat := if c.1 = period then (period, c.2 + 1) else (period, 1)

/-- A port sends or receives `RETRAIN` in `ACTIVE` or `HELD` (14 R432, 15 R459): it trains on every lane that detects a
partner; a width exchange is abandoned (R461). More than `FLAP_LIM` in a second hold it (R458). The reasons that only
`RELEASE` ends stay until then (log 18). -/
def State.portRetrain (s : State) (p : Nat) : State :=
  let s := s.bump LNK_FAB_PC_RETRAIN p
  let x := s.port p
  let f := countIn x.flap (s.fld MC_TSC.COUNT / 100000000)
  let s := s.setPort p { x with flap := f }
  if s.fld MC_FAB_CTL.FLAP_LIM < f.2 then s.portHold p 3
  else
    let h := s.fld LNK_FAB_STAT.HOLD p
    let s := if h = 1 ∨ h = 4 then s.setFld LNK_FAB_STAT.HOLD 0 p else s
    let s := if s.usable p then s else s.setFld LNK_FAB_STAT.STATE 0 p
    let s := s.setPort p { s.port p with retrain := s.usable p, prop := none, agreed := none, sent := none
                                         wswSent := false, wswTaken := false }
    (s.laneReset p).portGo p 3 (BitVec.ofNat 8 (s.fld LNK_STAT.DETECTED p))

/-- A port sends a control block on each lane of a mask (14 R425). -/
def State.laneBlock (s : State) (p type : Nat) (m : BitVec 8) : State :=
  (List.range 8).foldl (fun s j =>
    if m.getLsbD j then s.setLn p j ((s.ln p j).send (blockLevels 1 (controlPayload type none))) else s) s

/-- A port sends `RETRAIN` on its lanes and retrains (14 R432, 15 R459). -/
def State.sendRetrain (s : State) (p : Nat) : State :=
  (s.laneBlock p 4 (BitVec.ofNat 8 (s.fld LNK_STAT.LANES p))).portRetrain p

/-- A request for a retrain: carried out at once in `ACTIVE`, else absorbed or ignored (15 R459). -/
def State.askRetrain (s : State) (p : Nat) : State := if s.portState p = 6 then s.sendRetrain p else s

/-- Queue a control unit on a port. -/
def State.sendControl (s : State) (p : Nat) (u : BitVec 257) : State :=
  s.setPort p { s.port p with txq := (s.port p).txq ++ [(u, false)] }

/-- The units of a replay from place `i` of the replay buffer: a `REPLAY` with its number, then the data units; the data
units that were still to be sent are among them (15 R455). -/
def PortSt.replayFrom (x : PortSt) (i : Nat) : PortSt :=
  let oldest := (x.txSeq + 65536 - x.replay.length) % 65536
  let ctl := x.txq.filter (fun u => u.1.getLsbD 256)
  { x with txq := ctl ++ (controlUnit 4 ((oldest + i) % 65536), false) :: (x.replay.drop i).map (fun d => (d.bits.setWidth 257, true)) }

/-- A narrowing ends when `WSW` was sent and taken (15 R460, R461). -/
def PortSt.narrowEnd (x : PortSt) : PortSt :=
  if x.wswSent ∧ x.wswTaken then { x with agreed := none, wswSent := false, wswTaken := false } else x

/-- A port enters `ACTIVE` with its lanes: it resumes by replay after a retrain, else it starts anew and joins its link
(15 R455, R456, R457, R462). -/
def State.portActive (s : State) (p : Nat) (lanes : BitVec 8) : State :=
  let x := s.port p
  let s := (s.portGo p 6 lanes).setFld LNK_FAB_STAT.WIDTH lanes.toNat p
  if x.retrain ∧ s.usable p then
    let y := x.replayFrom 0
    s.setPort p { y with retrain := false, discard := true, stalls := 0, tries := 0, txMask := lanes, rxMask := lanes
                         txLane := lowLane lanes, rxLane := lowLane lanes }
  else
    let g := s.portGrp p
    let s := if s.linkPorts g = [] then s.setLink g {} else s
    let s := s.setPort p { viol := x.viol, seqErr := x.seqErr, flap := x.flap, txMask := lanes, rxMask := lanes
                           txLane := lowLane lanes, rxLane := lowLane lanes }
    let s := ((s.setFld LNK_FAB_STAT.STATE 1 p).setFld LNK_FAB_STAT.HOLD 0 p).setFld LNK_FAB_STAT.LINK p p
    (s.nameLink g).rebase 13 p

/-- The fields of a capability record (14 R434), byte 2 lowest. -/
def capDev (r : BitVec 128) : Nat := bvBits r 0 14
def capPort (r : BitVec 128) : Nat := bvBits r 16 6
def capLanes (r : BitVec 128) : BitVec 8 := (r >>> 24).setWidth 8

/-- This end's own record. -/
def State.ownCap (s : State) (p : Nat) : BitVec 128 :=
  let q := s.portRec p
  BitVec.ofNat 128 (s.devId + p * 2 ^ 16 + s.fld LNK_STAT.LANES p * 2 ^ 24 + s.fld MC_IMG_ID.FABRIC_ID * 2 ^ 32
    + s.fld MC_IMG_BUILD.FABRIC_BUILD * 2 ^ 64 + q.use * 2 ^ 96 + q.bond * 2 ^ 104
    + s.fld LNK_GRP_STAT.SEQ_VER p * 2 ^ 112)

/-- Does a record meet the conditions of 15 R457 other than width? An unconfigured device admits no port. -/
def State.capMatches (s : State) (p : Nat) (r : BitVec 128) : Bool :=
  let q := s.portRec p
  s.img.configured && (q.use = 1 || q.use = 2) && capDev r = q.peerDev && capPort r = q.peerPort
    && bvBits r 32 32 = s.fld MC_IMG_ID.FABRIC_ID && bvBits r 64 32 = s.fld MC_IMG_BUILD.FABRIC_BUILD
    && bvBits r 96 8 = q.use && bvBits r 104 8 = q.bond

/-- A record is accepted (14 R434): the port is admitted or held (15 R457, R458). A port that only `RELEASE` frees is
held again (log 18). -/
def State.admitPort (s : State) (p : Nat) (r : BitVec 128) : State :=
  let s := (s.setReg LNK_CAPR0 (r.setWidth 64) p).setReg LNK_CAPR1 ((r >>> 64).setWidth 64) p
  let h := s.fld LNK_FAB_STAT.HOLD p
  let lanes := capLanes r &&& BitVec.ofNat 8 (s.fld LNK_STAT.LANES p)
  if h = 2 ∨ h = 3 ∨ h = 5 then s.portHold p h
  else if !s.capMatches p r then s.portHold p 1
  else if laneCount (capLanes r) < s.fld LNK_FAB_CTL.MIN_W p ∨ lanes = 0 then s.portHold p 4
  else s.portActive p lanes

/-! ### References and sequencers (14 R416, R448) -/

/-- Set a field of `LNK_GRP_STAT` in every port's window of a group (14 R448). -/
def State.setGrp (s : State) (f : Fld) (x g : Nat) : State := (List.range 12).foldl (fun s i => s.setFld f x (12 * g + i)) s

/-- Every port of a group goes to `OFF`. -/
def State.grpOff (s : State) (g : Nat) : State := (List.range 12).foldl (fun s i => s.portOff (12 * g + i)) s

/-- `LANE_REF_LOST` (14 R416). -/
def execLaneRefLost (g : Fin 4) (s : State) : Host.Outcome State Fault Refusal :=
  let info := s.lnkInfo (12 * g)
  let s := { s with refs := s.refs &&& ~~~((1 : BitVec 4) <<< g.val) }
  .next ((((s.setGrp LNK_GRP_STAT.REF_OK 0 g).setGrp LNK_GRP_STAT.REF_LOST 1 g).grpOff g).lnkRecord 0x33 (12 * g) info)

/-- `LANE_REF_PRESENT` (14 R448, 19 R578): the reference is there, and the PLL locks in a group that is powered. -/
def execLaneRefPresent (g : Fin 4) (s : State) : Host.Outcome State Fault Refusal :=
  let s := { s with refs := s.refs ||| ((1 : BitVec 4) <<< g.val) }
  .next (if s.domOn (72 + g) then s.setGrp LNK_GRP_STAT.REF_OK 1 g else s)

/-- `SEQUENCER_FAULT` (14 R444, R448). -/
def execSequencerFault (g : Fin 4) (s : State) : Host.Outcome State Fault Refusal :=
  let info := s.lnkInfo (12 * g)
  .next (((s.setGrp LNK_GRP_STAT.SEQ_FAULT 1 g).grpOff g).lnkRecord 0x34 (12 * g) info)

/-! ### Sending frames (14 R421 to R428, 15 R449) -/

/-- Give units of the port's stream to its lanes in turn until each lane of the mask has 80; `IDLE` where there is none.
After a `WSW` the lanes of the new mask take turns from the lowest (15 R449, R460). -/
def spreadUnits : Nat → BitVec 8 → Nat → Option (BitVec 8) → List (BitVec 257 × Bool) → List (List (BitVec 257 × Bool)) →
    BitVec 8 × Nat × List (BitVec 257 × Bool) × List (List (BitVec 257 × Bool))
  | 0, m, j, _, q, acc => (m, j, q, acc)
  | n + 1, m, j, agreed, q, acc =>
    if (List.range 8).all (fun i => !m.getLsbD i || 80 ≤ (acc.getD i []).length) then (m, j, q, acc)
    else
      let (u, q) := match q with
        | [] => ((idleUnit, false), [])
        | u :: q => (u, q)
      let acc := acc.set j (acc.getD j [] ++ [u])
      if u.1.getLsbD 256 ∧ bvBits u.1 0 4 = 8 then
        let m' := agreed.getD m
        spreadUnits n m' (lowLane m') none q acc
      else spreadUnits n m (nextLane m j) agreed q acc

/-- One lane sends a frame of 80 units, then the control block due at the boundary: `CAPX` in `CAPX`, `ENTER_DEEP` on a
lane that is removed, a filler after `FILL_INT` frames (14 R424, R426, R431). -/
def State.laneSend (s : State) (p j : Nat) (units : List (BitVec 257)) (removed : Bool) : State :=
  let x := s.ln p j
  let fill := s.fld LNK_CFG.FILL_INT p ≤ x.fills + 1
  let ctl := fun (t : Nat) (r : Option (BitVec 128)) => blockLevels 1 (controlPayload t r)
  let (tail, filler) :=
    if s.portState p = 5 then (ctl 5 (some (s.ownCap p)), false)
    else if removed then (ctl 3 none, false)
    else if fill then (ctl 1 none, true)
    else ([], false)
  let x := x.send (frameLevels j (frameCode units) ++ tail)
  let s := s.setLn p j { x with fills := if filler then 0 else x.fills + 1 }
  if filler then s.bump LNK_PC_FILL_TX p else s

/-- `LANE_FRAME_TRANSMIT` (14 R421, R424, R431, R442, 15 R449): a port sends one frame on each of its lanes. -/
def execLaneFrameTransmit (p : PortId) (s : State) : Host.Outcome State Fault Refusal :=
  let st := s.portState p
  let idle := List.replicate 80 idleUnit
  .next (if st = 6 then
    let x := s.port p
    if x.sent.isSome then s
    else
      let lanes := (List.range 8).filter (fun j => x.txMask.getLsbD j)
      let start := (List.range 8).map (fun j => (s.ln p j).carry)
      let (m, j, q, acc) := spreadUnits 2000 x.txMask x.txLane x.agreed x.txq start
      let wsw := fun (us : List (BitVec 257 × Bool)) => us.any (fun u => u.1.getLsbD 256 && bvBits u.1 0 4 = 8)
      let s := s.setPort p ({ x with txMask := m, txLane := j, txq := q, wswSent := x.wswSent || (wsw x.txq && !wsw q) }).narrowEnd
      let s := s.setFld LNK_FAB_STAT.WIDTH m.toNat p
      lanes.foldl (fun s i =>
        let us := acc.getD i []
        let now := us.take 80
        let data := now.filter (fun u => !u.1.getLsbD 256)
        let units := now.map Prod.fst ++ List.replicate (80 - now.length) idleUnit
        let s := s.setLn p i { s.ln p i with carry := us.drop 80 }
        let s := s.bumpN LNK_FAB_PC_TXU data.length p
        let s := s.bumpN LNK_FAB_PC_REPLAY (data.filter (fun u => u.2)).length p
        s.laneSend p i units (!m.getLsbD i)) s
    else if st = 4 ∨ st = 5 ∨ st = 11 then
      (List.range 8).foldl (fun s j => if (s.fld LNK_STAT.LANES p).testBit j then s.laneSend p j idle false else s) s
    else if (st = 10 ∧ s.fld LNK_CTL.LOOP p ≠ 3) ∨ (st = 2 ∧ s.fld LNK_STAT.DETECTED p = 0) then
      (List.range 8).foldl (fun s j =>
        let x := s.ln p j
        if !s.bit LNK_LN_PG.GEN_EN p j then s
        else match s.fld LNK_LN_PG.MODE p j with
          | 0 => s
          | 3 =>
            let us := (List.range 80).map (fun i => Config.patternUnit (x.pg + i))
            State.laneSend (s.setLn p j { x with pg := x.pg + 80 }) p j us false
          | m =>
            let ls := (List.range 10965).map (fun i => Config.patternLevel m (x.pg + i))
            s.setLn p j { x with pg := x.pg + 10965, tx := ls }) s
    else s)

/-! ### Receiving frames and blocks (14 R422, R425 to R430) -/

/-- Lanes that have completed `LOCK` (14 R432). -/
def State.lockedLanes (s : State) (p : Nat) : BitVec 8 :=
  (List.range 8).foldl (fun (m : BitVec 8) j =>
    if (s.fld LNK_STAT.LANES p).testBit j ∧ 16 ≤ (s.ln p j).good then m ||| (1 <<< j) else m) 0

/-- A port leaves `LOCK` with some lanes (14 R432). -/
def State.lockEnd (s : State) (p : Nat) (m : BitVec 8) : State :=
  s.portGo p (if s.fld LNK_CTL.LOOP p = 3 then 10 else 5) m

/-- An uncorrectable frame is counted against `UE_LIM` (14 R422). -/
def State.laneUe (s : State) (p j : Nat) : State :=
  let s := s.bumpErr LNK_LN_ERR.FEC_UE p j
  let x := s.ln p j
  let lim := s.fld LNK_CFG.UE_LIM p
  let c := countIn (x.uePeriod, x.ue) (s.fld MC_TSC.COUNT / 100000)
  let s := s.setLn p j { x with uePeriod := c.1, ue := c.2 }
  if lim ≠ 0 ∧ c.2 = lim then (s.lnkRecord 0x31 p (s.lnkInfo p)).askRetrain p else s

/-- `LANE_FRAME_RECEIVE` (14 R422, R423, R427, R428, R432, R441, R442): a lane in frame lock decodes a frame that carries
these units. -/
def execLaneFrameReceive (p : PortId) (j : LaneIx) (units : List (BitVec 257)) (e : FrameErrs) (s : State) :
    Host.Outcome State Fault Refusal :=
  .next (if !s.bit LNK_LN_STAT.FRAME_LOCK p j then s
    else
      let us := (units ++ List.replicate 80 idleUnit).take 80
      let full := e.occ.val = 16
      let syms := e.syms.filter (fun x => x.2 ≠ 0)
      let count := fun (c : Nat) => ((syms.map (fun x => x.1.val)).eraseDups.filter (fun q => q % 4 = c)).length
      let bad := full || (List.range 4).any (fun c => 15 < count c)
      let s := s.bumpErr LNK_ERR0.STUFF_ERR p (n := e.stuff)
      let s := if full then s.bumpErr LNK_ERR2.ELASTIC p else s
      let ins := decide (e.occ.val < 6)
      let s := if ins then s.bump LNK_PC_FILL_INS p else s
      let x := s.ln p j
      let s := s.setLn p j { x with occ := if ins then e.occ.val + 1 else if full then 15 else e.occ.val
                                    good := if bad then 0 else x.good + 1 }
      let s := s.bump LNK_LN_PC_FRAMES p j
      let fixed := (List.range 4).foldl (fun a c => if count c ≤ 15 then a + count c else a) 0
      let s := s.bumpN LNK_LN_PC_FECC fixed p j
      let s := match s.portState p with
        | 4 => if s.lockedLanes p = BitVec.ofNat 8 (s.fld LNK_STAT.LANES p) then s.lockEnd p (s.lockedLanes p) else s
        | 6 => if (s.port p).rxMask.getLsbD j then
            s.setLn p j { s.ln p j with rxq := (s.ln p j).rxq ++ us.map (fun u => (u, bad)) } else s
        | 10 => if s.fld LNK_CTL.LOOP p = 3 then
            let code := syms.foldl (fun a x => Nat.xor a (x.2.toNat * 2 ^ (10 * x.1.val))) (frameCode us)
            s.setLn p j ((s.ln p j).send (frameLevels j code))
          else s
        | _ => s
      let s := match e.chk with
        | some n => if s.bit LNK_LN_PG.CHK_EN p j ∧ s.fld LNK_LN_PG.MODE p j ≠ 0 then
            (s.setFld LNK_LN_PG.CHK_LOCK 1 p j).bumpN LNK_LN_PG_ERR n p j else s
        | none => s.setFld LNK_LN_PG.CHK_LOCK 0 p j
      if bad then s.laneUe p j else s)

/-- `FILLER` (14 R427): deleted when the buffer holds more than 10 blocks. -/
def execFiller (p : PortId) (j : LaneIx) (occ : Fin 17) (s : State) : Host.Outcome State Fault Refusal :=
  let x := s.ln p j
  .next (if !s.bit LNK_LN_STAT.FRAME_LOCK p j then s
    else if 10 < occ.val then (s.setLn p j { x with occ := occ.val - 1 }).bump LNK_PC_FILL_DEL p
    else s.setLn p j { x with occ := occ.val })

/-- A control block that is handled as `FILLER` (14 R444). -/
def State.badCtl (s : State) (p : Nat) : State := s.bumpErr LNK_ERR0.BAD_CTL p

/-- `CONTROL_BLOCK_RESERVED` (14 R425, R444): a reserved type, a byte 1 that is not the complement, or a second control
block at one boundary. -/
def execControlBlockReserved (p : PortId) (_ : LaneIx) (type comp : BitVec 8) (second : Bool) (s : State) :
    Host.Outcome State Fault Refusal :=
  .next (if type = 0 ∨ 6 ≤ type.toNat ∨ comp ≠ ~~~type ∨ second then s.badCtl p else s)

/-- A lane's receiver takes the next header while it has frame lock or looks for it (14 R426, R430): the lane, whether it
has frame lock, and whether a control block was lost. -/
def LaneSt.frameHeader (x : LaneSt) (locked : Bool) (h : BitVec 2) : LaneSt × Bool × Bool :=
  let first := h = 2
  let ctl := h = 1
  if !locked then
    if first then
      let n := if x.firsts ≠ 0 ∧ (x.gap = 85 ∨ x.gap = 86) then x.firsts + 1 else 1
      ({ x with firsts := n, gap := 1, miss := 0, pend := false }, decide (3 ≤ n), false)
    else if x.firsts = 0 ∨ 86 ≤ x.gap ∨ (x.gap = 85 ∧ !ctl) then ({ x with firsts := 0, gap := 0 }, false, false)
    else ({ x with gap := x.gap + 1 }, false, false)
  else if x.gap < 85 then ({ x with gap := x.gap + 1 }, true, false)
  else if x.pend then
    if first then ({ x with pend := false, gap := 1, miss := x.miss + 1 }, decide (x.miss + 1 < 4), true)
    else ({ x with pend := false, gap := 2, miss := 0 }, true, false)
  else if first then ({ x with gap := 1, miss := 0 }, true, false)
  else if ctl then ({ x with miss := 0 }, true, false)
  else ({ x with pend := true }, true, false)

/-- A port in `WAKE` whose lanes all have frame lock again is `ACTIVE` (14 R432, R439). One that an image apply took out of
its link meanwhile is admitted anew (log 29). -/
def State.wakeEnd (s : State) (p : Nat) : State :=
  let m := BitVec.ofNat 8 (s.fld LNK_STAT.LANES p)
  if s.portState p = 9 ∧ (List.range 8).all (fun j => !m.getLsbD j || s.bit LNK_LN_STAT.FRAME_LOCK p j) then
    let s := s.portGo p 6 m
    if s.usable p then s else s.sendRetrain p
  else s

/-- `BLOCK_LOCK` (14 R426, R429, R430): a lane tests the header of the next block at its place. -/
def execBlockLock (p : PortId) (j : LaneIx) (hdr : BitVec 2) (s : State) : Host.Outcome State Fault Refusal :=
  let x := s.ln p j
  let ok := hdr = 1 || hdr = 2
  .next (if !s.bit LNK_LN_STAT.BLOCK_LOCK p j then
      if !ok then s.setLn p j { x with hunt := 0, pos := (x.pos + 1) % 129 }
      else if x.hunt + 1 < 64 then s.setLn p j { x with hunt := x.hunt + 1 }
      else (s.setLn p j { x with hunt := 0, inv := 0, firsts := 0, gap := 0 }).setFld LNK_LN_STAT.BLOCK_LOCK 1 p j
    else
      let inv := (x.inv <<< 1) ||| (if ok then 0 else 1)
      let locked := s.bit LNK_LN_STAT.FRAME_LOCK p j
      let s := if locked ∧ !ok then s.bumpErr LNK_LN_ERR.HDR_INV p j else s
      if 16 ≤ ((List.range 64).filter (fun i => inv.getLsbD i)).length then
        let s := s.setLn p j { x with hunt := 0, inv := 0, firsts := 0, gap := 0, miss := 0, pend := false, good := 0 }
        (s.setFld LNK_LN_STAT.BLOCK_LOCK 0 p j).setFld LNK_LN_STAT.FRAME_LOCK 0 p j
      else
        let (y, lock, lost) := ({ x with inv := inv } : LaneSt).frameHeader locked hdr
        let s := s.setLn p j (if lock then y else { y with good := 0, firsts := if locked then 0 else y.firsts })
        let s := if lost then s.badCtl p else s
        (s.setFld LNK_LN_STAT.FRAME_LOCK (if lock then 1 else 0) p j).wakeEnd p)

/-! ### Bring-up (14 R432 to R437) -/

/-- `LANE_CAL_COMPLETE` (14 R436, R437). -/
def execLaneCalComplete (p : PortId) (j : LaneIx) (res : CalResult) (trim : Nat) (s : State) :
    Host.Outcome State Fault Refusal :=
  let x := s.ln p j
  .next (if !x.cal then s
    else
      let (code, t) := match res with
        | .ok => (1, trim)
        | .inputActive => (2, x.trim)
        | .range => (3, x.trim)
      let s := (s.setLn p j { x with cal := false, trim := t }).setFld LNK_LN_STAT.CAL code p j
      if s.portState p = 1 ∧ (List.range 8).all (fun i => !(s.ln p i).cal) then s.portDetect p else s)

/-- `LNK_CAL_GO` (14 R436, R437): ignored during a calibration; rejected in a state that has none. -/
def execLnkCalGo (p : PortId) (s : State) : Host.Outcome State Fault Refusal :=
  let st := s.portState p
  .next (if (List.range 8).any (fun j => (s.ln p j).cal) then s
    else if st = 0 ∨ st = 2 ∨ st = 7 ∨ st = 8 then
      (List.range 8).foldl (fun s j => s.setLn p j { s.ln p j with cal := true }) s
    else (List.range 8).foldl (fun s j => s.setFld LNK_LN_STAT.CAL 4 p j) s)

/-- `LNK_CTL_START` (14 R432). -/
def execLnkCtlStart (p : PortId) (s : State) : Host.Outcome State Fault Refusal := .next (s.portStart p)

/-- `LNK_CTL_STOP` (14 R432). -/
def execLnkCtlStop (p : PortId) (s : State) : Host.Outcome State Fault Refusal := .next (s.portOff p)

/-- `LANE_PARTNER_DETECT` (14 R432, R437): lanes detect a termination for 100 µs. A calibration that still runs sees the
partner's signal and ends. -/
def execLanePartnerDetect (p : PortId) (lanes : BitVec 8) (s : State) : Host.Outcome State Fault Refusal :=
  .next (if s.portState p ≠ 2 ∨ lanes = 0 then s
    else
      let s := (List.range 8).foldl (fun s j =>
        let x := s.ln p j
        if x.cal then (s.setLn p j { x with cal := false }).setFld LNK_LN_STAT.CAL 2 p j else s) s
      (s.setDetected p lanes).portGo p 3 lanes)

/-- The lanes of a port in `TRAIN` that are done. -/
def State.doneLanes (s : State) (p : Nat) : BitVec 8 :=
  (List.range 8).foldl (fun (m : BitVec 8) j =>
    if (s.fld LNK_STAT.LANES p).testBit j ∧ s.bit LNK_LN_STAT.DONE p j then m ||| (1 <<< j) else m) 0

/-- `LANE_TRAINING_MARKER` (14 R433, R444): a marker with these first four bytes arrives; `sent` markers with `READY` have
been sent on the lane, and the receiver has found whether its polarity is inverted. -/
def execLaneTrainingMarker (p : PortId) (j : LaneIx) (payload : BitVec 32) (sent : Nat) (inverted : Bool) (s : State) :
    Host.Outcome State Fault Refusal :=
  let b := fun i => bvBits payload (8 * i) 8
  .next (if s.portState p ≠ 3 ∨ !(s.fld LNK_STAT.LANES p).testBit j ∨ b 0 + b 1 ≠ 255 then s
    else if b 0 ≠ j.val then s.bumpErr LNK_ERR2.LANE_MAP p
    else
      let s := s.setFld LNK_LN_STAT.POL_INV (if inverted then 1 else 0) p j
      let x := s.ln p j
      let ready := x.ready || b 3 = 1
      let s := s.setLn p j { x with ready := ready }
      if ready ∧ 2 ≤ sent then
        let s := s.setFld LNK_LN_STAT.DONE 1 p j
        if s.doneLanes p = BitVec.ofNat 8 (s.fld LNK_STAT.LANES p) then (s.unlock p).portGo p 4 (s.doneLanes p) else s
      else s)

/-- `PORT_STATE_TIMEOUT` (14 R432). -/
def execPortStateTimeout (p : PortId) (s : State) : Host.Outcome State Fault Refusal :=
  .next (match s.portState p with
    | 3 => if s.doneLanes p = 0 then s.portFail p else (s.unlock p).portGo p 4 (s.doneLanes p)
    | 4 => if s.lockedLanes p = 0 then s.portFail p else s.lockEnd p (s.lockedLanes p)
    | 5 => s.portFail p
    | 9 =>
      let s := (s.bumpErr LNK_ERR1.TIMEOUT p).setFld LNK_STAT.LAST_TO 9 p
      let s := s.setPort p { s.port p with retrain := s.usable p }
      (s.laneReset p).portGo p 3 (BitVec.ofNat 8 (s.fld LNK_STAT.DETECTED p))
    | _ => s)

/-- `CAPX` (14 R434, R444): three in a row with the same record accept it. -/
def execCapx (p : PortId) (j : LaneIx) (rec : BitVec 128) (s : State) : Host.Outcome State Fault Refusal :=
  .next (if s.portState p ≠ 5 then s.badCtl p
    else
      let x := s.ln p j
      let n := if x.cap = some rec then x.capn + 1 else 1
      let s := s.setLn p j { x with cap := some rec, capn := n }
      if n = 3 then s.admitPort p rec else s)

/-- `RETRAIN` (14 R432, 15 R459, R461): one retrain, whichever end or lane asks first. -/
def execRetrain (p : PortId) (_ : LaneIx) (s : State) : Host.Outcome State Fault Refusal :=
  .next (if s.portState p = 6 ∨ s.portState p = 11 then s.portRetrain p else s)

/-! ### Low power (14 R438, R439) -/

/-- Both ends have sent `ENTER`: the port shows `SHALLOW` when either direction is shallow. -/
def State.lowPower (s : State) (p : Nat) : State :=
  let x := s.port p
  let lanes := (List.range 8).filter (fun j => x.rxMask.getLsbD j)
  match x.sent with
  | none => s
  | some own =>
    if s.portState p ≠ 6 ∨ lanes = [] ∨ !lanes.all (fun j => (s.ln p j).enter.isSome) then s
    else
      let shallow := own || lanes.any (fun j => (s.ln p j).enter = some true)
      (s.portGo p (if shallow then 7 else 8) (BitVec.ofNat 8 (s.fld LNK_STAT.LANES p))).bump LNK_PC_LP_ENTRY p

/-- A request to enter a low-power state: this end sends its `ENTER`. -/
def State.lowRequest (s : State) (p : Nat) (shallow : Bool) : State :=
  let x := s.port p
  if s.portState p ≠ 6 ∨ x.sent.isSome then s else ((s.setPort p { x with sent := some shallow }).laneBlock p (if shallow then 2 else 3) x.txMask).lowPower p

/-- An `ENTER` arrives on a lane: the end that has not sent its own sends it, shallow when it holds traffic. One on a lane
that a narrowing removes is that lane's last block (15 R460). -/
def State.enterBlock (s : State) (p j : Nat) (shallow : Bool) : State :=
  let x := s.port p
  if s.portState p ≠ 6 then s.badCtl p
  else if !x.rxMask.getLsbD j ∨ x.agreed.any (fun m => !m.getLsbD j) then s
  else
    let s := s.setLn p j { s.ln p j with enter := some shallow }
    let all := (List.range 8).all (fun i => !x.rxMask.getLsbD i || (s.ln p i).enter.isSome)
    if !all then s
    else if x.sent.isSome then s.lowPower p
    else
      let traffic := x.replay ≠ [] || x.pkts ≠ [] || x.txq ≠ []
      let own := traffic || shallow
      ((s.setPort p { x with sent := some own }).laneBlock p (if own then 2 else 3) x.txMask).lowPower p

/-- `LANE_SIGNAL_LOSS` (14 R432, R439): signal, or frame lock, is lost on every lane. At a frame boundary an `ACTIVE`
receiver takes its partner to have sent `ENTER_DEEP` (log 38). -/
def execLaneSignalLoss (p : PortId) (signal boundary : Bool) (s : State) : Host.Outcome State Fault Refusal :=
  let lanes := (List.range 8).filter (fun j => (s.fld LNK_STAT.LANES p).testBit j)
  let lost := signal || lanes.all (fun j => !s.bit LNK_LN_STAT.FRAME_LOCK p j)
  let entered := lanes.any (fun j => (s.ln p j).enter.isSome)
  .next (if !lost then s
    else if s.portState p = 6 ∧ !entered then
      if signal ∧ boundary then lanes.foldl (fun s j => s.enterBlock p j false) s
      else ((s.bumpErr LNK_ERR1.LOS p).lnkRecord 0x30 p (s.lnkInfo p)).portDetect p
    else if signal ∧ s.portState p ≠ 7 ∧ s.portState p ≠ 8 then s.unlock p
    else s)

/-- `ENTER_SHALLOW` (14 R439). -/
def execEnterShallow (p : PortId) (j : LaneIx) (s : State) : Host.Outcome State Fault Refusal := .next (s.enterBlock p j true)

/-- `ENTER_DEEP` (14 R439). -/
def execEnterDeep (p : PortId) (j : LaneIx) (s : State) : Host.Outcome State Fault Refusal := .next (s.enterBlock p j false)

/-- `LPREQ_SHALLOW` (14 R439). -/
def execLpreqShallow (p : PortId) (s : State) : Host.Outcome State Fault Refusal := .next (s.lowRequest p true)

/-- `LPREQ_DEEP` (14 R439). -/
def execLpreqDeep (p : PortId) (s : State) : Host.Outcome State Fault Refusal := .next (s.lowRequest p false)

/-- `LPREQ_WAKE` (14 R439). -/
def execLpreqWake (p : PortId) (s : State) : Host.Outcome State Fault Refusal := .next (s.portWake p)

/-- `LANE_WAKE_DETECT` (14 R439): the partner's training blocks are seen; an `ENTER` of this end that is under way is
abandoned. -/
def execLaneWakeDetect (p : PortId) (s : State) : Host.Outcome State Fault Refusal :=
  .next (if s.portState p = 6 ∧ (s.port p).sent.isSome then s.setPort p { s.port p with sent := none } else s.portWake p)

/-- `LANE_REFRESH_BURST` (14 R438): only in `SHALLOW`. -/
def execLaneRefreshBurst (p : PortId) (s : State) : Host.Outcome State Fault Refusal :=
  .next (if s.portState p = 7 then s.setPort p { s.port p with burst := s.fld MC_TSC.COUNT } else s)

/-! ### Loopbacks and eye scans (14 R440, R441) -/

/-- `LNK_LOOP_WRITE` (14 R432, R441). -/
def execLnkLoopWrite (p : PortId) (loop : BitVec 2) (s : State) : Host.Outcome State Fault Refusal :=
  let s := s.setFld LNK_CTL.LOOP loop.toNat p
  .next (if s.portState p = 10 ∧ loop = 0 then s.portCal p else s)

/-- The fields of `LNK_LN_EYE_CTL` that a write sets. -/
def State.eyeCtl (s : State) (p j : Nat) (data : Word) : State :=
  s.setReg LNK_LN_EYE_CTL (data.setWidth 64 &&& 0x7FFFFC) p j

/-- `EYE_SCAN_GO` (14 R440). -/
def execEyeScanGo (p : PortId) (j : LaneIx) (data : Word) (s : State) : Host.Outcome State Fault Refusal :=
  let s := s.eyeCtl p j data
  let x := s.ln p j
  let n := s.fld LNK_LN_EYE_CTL.LOGN p j
  .next (if !data.getLsbD 0 then s
    else if x.eye.isSome ∨ !s.eyeOk p j (s.portState p) ∨ s.fld LNK_LN_EYE_CTL.EYE p j = 3 ∨ n < 10 ∨ 40 < n then
      s.setFld LNK_LN_STAT.EYE_REJ 1 p j
    else
      let s := (s.setReg LNK_LN_EYE_SMP 0 p j).setReg LNK_LN_EYE_ERR 0 p j
      (s.setLn p j { x with eye := some n }).setFld LNK_LN_STAT.EYE_BUSY 1 p j)

/-- `EYE_SCAN_ABORT` (14 R446): the counts so far stay readable. -/
def execEyeScanAbort (p : PortId) (j : LaneIx) (data : Word) (smp err : Nat) (s : State) : Host.Outcome State Fault Refusal :=
  let s := s.eyeCtl p j data
  .next (if data.getLsbD 1 then s.eyeAbort p j smp err else s)

/-- `EYE_SCAN_COMPLETE` (14 R440): 2^`LOGN` samples with `err` mismatches. -/
def execEyeScanComplete (p : PortId) (j : LaneIx) (err : Nat) (s : State) : Host.Outcome State Fault Refusal :=
  let x := s.ln p j
  .next (match x.eye with
    | none => s
    | some n =>
      let s := s.setLn p j { x with eye := none }
      let s := (s.setFld (pcCount LNK_LN_EYE_SMP) (2 ^ n) p j).setFld (pcCount LNK_LN_EYE_ERR) (min err (2 ^ n)) p j
      (s.setFld LNK_LN_STAT.EYE_BUSY 0 p j).setFld LNK_LN_STAT.EYE_DONE 1 p j)

end Sys2Proof.Machine
end

