-- ==== Sys2Proof/Machine/Sign.lean ====
section
/-! DEFINITION. The signed events of a twin: hashes, streams, windows and their records (20 R596 to R598). -/

namespace Sys2Proof.Machine

open Sys2Proof

/-- `mix64` (20 R597). -/
def mix64 (x : Dword) : Dword :=
  let x := (x ^^^ (x >>> 30)) * 0xBF58476D1CE4E5B9
  let x := (x ^^^ (x >>> 27)) * 0x94D049BB133111EB
  x ^^^ (x >>> 31)

/-- `ev` (20 R597). -/
def evHash (kind : Nat) (a m : Dword) (words : List Dword) : Dword :=
  let h := mix64 ((BitVec.ofNat 64 kind <<< 56) ^^^ a)
  words.foldl (fun h x => mix64 (h ^^^ x)) (mix64 (h ^^^ m))

/-- A global address as events name it: bits [61:48] and [5:0] zero (20 R597). -/
def evAddr (ga : Dword) : Dword := ga &&& 0xC000FFFFFFFFFFC0

/-- The bytes of a line that a mask selects, the others zero. -/
def maskLine (m : Mask) (d : Line) : Line :=
  (List.range 64).foldl (fun (acc : Line) k =>
    if m.getLsbD k then acc ||| ((d &&& ((255 : Line) <<< (8 * k)))) else acc) 0

/-- The eight words of a line. -/
def lineWords (d : Line) : List Dword := (List.range 8).map (fun k => (d >>> (64 * k)).setWidth 64)

/-- Kind 1: a line write or a zero-fill. -/
def evLine (ga : Dword) (m : Mask) (d : Line) : Dword := evHash 1 (evAddr ga) m (lineWords (maskLine m d))

/-- Kinds 2, 3 and 4: a tally increment, a message, a doorbell. -/
def evInc (t n : Nat) : Dword := evHash 2 (BitVec.ofNat 64 t) 0 [BitVec.ofNat 64 n]
def evMsg (dst part : Nat) (payload : Dword) : Dword := evHash 3 (BitVec.ofNat 64 dst) (BitVec.ofNat 64 part) [payload]
def evBell (v src : Nat) : Dword := evHash 4 (BitVec.ofNat 64 v) 0 [BitVec.ofNat 64 src]

/-- Kind 5: an atomic request. -/
def evAtomic (ga : Dword) (aop : Nat) (operand expected : Word) : Dword :=
  evHash 5 (evAddr ga) (BitVec.ofNat 64 aop) [operand.setWidth 64, expected.setWidth 64]

/-- Kind 6: a partial. -/
def evPart (p : Partial) : Dword :=
  let a := (partialValue p)
  evHash 6
    (BitVec.ofNat 64 (p.tag.toNat + p.lane.toNat * 2 ^ 16 + p.p.toNat * 2 ^ 20 + p.n.toNat * 2 ^ 21 + p.q.toNat * 2 ^ 22
      + p.aov.toNat * 2 ^ 23))
    (BitVec.ofNat 64 (p.expect.toNat + p.merged * 2 ^ 8))
    ((List.range 10).map (fun k => (a >>> (64 * k)).setWidth 64))

/-- Are events signed in this state of the twin (20 R602)? -/
def State.signOn (s : State) : Bool := s.fld TWIN_STAT.STATE = 3 || s.fld TWIN_STAT.STATE = 4

/-- Is the partition held: the twin synchronises or has diverged (20 R604, R607)? -/
def State.twinHeld (s : State) : Bool := s.fld TWIN_STAT.STATE = 2 || s.fld TWIN_STAT.STATE = 5

/-- A stream. -/
def State.stream (s : State) (v st : Nat) : Stream := smGet {} s.streams (256 * v + st)

/-- Replace a stream. -/
def State.setStream (s : State) (v st : Nat) (x : Stream) : State := { s with streams := smSet {} s.streams (256 * v + st) x }

/-- The number of events that fill a window. -/
def State.winSize (s : State) : Nat := 2 ^ s.fld TWIN_CFG.WLOG

/-- Form the record of a closed window whose events are all hashed (20 R598). -/
def Stream.form (x : Stream) (w size : Nat) : Stream × Bool :=
  let (n, sg) := smGet (0, 0) x.acc w
  if w < x.num ∧ n = (smFind x.shorts w).getD size then
    ({ x with acc := smDel x.acc w, shorts := smDel x.shorts w, recs := x.recs ++ [(w % 2 ^ 32, n, sg)] }, true)
  else (x, false)

/-- Form a record in the state. -/
def State.formRec (s : State) (v st w size : Nat) : State :=
  let (x, f) := (s.stream v st).form w size
  if f then (s.setStream v st x).bump TWIN_PC_REC else s

/-- Add a hash to a window. -/
def Stream.hash (x : Stream) (w : Nat) (h : Dword) : Stream :=
  let (n, sg) := smGet (0, 0) x.acc w
  { x with acc := smSet (0, 0) x.acc w (n + 1, sg + h) }

/-- Sign an event of a stream: it is counted and hashed in the current window, which closes when it is full. -/
def State.sign (s : State) (v st : Nat) (h : Dword) : State :=
  if !s.signOn then s
  else
    let x := s.stream v st
    let w := x.num
    let x := x.hash w h
    let full := s.winSize ≤ x.count + 1
    let s := s.setStream v st (if full then { x with num := w + 1, count := 0 } else { x with count := x.count + 1 })
    if full then s.formRec v st w s.winSize else s

/-- The boundary event of a stream: its window closes, with no record where it holds no event (20 R596). -/
def State.signClose (s : State) (v st : Nat) : State :=
  let x := s.stream v st
  if !s.signOn ∨ x.count = 0 then s
  else
    let s := s.setStream v st { x with num := x.num + 1, count := 0, shorts := smPut x.shorts x.num x.count }
    s.formRec v st x.num s.winSize

/-- Count `n` events into the windows of a stream, to be hashed later: the destination lines of a descriptor (20 R596). -/
def State.signAhead (s : State) (v st n : Nat) : State × Option SignPos :=
  if !s.signOn ∨ n = 0 then (s, none)
  else
    let x := s.stream v st
    let sz := s.winSize
    (s.setStream v st { x with num := x.num + (x.count + n) / sz, count := (x.count + n) % sz },
     some ⟨st, x.num, x.count, sz⟩)

/-- Hash the i-th of the events that were counted ahead. -/
def State.signLate (s : State) (v : Nat) (p : SignPos) (i : Nat) (h : Dword) : State :=
  if !s.signOn then s
  else
    let w := p.num + (p.count + i) / p.size
    (s.setStream v p.stream ((s.stream v p.stream).hash w h)).formRec v p.stream w p.size

/-- Does a stream wait for a record to be accepted (20 R598)? -/
def State.signBlocked (s : State) (v st : Nat) : Bool := s.signOn && (s.stream v st).recs ≠ []

/-- Perform an act whose events are signed in a stream, or note that its source waits (20 R598). -/
def State.signed (s : State) (v st : Nat) (act : State → State) : State :=
  if s.signBlocked v st then
    (if s.twinWait.contains (256 * v + st) then s else { s with twinWait := s.twinWait ++ [256 * v + st] })
  else act s

end Sys2Proof.Machine
end

