-- ==== Sys2Proof/Machine/CoreOps.lean ====
section
/-! DEFINITION. The operations that every curd core instruction shares: the issue guard, traps and their delivery
(04 R122 to R126), retirement, local accesses through the store buffer (R128, R129). -/

namespace Sys2Proof.Machine

open Sys2Proof

/-- The trap causes (04 R122). -/
abbrev causeIllegal : Nat := 1
abbrev causeMisalign : Nat := 2
abbrev causeLocalRange : Nat := 3
abbrev causeBusError : Nat := 4
abbrev causeStoreError : Nat := 5
abbrev causeAccess : Nat := 6
abbrev causePageFault : Nat := 7
abbrev causeBreak : Nat := 8
abbrev causeMachineCheck : Nat := 9

/-- A trap: cause, sub-code, precise or not, faulting address, member index (04 R122, R124). -/
structure Trap where
  cause : Nat
  sub : Nat := 0
  precise : Bool := true
  addr : Nat := 0
  member : Nat := 0
  deriving DecidableEq, Repr

/-- Word 0 of the record (04 R124). -/
def Trap.word0 (t : Trap) (pc : BitVec 16) : Word :=
  BitVec.ofNat 32 (t.cause % 64 + (if t.precise then 64 else 0) + (t.sub % 256) * 2 ^ 8 + pc.toNat * 2 ^ 16)

/-- Word 3 of the record (04 R124). -/
def Trap.word3 (t : Trap) : Word := BitVec.ofNat 32 ((t.addr / 2 ^ 32) % 2 ^ 30 + (t.member % 4) * 2 ^ 30)

/-- Write the record to the CSRs and the core's registers (04 R125). -/
def State.trapRecord (s : State) (c : Nat) (t : Trap) (insn : Word) : State :=
  let w0 := t.word0 (s.core c).pc
  let lo := BitVec.ofNat 32 t.addr
  let s := s.updCore c (fun x => { x with tcause := w0, tinsn := insn, taddrlo := lo, taddrhi := t.word3 })
  let s := s.setReg VAT_CORE_TREC0 (insn ++ w0) (vatOf c) (idxOf c)
  s.setReg VAT_CORE_TREC1 (t.word3 ++ lo) (vatOf c) (idxOf c)

/-- Forget what the trapped or ended instruction was waiting for. -/
def CoreSt.idleWaits (x : CoreSt) : CoreSt := { x with blk := none, walk := none, wait := none, halting := false, partWait := false }

/-- The task of core `c` ends in `st` (06 R194): its target is free again, and its stream's window closes (20 R596). -/
def State.endTask (s : State) (c st : Nat) : State :=
  let s := s.signClose (vatOf c) (idxOf c)
  let s := match (s.core c).task with
    | some t => (s.setTask (vatOf c) t st 0).setFld VAT_TASK_CTL.ABORT 0 (vatOf c) t
    | none => s
  s.updCore c (fun x => { x.idleWaits with task := none, storeErrs := [] })

/-- The task ends `FAULTED` and the core raises its fault source (04 R125, 17 R521). -/
def State.taskFaulted (s : State) (c : Nat) : State :=
  let s := s.endTask c 7
  let v := vatOf c
  let s := s.setFld VAT_EV_CFAULT.CORE (s.fld VAT_EV_CFAULT.CORE v ||| 2 ^ idxOf c) v
  s.raiseVat v 0

/-- Take a trap at core `c` (04 R122 to R125). A machine check is counted and reported (04 R140, 12 R385). A page fault
suspends the task (13 R402). -/
def State.takeTrap (s : State) (c : Nat) (t : Trap) (insn : Word) : State :=
  let s := s.trapRecord c t insn
  let x := s.core c
  if t.cause = causePageFault then
    let s := match x.task with
      | some k => s.setTask (vatOf c) k 4 1
      | none => s
    s.updCore c (fun x => { x.idleWaits with wait := some (.page t.addr) })
  else
    let s := if t.cause = causeMachineCheck then
        (s.bumpErr VAT_CORE_ERR.MCHK (vatOf c) (idxOf c)).fault
          { cls := 5, part := s.partOf (vatOf c), unit := 1, inst := s.physLoc c, info := (t.word0 x.pc).toNat }
      else s
    if t.cause ≠ causeMachineCheck ∧ x.tvec.getLsbD 0 ∧ !x.inHandler then
      (s.updCore c (fun x => { x.idleWaits with tepc := x.pc.setWidth 32, inHandler := true, pc := x.tvec.setWidth 16 &&& 0xFFFC })).refill c
    else s.taskFaulted c

/-- A precise trap of the instruction word `w`. -/
def State.trapOn (s : State) (c : Nat) (w : Word) (cause : Nat) (sub : Nat := 0) (addr : Nat := 0) (m : Nat := 0) : State :=
  s.takeTrap c { cause := cause, sub := sub, addr := addr, member := m } w

/-- The instruction completes: it is counted (04 R141) and the next word follows (R107, R109). -/
def State.retire (s : State) (c : Nat) : State :=
  let s := s.bump VAT_CORE_PC_INSN (vatOf c) (idxOf c)
  (s.updCore c (fun x => { x with partWait := false })).advance c

/-- The instruction completes with a transfer of control to `pc`, which refills the fetch buffer (04 R109). -/
def State.retireTo (s : State) (c : Nat) (pc : BitVec 16) : State :=
  let s := s.bump VAT_CORE_PC_INSN (vatOf c) (idxOf c)
  (s.updCore c (fun x => { x with partWait := false, pc := pc })).refill c

/-- May core `c` issue an instruction now: its task runs, nothing blocks it, its cache is ready (04 R105, R138), its vat
is not resetting, the device is not fatal (12 R390), and a twin neither synchronises nor has diverged (20 R603,
R607)? -/
def State.canIssue (s : State) (c : Nat) : Bool :=
  let x := s.core c
  let running := match x.task with
    | some t => s.fld VAT_TASK_CTL.STATE (vatOf c) t = 3
    | none => false
  running && x.midx = 0 && x.blk.isNone && x.walk.isNone && x.wait.isNone && !x.halting
    && !s.bit VAT_CORE_STAT.CC_INIT (vatOf c) (idxOf c) && !s.fatal && !s.bit VAT_STAT.RESETTING (vatOf c)
    && !s.twinHeld

/-- Issue an instruction word at core `c` (04 R105, R122 to R126): nothing happens where the core cannot issue, where
the word at `PC` in the fetch buffer (R109) is another one (log 8), or where a register the instruction uses is the destination of a running `DIV`; a store error is taken at the boundary; an
injected register-file or fetch error is taken as a machine check; an illegal word traps with its lowest sub-code;
else the instruction acts. -/
def State.issue (s : State) (c : Nat) (w : Word) (uses : List (BitVec 5)) (ill : Option Nat) (act : State → State) : State :=
  if !s.canIssue c ∨ (s.core c).fbuf.head?.map Prod.fst ≠ some w then s
  else
    let x := s.core c
    match x.storeErrs with
    | e :: es =>
      (s.updCore c (fun x => { x with storeErrs := es })).takeTrap c
        { cause := causeStoreError, sub := e.sub, precise := false, addr := e.addr, member := e.member }
        ((x.fbuf.head?.map Prod.fst).getD w)
    | [] =>
      if (x.fbuf.head?.map Prod.snd).getD false then s.trapOn c w causeMachineCheck 2
      else
        match ill with
        | some sub => s.trapOn c w causeIllegal sub
        | none =>
          if x.div.any (fun d => d.1 ≠ 0 && uses.contains d.1) then s
          else
            let b := if uses.isEmpty then 0 else s.injBits c 1
            let s := s.useInj (vatOf c) b VAT_ECC0.CORR_RF
            if b = 2 then s.trapOn c w causeMachineCheck 1 else act s

/-- The lowest sub-code whose condition holds (04 R123). -/
def lowest (cs : List (Bool × Nat)) : Option Nat :=
  (cs.filter Prod.fst).foldl (fun acc e => match acc with
    | none => some e.2
    | some b => some (min b e.2)) none

/-- Is a register index odd? -/
def oddReg {n : Nat} (r : BitVec n) : Bool := r.toNat % 2 = 1

/-! ### Local addresses and the store buffer -/

/-- The sum s[rs1] + sext(imm), modulo 2^32 (04 R114). -/
def localAddr (x : CoreSt) (rs1 : BitVec 5) (imm : BitVec 16) : Nat := (x.s rs1 + imm.signExtend 32).toNat

/-- The checks of a local access of `n` bytes (04 R114): range before alignment, in the order the rule states them
(log 14). -/
def localCheck (a n : Nat) : Option Nat :=
  if a > 0xFFFF then some causeLocalRange else if a % n ≠ 0 then some causeMisalign else none

/-- The bytes [o, o + n) of a line as a mask. -/
def byteMask (o n : Nat) : Mask := (BitVec.ofNat 64 (2 ^ n - 1)) <<< o

/-- Data of `n` bytes placed at byte `o` of a line. -/
def placeAt (o : Nat) (d : Nat) : Line := (BitVec.ofNat 512 d) <<< (8 * o)

/-- `n` bytes of a line from byte `o`. -/
def takeAt (d : Line) (o n : Nat) : Nat := bvBits d (8 * o) (8 * n)

/-- How a load meets the store buffer (04 R129). -/
inductive SbHit where
  | miss
  | covered (d : Line)
  | part
  deriving DecidableEq, Repr

/-- The youngest buffered store of the same address kind that overlaps the bytes of `line` in `m` (04 R129, R130). -/
def sbLookup (x : CoreSt) (far : Bool) (line : Nat) (m : Mask) : SbHit :=
  match x.sb.reverse.find? (fun e => e.far = far && e.line = line && e.mask &&& m ≠ 0) with
  | none => .miss
  | some e => if e.mask &&& m = m then .covered e.data else .part

/-- The wait of R129: counted once, then the core issues the load again after a drain. -/
def State.partialWait (s : State) (c : Nat) : State :=
  if (s.core c).partWait then s
  else (s.updCore c (fun x => { x with partWait := true })).bump VAT_CORE_PC_PARTIAL (vatOf c) (idxOf c)

/-- The line of a core store at an offset. -/
def State.csLine (s : State) (c line : Nat) : Line := BitVec.ofNat 512 (Memory.read s.mem (csBase c + 64 * line) 64)

/-- A load of `n` bytes at a checked local address of core `m`: none while it waits for a drain (04 R129). -/
def localLoad (s : State) (m a n : Nat) : Option Nat :=
  match sbLookup (s.core m) false (a / 64) (byteMask (a % 64) n) with
  | .miss => some (Memory.read s.mem (csBase m + a) n)
  | .covered d => some (takeAt d (a % 64) n)
  | .part => none

/-- A core-store access of core `m` by its data port meets an armed injection (12 R383): the bits flipped, and the
state after. -/
def State.csAccess (s : State) (m : Nat) : Nat × State :=
  let b := s.injBits m 0
  (b, s.useInj (vatOf m) b VAT_ECC0.CORR_CS)

/-- Put a store into the store buffer of core `m` (04 R128). -/
def State.pushSb (s : State) (m : Nat) (e : SbEntry) : State := s.updCore m (fun x => { x with sb := x.sb ++ [e] })

/-- Is the store buffer of core `m` full (04 R128)? -/
def State.sbFull (s : State) (m : Nat) : Bool := 8 ≤ (s.core m).sb.length

/-- A load of `n` bytes at local address `a`: checks, forwarding, then `put` writes the result and the instruction
completes (04 R114, R129). -/
def State.loadLocal (s : State) (c : Nat) (w : Word) (a n : Nat) (put : Nat → CoreSt → CoreSt) : State :=
  match localCheck a n with
  | some cause => s.trapOn c w cause 0 a
  | none =>
    match localLoad s c a n with
    | none => s.partialWait c
    | some d =>
      let (b, s) := s.csAccess c
      if b = 2 then s.trapOn c w causeMachineCheck 3 a
      else (s.updCore c (put d)).retire c

/-- A store of `n` bytes at local address `a` (04 R114, R128). -/
def State.storeLocal (s : State) (c : Nat) (w : Word) (a n : Nat) (d : Nat) : State :=
  match localCheck a n with
  | some cause => s.trapOn c w cause 0 a
  | none =>
    if s.sbFull c then s
    else (s.pushSb c { far := false, line := a / 64, mask := byteMask (a % 64) n, data := placeAt (a % 64) (d % 2 ^ (8 * n)) }).retire c

end Sys2Proof.Machine
end

