-- ==== Sys2Proof/Machine/Curd.lean ====
section
/-! DEFINITION. The curd cache and its side buffer (04 R131 to R139), and how a far access of a core finds its global
address (13 R392, R396 to R403). -/

namespace Sys2Proof.Machine

open Sys2Proof

/-! ### The curd cache -/

/-- The classes that allocate (04 R132). -/
inductive CacheClass where
  | d | p | l | z
  deriving DecidableEq, Repr

/-- The mask of a class (04 R132). -/
def State.ccMask (s : State) (c : Nat) (k : CacheClass) : Nat :=
  match k with
  | .d => s.fld VAT_CC_MASK_D.MASK (vatOf c) (idxOf c)
  | .p => s.fld VAT_CC_MASK_P.MASK (vatOf c) (idxOf c)
  | .l => s.fld VAT_CC_MASK_L.MASK (vatOf c) (idxOf c)
  | .z => s.fld VAT_CC_MASK_Z.MASK (vatOf c) (idxOf c)

/-- An entry of the cache. -/
def CoreSt.ent (x : CoreSt) (i : Nat) : CacheEnt := smGet {} x.cache i

/-- Replace an entry of the cache. -/
def CoreSt.setEnt (x : CoreSt) (i : Nat) (e : CacheEnt) : CoreSt := { x with cache := smSet {} x.cache i e }

/-- The entry that holds a line. -/
def CoreSt.findLine (x : CoreSt) (line : Nat) : Option Nat :=
  (x.cache.find? (fun e => e.2.valid && e.2.line = line)).map Prod.fst

/-- The entries of a mask, lowest first. -/
def maskEnts (mask : Nat) : List Nat := (List.range 48).filter (fun i => mask.testBit i)

/-- Age every non-pending entry of the mask by one, saturating at 3 (04 R133 step 3). -/
def CoreSt.ageAll (x : CoreSt) (mask : Nat) : CoreSt :=
  (maskEnts mask).foldl (fun x i =>
    let e := x.ent i
    if e.pending then x else x.setEnt i { e with age := min (e.age + 1) 3 }) x

/-- Steps 2 and 3 of R133, at most `fuel` agings. -/
def CoreSt.pickOld (x : CoreSt) (mask : Nat) : Nat → Option (Nat × CoreSt)
  | 0 => none
  | fuel + 1 =>
    match (maskEnts mask).find? (fun i => (x.ent i).age = 3 && !(x.ent i).pending) with
    | some i => some (i, x)
    | none => (x.ageAll mask).pickOld mask fuel

/-- The entry that an allocation takes and the cache after aging (04 R133); none where every entry of the mask is
pending. -/
def CoreSt.pick (x : CoreSt) (mask : Nat) : Option (Nat × CoreSt) :=
  match (maskEnts mask).find? (fun i => !(x.ent i).valid) with
  | some i => some (i, x)
  | none => x.pickOld mask 5

/-- `MC_TSC`[31:0] as a vat reads it where the spec compares times (02 R56): the model's copies do not lag there. -/
def State.tsc32 (s : State) : Nat := s.fld MC_TSC.COUNT % 2 ^ 32

/-- Does a TLB entry cover an address? -/
def TlbEnt.covers (e : TlbEnt) (va : Nat) : Bool :=
  if e.big then e.vpage / 32 = va / 2 ^ 30 else e.vpage = va / 2 ^ 25

/-- The global address of a virtual address in the entry's page (13 R394). -/
def TlbEnt.target (e : TlbEnt) (va : Nat) : Dword :=
  e.ga + BitVec.ofNat 64 (if e.big then va % 2 ^ 30 else va % 2 ^ 25)

/-- The vat TLB entry that covers an address. -/
def State.tlbFind (s : State) (v va : Nat) : Option (Nat × TlbEnt) :=
  s.tlb.find? (fun e => e.1 / 256 = v && e.2.covers va)

/-- How an allocation ends. -/
inductive Alloc where
  | done (s : State)
  | wait
  | noAlloc

/-- Install a line (04 R132, R133): an entry that already holds it takes the data; else an entry is allocated, and a
replaced line is offered as a victim (R137), under the global address that the vat TLB gives it; an offer without a
translation there is declined (log 17). -/
def State.install (s : State) (c : Nat) (k : CacheClass) (e : CacheEnt) : Alloc :=
  let x := s.core c
  match x.findLine e.line with
  | some i => .done (s.setCore c (x.setEnt i { e with drop := (x.ent i).drop && e.pending }))
  | none =>
    let mask := s.ccMask c k
    if mask = 0 then .noAlloc
    else
      match x.pick mask with
      | none => .wait
      | some (i, x) =>
        let o := x.ent i
        let s := s.setCore c (x.setEnt i e)
        if o.valid && !o.pending && s.bit VAT_CORE_CTL.VICTIM_EN (vatOf c) (idxOf c) && !(o.streaming && !o.hit) then
          let s := s.bump VAT_CORE_PC_VICTIM (vatOf c) (idxOf c)
          match s.tlbFind (vatOf c) (o.line * 64) with
          | some (_, t) => .done (s.send (.victim c (t.target (o.line * 64)) o.data o.rtime))
          | none => .done (s.bump VAT_CORE_PC_DECLINE (vatOf c) (idxOf c))
        else .done s

/-- Invalidate the entries that a test picks and that are not pending; a pending one goes with its zero-fill when
`drop` says so (04 R136, R138). -/
def CoreSt.invalidate (x : CoreSt) (p : CacheEnt → Bool) (drop : Bool) : CoreSt :=
  (List.range 48).foldl (fun x i =>
    let e := x.ent i
    if e.valid && p e then
      (if e.pending then (if drop then x.setEnt i { e with drop := true } else x) else x.setEnt i {})
    else x) x

/-- Remove the side-buffer lines that a test picks; their prefetches in flight are not installed (04 R134, R139). -/
def CoreSt.clearSide (x : CoreSt) (p : Nat → Bool) : CoreSt :=
  { x with side := x.side.filter (fun e => !p e.1), pref := x.pref.filter (fun l => !p l.1) }

/-- Put a line into the side buffer, first in first out over 4 lines (04 R134). -/
def CoreSt.pushSide (x : CoreSt) (line : Nat) (d : Line) (time : Nat) : CoreSt :=
  let q := x.side ++ [(line, d, time)]
  { x with side := q.drop (q.length - 4) }

/-- How a far load meets its own caches (04 R131, R134, R136). -/
inductive CcLook where
  | hit (d : Line) (s : State)
  | mchk (s : State)
  | miss (s : State)

/-- Look a line up in the curd cache of core `c`; `parity` says that the look-up meets a parity error (R136): a
non-pending entry is invalidated and counted and the access misses; a pending one is a machine check and goes with its
zero-fill. -/
def State.ccLook (s : State) (c line : Nat) (parity : Bool) : CcLook :=
  let x := s.core c
  match x.findLine line with
  | none => .miss s
  | some i =>
    let e := x.ent i
    if parity then
      if e.pending then .mchk (s.setCore c (x.setEnt i { e with drop := true }))
      else .miss ((s.setCore c (x.setEnt i {})).bumpErr VAT_CORE_ERR.CC_PAR (vatOf c) (idxOf c))
    else .hit e.data (s.setCore c (x.setEnt i { e with age := 0, hit := true }))

/-! ### Translation (13) -/

/-- The first virtual address of the register window (13 R392). -/
def regWindow : Nat := 0xFFFF00000000

/-- Does a register-map entry of partition `p` map this register-space offset for this access (13 R392, 03 R91)? -/
def State.regmapOk (s : State) (p off : Nat) (write : Bool) : Bool :=
  s.img.regmap.any (fun e => e.part = p && e.offset = off / 65536 * 65536 && (e.rw || !write))

/-- Remove vat TLB entries that a test picks, with their micro-TLB copies (13 R398). -/
def State.tlbRemove (s : State) (v : Nat) (p : TlbEnt → Bool) : State :=
  let gone := (s.tlb.filter (fun e => e.1 / 256 = v && p e.2)).map (fun e => e.1)
  { s with
    tlb := s.tlb.filter (fun e => !gone.contains e.1)
    micro := (s.micro.map (fun e => if e.1 / 4 = v then (e.1, e.2.filter (fun i => !gone.contains i)) else e)).filter
      (fun e => e.2 ≠ []) }

/-- Install a translation in the vat TLB (13 R397). -/
def State.tlbFill (s : State) (v : Nat) (e : TlbEnt) : State :=
  let s := s.tlbRemove v (fun o => o.vpage = e.vpage && o.big = e.big)
  let key := fun i => 256 * v + i
  match (List.range 256).find? (fun i => (smFind s.tlb (key i)).isNone) with
  | some i => { s with tlb := smPut s.tlb (key i) e }
  | none =>
    match (List.range 256).find? (fun i => (smFind s.tlb (key i)).any (fun o => !o.ref)) with
    | some i => { s with tlb := smPut s.tlb (key i) e }
    | none =>
      let m := s.tlb.map (fun o => if o.1 / 256 = v then (o.1, { o.2 with ref := false }) else o)
      { s with tlb := smPut m (key 0) e }

/-- Ask for a walk (13 R400): merged into a walk of the same partition and 32 MiB page, else queued; none while the
queue of 64 is full. -/
def State.walkRequest (s : State) (v p : Nat) (r : WalkReq) : Option State :=
  let page := r.va / 2 ^ 25
  let open' := fun (w : Walk) => w.part = p && w.vpage = page && (match w.stage with | .done _ => false | _ => true)
  let s := s.bump VAT_TLB_PC_MISS v
  if s.walks.any open' then
    some ({ s with walks := s.walks.map (fun w => if open' w then { w with reqs := w.reqs ++ [r] } else w) }.bump XLT_PC_MERGE)
  else if 64 ≤ (s.walks.filter (fun w => w.stage = .queued)).length then none
  else some { s with walks := s.walks ++ [{ vat := v, part := p, vpage := page, reqs := [r] }] }

/-- How a virtual address translates (13 R392, R397, R399): a global address, a register-space offset, a refusal
(`ACCESS`), a page fault with its reason, or a TLB miss. -/
inductive Xlate where
  | ga (a : Dword) (s : State)
  | reg (off : Nat)
  | deny
  | fault (reason : Nat) (s : State)
  | miss
  | noPart

/-- Translate at a vat. A hit sets the reference bit; a write to a page with `W` = 0 faults and removes the entry. -/
def State.xlate (s : State) (v va : Nat) (write : Bool) : Xlate :=
  match s.partOf v with
  | none => .noPart
  | some p =>
    if regWindow ≤ va then
      if s.regmapOk p (va - regWindow) write then .reg (va - regWindow) else .deny
    else
      match s.tlbFind v va with
      | none => .miss
      | some (i, e) =>
        if write && !e.w then .fault 1 (s.tlbRemove v (fun o => o = e))
        else .ga (e.target va) ({ s with tlb := smPut s.tlb i { e with ref := true } }.bump VAT_TLB_PC_HIT v)

/-- Write an `XLT_FAULT` record to the partition's ring (13 R402 to R404, R414). -/
def State.xltFault (s : State) (p unit inst va reason info : Nat) : State :=
  (s.faultRing p { cls := 0x20, sub := reason, part := some p, unit := unit, inst := inst, addr := BitVec.ofNat 64 va
                   info := info }).bump XLT_PC_FAULT

/-- The `INFO` of a core's record: task ID, requester 0, write (13 R403). -/
def State.coreXltInfo (s : State) (c : Nat) (write : Bool) : Nat :=
  256 * vatOf c + ((s.core c).task.getD 0) + (if write then 2 ^ 16 else 0)

/-- A page fault of a core's access (13 R402): the record goes to the ring and the task is suspended. -/
def State.corePageFault (s : State) (c : Nat) (w : Word) (va reason : Nat) (write : Bool) (m : Nat) : State :=
  let s := match s.partOf (vatOf c) with
    | some p => s.xltFault p 1 (s.physLoc c) va reason (s.coreXltInfo c write)
    | none => s
  s.trapOn c w causePageFault 0 va m

/-- Where a far access of a core stands: it goes to a global address, it is a register access, it trapped, or the
core waits for a walk. -/
inductive Far where
  | ga (a : Dword) (s : State)
  | reg (off : Nat)
  | ended (s : State)

/-- The address of a far access of the member `m` of leader `c` (13 R392, R400, R402). A miss asks for a walk and holds
the core; the instruction is issued again after the result. -/
def State.farAddr (s : State) (c : Nat) (w : Word) (va : Nat) (write : Bool) (m : Nat) : Far :=
  match s.xlate (vatOf c) va write with
  | .ga a s => .ga a s
  | .reg off => .reg off
  | .deny => .ended (s.trapOn c w causeAccess 0 va m)
  | .noPart => .ended (s.trapOn c w causeAccess 0 va m)
  | .fault r s => .ended (s.corePageFault c w va r write m)
  | .miss =>
    match (s.partOf (vatOf c)).bind (fun p => s.walkRequest (vatOf c) p ⟨.core c, va, write, false⟩) with
    | none => .ended s
    | some s => .ended (s.updCore c (fun x => { x with walk := some (va, write, m, w) }))

/-- The far address pair(rs1) + sext(imm), modulo 2^64 (04 R114). -/
def farSum (x : CoreSt) (rs1 : BitVec 5) (imm : BitVec 16) : Nat := (x.pair rs1 + imm.signExtend 64).toNat

/-- The checks of a far address (04 R114): bits [63:48] before alignment (log 14). -/
def farCheck (a n : Nat) : Option (Nat × Nat) :=
  if 2 ^ 48 ≤ a then some (causeAccess, 1) else if a % n ≠ 0 then some (causeMisalign, 0) else none

/-- The device physical address of a register-space offset (01 R35). -/
def regSpace (off : Nat) : Dword := BitVec.ofNat 64 (0x430000000 + off)

end Sys2Proof.Machine
end

