-- ==== Sys2Proof/Machine/Scalar.lean ====
section
/-! DEFINITION. The scalar instructions of the curd core: arithmetic, local loads and stores, branches, control and
status registers, system operations (04 R103 to R130). -/

namespace Sys2Proof.Machine

open Sys2Proof

/-- The 41 major opcodes of R114. -/
def definedMajor (op : Nat) : Bool :=
  (1 ≤ op && op ≤ 0x0C) || (0x10 ≤ op && op ≤ 0x14) || (0x18 ≤ op && op ≤ 0x24) || (0x28 ≤ op && op ≤ 0x2B)
    || (0x30 ≤ op && op ≤ 0x36)

/-- The trap of a word that is no instruction (04 R114, R115, R123): sub-code 0 for an undefined major opcode, 1 for an
undefined function code of an opcode whose functions are instructions of their own; none for any other word. -/
def undefWord (w : Word) : Option Nat :=
  let op := bvBits w 26 6
  let top := fun (n lo width : Nat) => if n ≤ bvBits w lo width then some 1 else none
  if !definedMajor op then some 0
  else match op with
    | 0x14 => top 4 22 4
    | 0x28 => top 2 0 3
    | 0x2A => top 5 0 3
    | 0x30 => top 3 0 6
    | 0x31 => top 2 0 6
    | 0x32 => top 4 0 6
    | 0x33 => top 1 0 6
    | 0x34 => top 10 0 6
    | 0x36 => top 8 0 6
    | _ => none

/-- `UNDEFINED_OPCODE` (04 R123). -/
def execUndefinedOpcode (c : CoreId) (w : Word) (s : State) : Host.Outcome State Fault Refusal :=
  .next (match undefWord w with
    | none => s
    | some sub => s.issue c w [] (some sub) id)

/-- The operation of an `ALU` function code (04 R115); none for an undefined one. -/
def aluOp (fn : Nat) (a b : Word) : Option Word :=
  match fn with
  | 0x00 => some (a + b)
  | 0x01 => some (a - b)
  | 0x02 => some (a &&& b)
  | 0x03 => some (a ||| b)
  | 0x04 => some (a ^^^ b)
  | 0x05 => some (a <<< (b.toNat % 32))
  | 0x06 => some (a >>> (b.toNat % 32))
  | 0x07 => some (a.sshiftRight (b.toNat % 32))
  | 0x08 => some (if a.slt b then 1 else 0)
  | 0x09 => some (if a.ult b then 1 else 0)
  | 0x0A => some (if a.slt b then a else b)
  | 0x0B => some (if a.slt b then b else a)
  | 0x0C => some (if a.ult b then a else b)
  | 0x0D => some (if a.ult b then b else a)
  | 0x0E => some (a * b)
  | 0x0F => some (BitVec.ofInt 32 ((a.toInt * b.toInt) / 2 ^ 32))
  | 0x10 => some (BitVec.ofNat 32 ((a.toNat * b.toNat) / 2 ^ 32))
  | _ => none

/-- `ALU` (04 R114, R115). -/
def execAlu (c : CoreId) (r : RArg) (fn : BitVec 6) (s : State) : Host.Outcome State Fault Refusal :=
  let x := s.core c
  let res := aluOp fn.toNat (x.s r.rs1) (x.s r.rs2)
  .next (s.issue c (encR 0x01 r fn) [r.rd, r.rs1, r.rs2] (lowest [(res.isNone, 1), (r.fx ≠ 0, 2)])
    (fun s => (s.updCore c (fun x => x.setS r.rd (res.getD 0))).retire c))

/-- An immediate operation on one scalar register. -/
def immOp (c : Nat) (op : BitVec 6) (a : IArg) (ill : Option Nat) (f : Word → Word) (s : State) : State :=
  s.issue c (encI op a) [a.rd, a.rs1] ill (fun s => (s.updCore c (fun x => x.setS a.rd (f (x.s a.rs1)))).retire c)

/-- `ADDI` (04 R114). -/
def execAddi (c : CoreId) (a : IArg) (s : State) : Host.Outcome State Fault Refusal :=
  .next (immOp c 0x02 a none (fun x => x + a.imm.signExtend 32) s)

/-- `ANDI` (04 R114). -/
def execAndi (c : CoreId) (a : IArg) (s : State) : Host.Outcome State Fault Refusal :=
  .next (immOp c 0x03 a none (fun x => x &&& a.imm.zeroExtend 32) s)

/-- `ORI` (04 R114). -/
def execOri (c : CoreId) (a : IArg) (s : State) : Host.Outcome State Fault Refusal :=
  .next (immOp c 0x04 a none (fun x => x ||| a.imm.zeroExtend 32) s)

/-- The shift of `SHI`: `imm[6:5]` selects it, `imm[4:0]` is the amount (04 R114). -/
def shiOp (imm : BitVec 16) (x : Word) : Word :=
  let n := bvBits imm 0 5
  match bvBits imm 5 2 with
  | 0 => x <<< n
  | 1 => x >>> n
  | _ => x.sshiftRight n

/-- `SHI` (04 R114): shift kind 3 and `imm[15:7]` are reserved. -/
def execShi (c : CoreId) (a : IArg) (s : State) : Host.Outcome State Fault Refusal :=
  .next (immOp c 0x05 a (lowest [(bvBits a.imm 5 2 = 3 || bvBits a.imm 7 9 ≠ 0, 2)]) (shiOp a.imm) s)

/-- `LUI` (04 R114): `rs1` is reserved. -/
def execLui (c : CoreId) (a : IArg) (s : State) : Host.Outcome State Fault Refusal :=
  .next (s.issue c (encI 0x06 a) [a.rd] (lowest [(a.rs1 ≠ 0, 2)])
    (fun s => (s.updCore c (fun x => x.setS a.rd (a.imm.zeroExtend 32 <<< 16))).retire c))

/-- The result of a `DIV` function code (04 R115): rounding toward zero, with the corners of divisor 0 and of
−2^31 ÷ −1. -/
def divOp (fn : Nat) (a b : Word) : Word :=
  match fn with
  | 0 => if b = 0 then 0xFFFFFFFF else BitVec.ofInt 32 (a.toInt.tdiv b.toInt)
  | 1 => if b = 0 then 0xFFFFFFFF else a / b
  | 2 => if b = 0 then a else BitVec.ofInt 32 (a.toInt.tmod b.toInt)
  | _ => if b = 0 then a else a % b

/-- `DIV` (04 R105, R106, R115): it starts, and later instructions that do not use its destination issue. A second one
waits for the first. -/
def execDiv (c : CoreId) (r : RArg) (fn : BitVec 6) (s : State) : Host.Outcome State Fault Refusal :=
  let x := s.core c
  .next (s.issue c (encR 0x07 r fn) [r.rd, r.rs1, r.rs2] (lowest [(3 < fn.toNat, 1), (r.fx ≠ 0, 2)])
    (fun s => if x.div.isSome then s
      else (s.updCore c (fun x => { x with div := some (r.rd, divOp fn.toNat (x.s r.rs1) (x.s r.rs2)) })).retire c))

/-- `DIV_COMPLETE` (04 R105): the running division writes its destination. -/
def execDivComplete (c : CoreId) (s : State) : Host.Outcome State Fault Refusal :=
  .next (match (s.core c).div with
    | some (rd, q) => s.updCore c (fun x => { x.setS rd q with div := none })
    | none => s)

/-! ### Local loads and stores -/

/-- `LW` (04 R114, R129). -/
def execLw (c : CoreId) (a : IArg) (s : State) : Host.Outcome State Fault Refusal :=
  let w := encI 0x08 a
  .next (s.issue c w [a.rd, a.rs1] none (fun s =>
    s.loadLocal c w (localAddr (s.core c) a.rs1 a.imm) 4 (fun d x => x.setS a.rd (BitVec.ofNat 32 d))))

/-- `SW` (04 R114, R128). -/
def execSw (c : CoreId) (a : SArg) (s : State) : Host.Outcome State Fault Refusal :=
  let w := encS 0x09 a
  .next (s.issue c w [a.rs1, a.rs2] none (fun s =>
    s.storeLocal c w (localAddr (s.core c) a.rs1 a.imm) 4 ((s.core c).s a.rs2).toNat))

/-- `LSUB` (04 R115): byte or halfword load or store at s[rs1]. -/
def execLsub (c : CoreId) (r : RArg) (fn : BitVec 6) (s : State) : Host.Outcome State Fault Refusal :=
  let w := encR 0x0A r fn
  let store := fn.getLsbD 3
  let sgn := fn.getLsbD 2
  let size := bvBits fn 4 2
  let n := 2 ^ size
  let bad := 2 ≤ size || (store && sgn) || bvBits fn 0 2 ≠ 0
  let res := r.fx ≠ 0 || (if store then r.rd ≠ 0 else r.rs2 ≠ 0)
  .next (s.issue c w (if store then [r.rs1, r.rs2] else [r.rd, r.rs1]) (lowest [(bad, 1), (res, 2)]) (fun s =>
    let a := ((s.core c).s r.rs1).toNat
    if store then s.storeLocal c w a n ((s.core c).s r.rs2).toNat
    else s.loadLocal c w a n (fun d x =>
      x.setS r.rd (if sgn then BitVec.ofInt 32 (sextNat d (8 * n)) else BitVec.ofNat 32 d))))

/-- `STORE_BUFFER_DRAIN` (04 R128, R131, R135): the head entry of the buffer of core `c` goes to its core store, or to
the network with a request that its acknowledgement is tracked for. A far store that hits the curd cache updates the
line. -/
def drainSb (c : Nat) (s : State) : State :=
  let x := s.core c
  match x.sb with
  | [] => s
  | e :: rest =>
    if e.far then
      let x := { x with sb := rest, nextTag := x.nextTag + 1, outst := x.outst ++ [⟨x.nextTag, e.zero, e.line⟩] }
      let x := match (if e.reg = 0 && !e.zero then x.findLine e.line else none) with
        | some i =>
          let o := x.ent i
          let merged := (List.range 64).foldl (fun (d : Line) k =>
            if e.mask.getLsbD k then (d &&& ~~~placeAt k 255) ||| placeAt k (takeAt e.data k 1) else d) o.data
          x.setEnt i { o with data := merged }
        | none => x
      let op : MemOp :=
        if e.reg ≠ 0 then .regWrite e.reg (BitVec.ofNat 64 (takeAt e.data (e.ga.toNat % 64) (min e.reg 8)))
        else if e.zero then .zero else .write e.mask e.data
      (s.setCore c x).send (.req (.core c) (16 + (x.nextTag - 1)) e.ga op)
    else
      { s.setCore c { x with sb := rest } with
        mem := Memory.write s.mem (csBase c + 64 * e.line) e.mask.toNat e.data.toNat 64 }

/-- `STORE_BUFFER_DRAIN` (04 R128). -/
def execStoreBufferDrain (c : CoreId) (s : State) : Host.Outcome State Fault Refusal := .next (drainSb c s)

/-! ### Branches (04 R114) -/

/-- The condition of a branch. -/
def brTaken (op : BrOp) (a b : Word) : Bool :=
  match op with
  | .beq => a = b
  | .bne => a ≠ b
  | .blt => a.slt b
  | .bge => !a.slt b
  | .bltu => a.ult b
  | .bgeu => !a.ult b

/-- PC + 4·sext(off), in 16 bits. -/
def pcRel {n : Nat} (pc : BitVec 16) (off : BitVec n) : BitVec 16 := pc + (off.signExtend 32 <<< 2).setWidth 16

/-- `BRANCH` (04 R114). -/
def execBranch (c : CoreId) (op : BrOp) (rs1 rs2 : BitVec 5) (off : BitVec 16) (s : State) :
    Host.Outcome State Fault Refusal :=
  .next (s.issue c (encB (brCode op) rs1 rs2 off) [rs1, rs2] none (fun s =>
    let x := s.core c
    if brTaken op (x.s rs1) (x.s rs2) then s.retireTo c (pcRel x.pc off) else s.retire c))

/-- `JAL` (04 R114): the link address goes to `s31`. -/
def execJal (c : CoreId) (off : BitVec 26) (s : State) : Host.Outcome State Fault Refusal :=
  .next (s.issue c (encJ 0x1E off) [31] none (fun s =>
    let pc := (s.core c).pc
    (s.updCore c (fun x => x.setS 31 ((pc + 4).zeroExtend 32))).retireTo c (pcRel pc off)))

/-- `JALR` (04 R114): a target that is not a multiple of 4 is `MISALIGN`, one above 0xFFFF is `LOCAL_RANGE` (log 14). -/
def execJalr (c : CoreId) (a : IArg) (s : State) : Host.Outcome State Fault Refusal :=
  let w := encI 0x1F a
  .next (s.issue c w [a.rd, a.rs1] none (fun s =>
    let x := s.core c
    let t := localAddr x a.rs1 a.imm
    if t % 4 ≠ 0 then s.trapOn c w causeMisalign 0 t
    else if t > 0xFFFF then s.trapOn c w causeLocalRange 0 t
    else (s.updCore c (fun x => x.setS a.rd ((x.pc + 4).zeroExtend 32))).retireTo c (BitVec.ofNat 16 t)))

/-! ### Control and status registers (04 R121) -/

/-- A CSR as it reads; none where the number is undefined. -/
def csrRead (c : Nat) (x : CoreSt) (n : Nat) : Option Word :=
  match n with
  | 0x000 => some (x.fflags.setWidth 32)
  | 0x001 => some (x.frm.setWidth 32)
  | 0x002 => some x.fseed
  | 0x003 => some x.ptag
  | 0x010 => some x.tvec
  | 0x011 => some x.tepc
  | 0x012 => some x.tcause
  | 0x013 => some x.tinsn
  | 0x014 => some x.taddrlo
  | 0x015 => some x.taddrhi
  | 0x016 => some (if x.inHandler then 1 else 0)
  | 0x020 => some (BitVec.ofNat 32 c)
  | 0x021 => some (x.member.setWidth 32)
  | _ => none

/-- Is a CSR read-only? -/
def csrRo (n : Nat) : Bool := 0x012 ≤ n

/-- May this value be left in the CSR? Reserved bits and the reserved values of `FRM` may not. -/
def csrOk (n : Nat) (v : Word) : Bool :=
  match n with
  | 0x000 => v.toNat < 2 ^ 7
  | 0x001 => v.toNat ≤ 4
  | 0x003 => v.toNat < 2 ^ 24
  | 0x010 => v.toNat < 2 ^ 16 && !v.getLsbD 1
  | 0x011 => v.toNat < 2 ^ 16 && v.toNat % 4 = 0
  | _ => true

/-- Write a CSR; a write of `FSEED` zeroes the stochastic counter (05 R165). -/
def csrWrite (x : CoreSt) (n : Nat) (v : Word) : CoreSt :=
  match n with
  | 0x000 => { x with fflags := v.setWidth 7 }
  | 0x001 => { x with frm := v.setWidth 3 }
  | 0x002 => { x with fseed := v, k := 0 }
  | 0x003 => { x with ptag := v }
  | 0x010 => { x with tvec := v }
  | 0x011 => { x with tepc := v }
  | _ => x

/-- The value a CSR operation leaves: 0 write, 1 set, 2 clear. -/
def csrNew (op : Nat) (old v : Word) : Word :=
  match op with
  | 0 => v
  | 1 => old ||| v
  | _ => old &&& ~~~v

/-- `CSR` (04 R121, R123). -/
def execCsr (c : CoreId) (a : IArg) (s : State) : Host.Outcome State Fault Refusal :=
  let x := s.core c
  let n := bvBits a.imm 0 12
  let op := bvBits a.imm 14 2
  let old := csrRead c x n
  let new := csrNew op (old.getD 0) (x.s a.rs1)
  let ill := lowest [(bvBits a.imm 12 2 ≠ 0 || (op = 3 && a.rs1 ≠ 0), 2), (old.isNone, 5),
    (old.isSome && op ≠ 3 && csrRo n, 6), (old.isSome && op ≠ 3 && !csrRo n && !csrOk n new, 2)]
  .next (s.issue c (encI 0x35 a) [a.rd, a.rs1] ill (fun s =>
    (s.updCore c (fun x => (if op = 3 then x else csrWrite x n new).setS a.rd (old.getD 0))).retire c))

/-! ### System operations -/

/-- Fields that a `SYS` row does not use are reserved (04 R113, R115). -/
def resR (r : RArg) : Bool := r.rd ≠ 0 || r.rs1 ≠ 0 || r.rs2 ≠ 0 || r.fx ≠ 0

/-- `SYNC.I` (04 R112): it waits until the store buffer is empty, then refills from PC + 4. -/
def execSyncI (c : CoreId) (r : RArg) (s : State) : Host.Outcome State Fault Refusal :=
  .next (s.issue c (encR 0x36 r 0) [] (lowest [(resR r, 2)]) (fun s =>
    if (s.core c).sb ≠ [] then s else s.retireTo c ((s.core c).pc + 4)))

/-- The three conditions of `FENCE` (04 R126), over every member that the core drives (log 15). -/
def State.fenced (s : State) (c : Nat) : Bool :=
  (s.members c).all (fun m =>
    let x := s.core m
    x.sb = [] && x.outst = [] && x.cache.all (fun e => !e.2.pending))

/-- `FENCE` (04 R126). -/
def execFence (c : CoreId) (r : RArg) (s : State) : Host.Outcome State Fault Refusal :=
  .next (s.issue c (encR 0x36 r 1) [] (lowest [(resR r, 2)]) (fun s => if s.fenced c then s.retire c else s))

/-- Is a cancel waiting for the task of core `c` (06 R194)? -/
def State.aborting (s : State) (c : Nat) : Bool :=
  match (s.core c).task with
  | some t => s.bit VAT_TASK_CTL.ABORT (vatOf c) t
  | none => false

/-- A yield point (06 R196): a pending cancel ends the task; its store buffer drains. -/
def State.yieldPoint (s : State) (c : Nat) (act : State → State) : State :=
  if s.aborting c then s.endTask c 6 else act s

/-- The task of core `c` is suspended (06 R194). -/
def State.suspend (s : State) (c wait : Nat) (k : WaitKind) : State :=
  let s := match (s.core c).task with
    | some t => s.setTask (vatOf c) t 4 wait
    | none => s
  s.updCore c (fun x => { x with wait := some k })

/-- `YIELD` (04 R115, 06 R196). -/
def execYield (c : CoreId) (r : RArg) (s : State) : Host.Outcome State Fault Refusal :=
  .next (s.issue c (encR 0x36 r 2) [] (lowest [(resR r, 2)]) (fun s => s.yieldPoint c (fun s => s.retire c)))

/-- `WFE` (17 R523): it completes where the event latch is set, and clears it; else the task is suspended. -/
def execWfe (c : CoreId) (r : RArg) (s : State) : Host.Outcome State Fault Refusal :=
  .next (s.issue c (encR 0x36 r 3) [] (lowest [(resR r, 2)]) (fun s => s.yieldPoint c (fun s =>
    if (s.core c).evLatch then (s.updCore c (fun x => { x with evLatch := false })).retire c
    else s.suspend c 3 .wfe)))

/-- `TRAP` (04 R115, R122): `BREAK` with sub-code `fx`. -/
def execTrap (c : CoreId) (r : RArg) (s : State) : Host.Outcome State Fault Refusal :=
  let w := encR 0x36 r 4
  .next (s.issue c w [] (lowest [(r.rd ≠ 0 || r.rs1 ≠ 0 || r.rs2 ≠ 0, 2)]) (fun s => s.trapOn c w causeBreak r.fx.toNat))

/-- The copy of `MC_TSC` that a vat reads when it lags by `lag` periods of 10 ns (02 R56): it never goes backwards. -/
def State.vatTsc (s : State) (v : Nat) (lag : Nat) : Nat :=
  max (smGet 0 s.tscCopy v) ((s.reg MC_TSC).toNat - lag)

/-- `RDTSC` (04 R115, 02 R56): the vat's copy of `MC_TSC` lags by at most four periods. -/
def execRdtsc (c : CoreId) (r : RArg) (lag : Fin 5) (s : State) : Host.Outcome State Fault Refusal :=
  .next (s.issue c (encR 0x36 r 5) [r.rd, r.rd + 1]
    (lowest [(r.rs1 ≠ 0 || r.rs2 ≠ 0 || r.fx ≠ 0, 2), (oddReg r.rd, 3)]) (fun s =>
    let n := s.vatTsc (vatOf c) lag
    let s := { s with tscCopy := smSet 0 s.tscCopy (vatOf c) n }
    (s.updCore c (fun x => x.setPair r.rd (BitVec.ofNat 64 n))).retire c))

/-- `TRET` (04 R125): back to `TEPC`; outside a handler it is `ILLEGAL` with sub-code 7. -/
def execTret (c : CoreId) (r : RArg) (s : State) : Host.Outcome State Fault Refusal :=
  .next (s.issue c (encR 0x36 r 7) [] (lowest [(resR r, 2), (!(s.core c).inHandler, 7)]) (fun s =>
    let pc := (s.core c).tepc.setWidth 16
    (s.updCore c (fun x => { x with inHandler := false })).retireTo c pc))

end Sys2Proof.Machine
end

