-- ==== Sys2Proof/Machine/FarOps.lean ====
section
/-! DEFINITION. Vector loads and stores, far accesses, the curd cache instructions and atomics of a core, and the events
that answer them (04 R105 to R139). -/

namespace Sys2Proof.Machine

open Sys2Proof

/-! ### Local vector accesses (04 R114, R120): every member at the same offset of its own core store -/

/-- The reserved parts of format VM: `imm[5:0]`, and the `S` bit where the row reserves it (04 R113, R114). -/
def vmRes (a : VMArg) (sRes : Bool) : Bool := bvBits a.imm 0 6 ≠ 0 || (sRes && a.st ≠ 0)

/-- `VLD` (04 R114, R120, R129). -/
def execVld (c : CoreId) (vr : BitVec 4) (a : VMArg) (s : State) : Host.Outcome State Fault Refusal :=
  let w := encVM 0x10 vr a
  .next (s.issue c w [a.rs1] (lowest [(vmRes a true, 2)]) (fun s =>
    let ad := localAddr (s.core c) a.rs1 a.imm
    match localCheck ad 64 with
    | some cause => s.trapOn c w cause 0 ad
    | none =>
      let ms := s.members c
      if ms.any (fun m => (localLoad s m ad 64).isNone) then s.partialWait c
      else
        let (bad, s) := ms.foldl (fun (acc : Option Nat × State) m =>
          let (b, s) := acc.2.csAccess m
          let s := s.updCore m (fun x => x.setV vr.toNat (BitVec.ofNat 512 ((localLoad s m ad 64).getD 0)))
          (if b = 2 ∧ acc.1.isNone then some (s.core m).midx else acc.1, s)) (none, s)
        match bad with
        | some m => s.trapOn c w causeMachineCheck 3 ad m
        | none => s.retire c))

/-- `VST` (04 R114, R120, R128). -/
def execVst (c : CoreId) (vr : BitVec 4) (a : VMArg) (s : State) : Host.Outcome State Fault Refusal :=
  let w := encVM 0x11 vr a
  .next (s.issue c w [a.rs1] (lowest [(vmRes a true, 2)]) (fun s =>
    let ad := localAddr (s.core c) a.rs1 a.imm
    match localCheck ad 64 with
    | some cause => s.trapOn c w cause 0 ad
    | none =>
      let ms := s.members c
      if ms.any (fun m => s.sbFull m) then s
      else (ms.foldl (fun s m =>
        s.pushSb m { far := false, line := ad / 64, mask := BitVec.allOnes 64, data := (s.core m).v vr.toNat }) s).retire c))

/-! ### Far loads -/

/-- What a far load of one member meets: the store buffer, the curd cache, the side buffer, or memory. -/
inductive FarPeek where
  | part
  | fwd (d : Nat)
  | hit (d : Nat) (s : State)
  | mchk (s : State)
  | side (d : Line) (t : Nat) (s : State)
  | go (ga : Dword) (reg : Bool) (s : State)
  | ended (s : State)

/-- A far load of `n` bytes at `va` by member `mi`, core `mc`, of leader `c` (04 R129, R131, R134, R136). -/
def State.farPeek (s : State) (c : Nat) (w : Word) (mi mc va n : Nat) (parity : Bool) : FarPeek :=
  let line := va / 64
  match sbLookup (s.core mc) true line (byteMask (va % 64) n) with
  | .part => .part
  | .covered d => .fwd (takeAt d (va % 64) n)
  | .miss =>
    let go := fun (s : State) => match s.farAddr c w va false mi with
      | .ga a s => FarPeek.go a false s
      | .reg off => FarPeek.go (regSpace off) true s
      | .ended s => FarPeek.ended s
    if regWindow ≤ va then go s
    else
      match s.ccLook mc line parity with
      | .hit d s => .hit (takeAt d (va % 64) n) s
      | .mchk s => .mchk s
      | .miss s =>
        match (s.core mc).side.find? (fun e => e.1 = line) with
        | some e => if parity then go (s.updCore mc (fun x => x.clearSide (fun l => l = line))) else .side e.2.1 e.2.2 s
        | none => go s

/-- The far load of one member takes effect: its register, or a request. The flag says that its data is still to
come. -/
def State.farTake (s : State) (c : Nat) (w : Word) (mi mc va n : Nat) (parity : Bool) (put : Nat → CoreSt → CoreSt) : State × Bool :=
  match s.farPeek c w mi mc va n parity with
  | .fwd d => (s.updCore mc (put d), false)
  | .hit d s => ((s.bump VAT_CORE_PC_CC_HIT (vatOf mc) (idxOf mc)).updCore mc (put d), false)
  | .side d t s =>
    let s := (s.bump VAT_CORE_PC_CC_MISS (vatOf mc) (idxOf mc)).bump VAT_CORE_PC_SB_HIT (vatOf mc) (idxOf mc)
    let s := match s.install mc .p { valid := true, line := va / 64, data := d, rtime := t } with
      | .done s => s.updCore mc (fun x => { x with side := x.side.filter (fun e => e.1 ≠ va / 64) })
      | _ => s
    (s.updCore mc (put (takeAt d (va % 64) n)), false)
  | .go ga reg s =>
    if reg then (s.send (.req (.core mc) mi ga (.regRead n)), true)
    else ((s.bump VAT_CORE_PC_CC_MISS (vatOf mc) (idxOf mc)).send (.req (.core mc) mi (ga &&& ~~~63) (.read 64)), true)
  | _ => (s, false)

/-- Members with their indices. -/
def indexed (ms : List Nat) : List (Nat × Nat) := (List.range ms.length).zip ms

/-- A far load by the cluster of leader `c`: member m at `fa` + 64·m (04 R120). Nothing is written before every member
can go: a partial overlap, a walk, a trap or a full side-promotion holds or ends the whole instruction. -/
def State.farLoad (s : State) (c : Nat) (w : Word) (ms : List (Nat × Nat)) (fa n : Nat) (parity : Bool) (kind : BlkKind)
    (put : Nat → CoreSt → CoreSt) : State :=
  match farCheck fa n with
  | some (cause, sub) => s.trapOn c w cause sub fa
  | none =>
    let va := fun mi => (fa + 64 * mi) % 2 ^ 48
    let stop := ms.findSome? (fun e =>
      match s.farPeek c w e.1 e.2 (va e.1) n parity with
      | .part => some (s.partialWait c)
      | .mchk s => some (s.trapOn c w causeMachineCheck 0 (va e.1) e.1)
      | .ended s => some s
      | .side d _ s' => match s'.install e.2 .p { valid := true, line := va e.1 / 64, data := d } with
        | .wait => some s
        | _ => none
      | _ => none)
    match stop with
    | some s => s
    | none =>
      let (s, waits) := ms.foldl (fun (acc : State × List Nat) e =>
        let (s, wt) := acc.1.farTake c w e.1 e.2 (va e.1) n parity put
        (s, if wt then acc.2 ++ [e.1] else acc.2)) (s, [])
      if waits = [] then s.retire c
      else s.updCore c (fun x => { x with blk := some { kind := kind, fa := fa, word := w, waits := waits, regWin := regWindow ≤ fa, rtime := s.tsc32 } })

/-- `FLD` (04 R105, R114, R131). -/
def execFld (c : CoreId) (a : IArg) (parity : Bool) (s : State) : Host.Outcome State Fault Refusal :=
  let w := encI 0x0B a
  .next (s.issue c w [a.rd, a.rs1, a.rs1 + 1] (lowest [(oddReg a.rs1, 3)]) (fun s =>
    s.farLoad c w [(0, c)] (farSum (s.core c) a.rs1 a.imm) 4 parity (.fld a.rd) (fun d x => x.setS a.rd (BitVec.ofNat 32 d))))

/-- `VLDF` (04 R105, R114, R120, R133). -/
def execVldf (c : CoreId) (vr : BitVec 4) (a : VMArg) (parity : Bool) (s : State) : Host.Outcome State Fault Refusal :=
  let w := encVM 0x12 vr a
  .next (s.issue c w [a.rs1, a.rs1 + 1] (lowest [(vmRes a false, 2), (oddReg a.rs1, 3)]) (fun s =>
    s.farLoad c w (indexed (s.members c)) (farSum (s.core c) a.rs1 a.imm) 64 parity (.vldf vr (a.st = 1))
      (fun d x => x.setV vr.toNat (BitVec.ofNat 512 d))))

/-! ### Far stores -/

/-- The buffer entry of a far store of member core data to an address. -/
def farEntry (va n : Nat) (d : Nat) (f : Dword) (reg : Bool) : SbEntry :=
  { far := true, line := va / 64, mask := byteMask (va % 64) n, data := placeAt (va % 64) (d % 2 ^ (8 * n)), ga := f
    reg := if reg then n else 0 }

/-- Does a global address lie in the core store of core `m` (20 R596)? -/
def State.ownCore (s : State) (m : Nat) (ga : Dword) : Bool :=
  bvBits ga 0 48 / 65536 = csBase m / 65536 && (bvBits ga 62 2 = 0 || (bvBits ga 62 2 = 1 && bvBits ga 48 14 = s.devId))

/-- A far store by the cluster of leader `c` (04 R114, R120, R128, R131): translated at issue, buffered by each
member. -/
def State.farStore (s : State) (c : Nat) (w : Word) (ms : List (Nat × Nat)) (fa n : Nat) (data : CoreSt → Nat) : State :=
  match farCheck fa n with
  | some (cause, sub) => s.trapOn c w cause sub fa
  | none =>
    let va := fun mi => (fa + 64 * mi) % 2 ^ 48
    if ms.any (fun e => s.sbFull e.2) then s
    else
      match ms.findSome? (fun e => match s.farAddr c w (va e.1) true e.1 with
        | .ended s => some s
        | _ => none) with
      | some s => s
      | none => s.signed (vatOf c) (idxOf c) fun s =>
        (ms.foldl (fun s e =>
          let d := data (s.core e.2)
          match s.farAddr c w (va e.1) true e.1 with
          | .ga a s =>
            let en := farEntry (va e.1) n d (if n = 64 then a else a &&& ~~~63) false
            let s := if s.ownCore e.2 a then s else s.sign (vatOf c) (idxOf c) (evLine a en.mask en.data)
            s.pushSb e.2 en
          | .reg off => s.pushSb e.2 (farEntry (va e.1) n d (regSpace off) true)
          | .ended s => s) s).retire c

/-- `FST` (04 R114). -/
def execFst (c : CoreId) (a : SArg) (s : State) : Host.Outcome State Fault Refusal :=
  let w := encS 0x0C a
  .next (s.issue c w [a.rs2, a.rs1, a.rs1 + 1] (lowest [(oddReg a.rs1, 3)]) (fun s =>
    s.farStore c w [(0, c)] (farSum (s.core c) a.rs1 a.imm) 4 (fun x => (x.s a.rs2).toNat)))

/-- `VSTF` (04 R114, R120). -/
def execVstf (c : CoreId) (vr : BitVec 4) (a : VMArg) (s : State) : Host.Outcome State Fault Refusal :=
  let w := encVM 0x13 vr a
  .next (s.issue c w [a.rs1, a.rs1 + 1] (lowest [(vmRes a true, 2), (oddReg a.rs1, 3)]) (fun s =>
    s.farStore c w (indexed (s.members c)) (farSum (s.core c) a.rs1 a.imm) 64 (fun x => (x.v vr.toNat).toNat)))

/-! ### Curd cache instructions (04 R134, R135, R138) -/

/-- The tag of a prefetch request: the line it fills. -/
def prefTag (line : Nat) : Nat := 2 ^ 32 + line

/-- The prefetch of a line is sent (04 R134). -/
def State.sendPrefetch (s : State) (c line : Nat) (ga : Dword) : State :=
  (s.updCore c (fun x => { x with pref := x.pref ++ [(line, s.tsc32)] })).send (.req (.core c) (prefTag line) (ga &&& ~~~63) (.read 64))

/-- Is a prefetch of this line needed: it is in neither cache nor side buffer, nor on its way? -/
def CoreSt.wantsPref (x : CoreSt) (line : Nat) : Bool :=
  (x.findLine line).isNone && !x.side.any (fun e => e.1 = line) && !x.pref.any (fun e => e.1 = line)

/-- A curd cache operation on the line of `fa`, whose bits [63:48] are checked (04 R114). -/
def State.cacheOp (s : State) (c : Nat) (w : Word) (a : VMArg) (act : Nat → State → State) : State :=
  s.issue c w [a.rs1, a.rs1 + 1] (lowest [(vmRes a true, 2), (oddReg a.rs1, 3)]) (fun s =>
    let fa := farSum (s.core c) a.rs1 a.imm
    if 2 ^ 48 ≤ fa then s.trapOn c w causeAccess 1 fa else act fa s)

/-- `CACHE.PREF` (04 R134, 13 R402): a prefetch that cannot go is dropped with no trap. -/
def execCachePref (c : CoreId) (a : VMArg) (s : State) : Host.Outcome State Fault Refusal :=
  .next (s.cacheOp c (encVM 0x14 0 a) a (fun fa s =>
    let line := fa / 64
    if regWindow ≤ fa ∨ !(s.core c).wantsPref line then s.retire c
    else
      match s.xlate (vatOf c) fa false with
      | .ga ga s => (s.sendPrefetch c line ga).retire c
      | .miss =>
        match (s.partOf (vatOf c)).bind (fun p => s.walkRequest (vatOf c) p ⟨.core c, fa, false, true⟩) with
        | some s => s.retire c
        | none => s
      | _ => s.retire c))

/-- `CACHE.ZERO` (04 R131, R135). -/
def execCacheZero (c : CoreId) (a : VMArg) (s : State) : Host.Outcome State Fault Refusal :=
  let w := encVM 0x14 1 a
  .next (s.cacheOp c w a (fun fa s =>
    let line := fa / 64
    let ent : SbEntry := { far := true, line := line, mask := BitVec.allOnes 64, data := 0, zero := true }
    if s.sbFull c then s
    else
      match s.farAddr c w (line * 64) true 0 with
      | .ended s => s
      | .reg off => (s.pushSb c { ent with ga := regSpace off, reg := 64 }).retire c
      | .ga ga s => s.signed (vatOf c) (idxOf c) fun s =>
        let e := { ent with ga := ga }
        let go := fun (s : State) =>
          ((if s.ownCore c ga then s else s.sign (vatOf c) (idxOf c) (evLine ga (BitVec.allOnes 64) 0)).pushSb c e).retire c
        match s.install c .z { valid := true, line := line, pending := true, rtime := s.tsc32 } with
        | .wait => s
        | .noAlloc => go s
        | .done s => go s))

/-- `CACHE.INVL` (04 R115, R134, R139). -/
def execCacheInvl (c : CoreId) (a : VMArg) (s : State) : Host.Outcome State Fault Refusal :=
  .next (s.cacheOp c (encVM 0x14 2 a) a (fun fa s =>
    let line := fa / 64
    if regWindow ≤ fa then s.retire c
    else (s.updCore c (fun x => (x.invalidate (fun e => e.line = line) false).clearSide (fun l => l = line))).retire c))

/-- `CACHE.INVALL` (04 R138): it waits for the outstanding fills; pending lines go with their zero-fills. -/
def execCacheInvall (c : CoreId) (a : VMArg) (s : State) : Host.Outcome State Fault Refusal :=
  .next (s.issue c (encVM 0x14 3 a) [] (lowest [(a.st ≠ 0 || a.rs1 ≠ 0 || a.imm ≠ 0, 2)]) (fun s =>
    if (s.core c).pref ≠ [] then s
    else (s.updCore c (fun x => (x.invalidate (fun _ => true) true).clearSide (fun _ => true))).retire c))

/-! ### Atomics (04 R105, R115) -/

/-- An atomic at F[pair(rs1)]: it waits for the store buffer, invalidates the curd cache line, and blocks. -/
def State.atomic (s : State) (c : Nat) (r : RArg) (fn : BitVec 6) (expected : CoreSt → Word) : State :=
  let w := encR 0x34 r fn
  s.issue c w [r.rd, r.rs1, r.rs1 + 1, r.rs2] (lowest [(r.fx ≠ 0, 2), (oddReg r.rs1, 3)]) (fun s =>
    let x := s.core c
    let fa := (x.pair r.rs1).toNat
    match farCheck fa 4 with
    | some (cause, sub) => s.trapOn c w cause sub fa
    | none =>
      if x.sb ≠ [] then s
      else
        let go := fun (s : State) (ga : Dword) (reg : Bool) =>
          let s := s.updCore c (fun x => x.invalidate (fun e => e.line = fa / 64 && !reg) false)
          (s.updCore c (fun x => { x with blk := some { kind := .atom r.rd, fa := fa, word := w, waits := [0], regWin := reg } })).send
            (.req (.core c) 0 ga (.atomic fn.toNat (x.s r.rs2) (expected x)))
        match s.farAddr c w fa true 0 with
        | .ended s => s
        | .reg off => go s (regSpace off) true
        | .ga ga s => s.signed (vatOf c) (idxOf c) fun s =>
          go (s.sign (vatOf c) (idxOf c) (evAtomic ga fn.toNat (x.s r.rs2) (expected x))) ga false)

/-- `ATOM` fn 0 to 8 (04 R115). -/
def execAtom (c : CoreId) (r : RArg) (fn : AmoFn) (s : State) : Host.Outcome State Fault Refusal :=
  .next (s.atomic c r (amoCode fn) (fun _ => 0))

/-- `ACAS` (04 R115): the expected value is s[rd]. -/
def execAcas (c : CoreId) (r : RArg) (s : State) : Host.Outcome State Fault Refusal :=
  .next (s.atomic c r 9 (fun x => x.s r.rd))

/-! ### Replies -/

/-- The reply message that a result stands for. -/
def FarRes_reply (r : FarRes) : Reply :=
  match r with
  | .line d => .data d
  | .word w => .word (w.setWidth 64)
  | .err => .busError

/-- The data of member `mi` of a blocked instruction arrives: its register is written, and the instruction completes
when no member waits. -/
def State.blkData (s : State) (c mi : Nat) (b : Blocked) (put : CoreSt → CoreSt) : State :=
  let mc := (s.members c).getD mi c
  let s := s.updCore mc put
  let rest := b.waits.filter (fun m => m ≠ mi)
  if rest = [] then (s.updCore c (fun x => { x with blk := none })).retire c
  else s.updCore c (fun x => { x with blk := some { b with waits := rest } })

/-- `FAR_LOAD_REPLY` (04 R105, R127, R131 to R133): data is installed under class D and written; an error is
`BUS_ERROR` sub-code 0. A fill whose mask is all pending waits (R133 step 4). -/
def execFarLoadReply (c : CoreId) (member : Fin 4) (res : FarRes) (s : State) : Host.Outcome State Fault Refusal :=
  .next (match (s.core c).blk with
    | none => s
    | some b =>
      let mi := member.val
      if !b.waits.contains mi then s
      else
        let mc := (s.members c).getD mi c
        let s1 := s.recvMsg (.reply (.core mc) mi (FarRes_reply res))
        let va := (b.fa + 64 * mi) % 2 ^ 48
        match res with
        | .err => s1.trapOn c b.word causeBusError 0 va mi
        | .word w =>
          match b.kind with
          | .fld rd => s1.blkData c mi b (fun x => x.setS rd w)
          | .atom rd => s1.blkData c mi b (fun x => x.setS rd w)
          | .trd rd => s1.blkData c mi b (fun x => x.setS rd w)
          | .vldf .. => s
        | .line d =>
          let stream := match b.kind with
            | .vldf _ st => st
            | _ => false
          let fill := s1.install mc .d
            { valid := true, line := va / 64, data := d, age := if stream then 3 else 0, streaming := stream
              rtime := b.rtime }
          let go := fun (s : State) => match b.kind with
            | .fld rd => s.blkData c mi b (fun x => x.setS rd (BitVec.ofNat 32 (takeAt d (va % 64) 4)))
            | .vldf vr _ => s.blkData c mi b (fun x => x.setV vr.toNat d)
            | _ => s
          if b.regWin ∨ b.noFill then go s1
          else match fill with
            | .done s => go s
            | .noAlloc => go s1
            | .wait => s)

/-- A posted store of core `m` failed: its leader takes `STORE_ERROR` at its next boundary (04 R126). -/
def State.storeError (s : State) (m sub line : Nat) : State :=
  let l := s.leader m
  let x := s.core l
  if x.task.isNone then s
  else s.setCore l { x with storeErrs := x.storeErrs ++ [⟨sub, line * 64, (s.core m).midx⟩] }

/-- `FAR_STORE_ACK` (04 R126). -/
def farStoreAck (c tag : Nat) (err : Bool) (s : State) : State :=
  match (s.core c).outst.find? (fun o => o.tag = tag && !o.zero) with
  | none => s
  | some o =>
    let s := s.recvMsg (.reply (.core c) (16 + tag) (if err then .busError else .done))
    let s := s.updCore c (fun x => { x with outst := x.outst.erase o })
    if err then s.storeError c 0 o.line else s

/-- `FAR_STORE_ACK` (04 R126). -/
def execFarStoreAck (c : CoreId) (tag : Nat) (res : Ack) (s : State) : Host.Outcome State Fault Refusal :=
  .next (farStoreAck c tag (res = .err) s)

/-- A zero-fill ends (04 R135, R136, R138): its line leaves the pending state when no other zero-fill of it is on its
way; it is invalidated on an error or where it was marked. -/
def zeroFillAck (c tag : Nat) (err : Bool) (s : State) : State :=
  match (s.core c).outst.find? (fun o => o.tag = tag && o.zero) with
  | none => s
  | some o =>
    let s := s.recvMsg (.reply (.core c) (16 + tag) (if err then .busError else .done))
    let s := s.updCore c (fun x => { x with outst := x.outst.erase o })
    let x := s.core c
    let more := x.outst.any (fun p => p.zero && p.line = o.line) || x.sb.any (fun e => e.zero && e.line = o.line)
    let s := match x.findLine o.line with
      | some i =>
        let e := x.ent i
        if err ∨ (e.drop ∧ !more) then s.setCore c (x.setEnt i {})
        else if more then s
        else s.setCore c (x.setEnt i { e with pending := false })
      | none => s
    if err then s.storeError c 1 o.line else s

/-- `ZERO_FILL_ACK` (04 R135). -/
def execZeroFillAck (c : CoreId) (tag : Nat) (res : Ack) (s : State) : Host.Outcome State Fault Refusal :=
  .next (zeroFillAck c tag (res = .err) s)

/-- `PREFETCH_FILL` (04 R134): a line whose prefetch still stands enters the side buffer; an error drops it. -/
def execPrefetchFill (c : CoreId) (line : Nat) (res : FarRes) (s : State) : Host.Outcome State Fault Refusal :=
  let s := s.recvMsg (.reply (.core c) (prefTag line) (FarRes_reply res))
  let x := s.core c
  .next (match x.pref.find? (fun e => e.1 = line) with
    | none => s
    | some e =>
      let x := { x with pref := x.pref.erase e }
      match res with
      | .line d => s.setCore c (if x.wantsPref line then x.pushSide line d e.2 else x)
      | _ => s.setCore c x)

/-- `CORE_REQUEST_TIMEOUT` (04 R127). -/
def execCoreRequestTimeout (c : CoreId) (req : CoreReq) (s : State) : Host.Outcome State Fault Refusal :=
  .next (match req with
    | .blocking m =>
      match (s.core c).blk with
      | some b => if b.waits.contains m then s.trapOn c b.word causeBusError 1 ((b.fa + 64 * m) % 2 ^ 48) m else s
      | none => s
    | .store tag => zeroFillAck c tag true (farStoreAck c tag true s)
    | .prefetch line => s.updCore c (fun x => { x with pref := x.pref.filter (fun e => e.1 ≠ line) }))

/-- `CORE_STORE_EXTERNAL_ACCESS` (04 R108, R111): the external port of a core store serves a request. The core of a free
vat is unusable (03 R68). An uncorrectable word is a bus error with a record (12 R385 `CS_UE`). -/
def execCoreStoreExternalAccess (c : CoreId) (src : Agent) (tag off : Nat) (op : MemOp) (s : State) :
    Host.Outcome State Fault Refusal :=
  let ga := BitVec.ofNat 64 (csBase c + off)
  let s := s.recvMsg (.req src tag ga op)
  let answer := fun (s : State) r => s.send (.reply src tag r)
  .next (if (s.partOf (vatOf c)).isNone ∨ 0x10000 ≤ off then answer s .busError
    else
      let b := s.injBits c 0
      let s := s.useInj (vatOf c) b VAT_ECC0.CORR_CS
      if b = 2 then
        answer (s.fault { cls := 0x0E, sub := (match op with | .read _ => 0 | _ => 1), part := s.partOf (vatOf c)
                          unit := 1, inst := s.physLoc c, addr := ga, info := off / 4 * 4 }) .busError
      else
        match op with
        | .read n => answer s (.data (BitVec.ofNat 512 (Memory.read s.mem (csBase c + off) (min n 64))))
        | .write m d => answer { s with mem := Memory.write s.mem (csBase c + off / 64 * 64) m.toNat d.toNat 64 } .done
        | .zero => answer { s with mem := Memory.write s.mem (csBase c + off / 64 * 64) (2 ^ 64 - 1) 0 64 } .done
        | _ => answer s .busError)

/-- `CORE_CACHE_INIT_DONE` (04 R138): all entries are invalid, the side buffer is empty, `CC_INIT` is 0. -/
def execCoreCacheInitDone (c : CoreId) (s : State) : Host.Outcome State Fault Refusal :=
  .next (if s.bit VAT_CORE_STAT.CC_INIT (vatOf c) (idxOf c) then
      (s.updCore c (fun x => { x with cache := [], side := [], pref := [] })).setFld VAT_CORE_STAT.CC_INIT 0 (vatOf c) (idxOf c)
    else s)

end Sys2Proof.Machine
end

