-- ==== Sys2Proof/Machine/Tally.lean ====
section
/-! DEFINITION. Task slots and the dispatcher, tallies and their waits, and the message and tally instructions of the
curd core (06 R189 to R204, 07 R231, R242, R245). -/

namespace Sys2Proof.Machine

open Sys2Proof

/-! ### Messages of the T-net (07 R245) -/

/-- A tally belongs to the vat in bits [13:8] (06 R198). -/
def tallyVat (t : Nat) : Nat := t / 256 % 64

/-- Is the tally one of the partition of vat `v` (06 R198)? -/
def State.tallyOk (s : State) (v t : Nat) : Bool := s.samePart v (tallyVat t)

/-- The origin code of a vat unit. -/
def vatOrg (v : Nat) : Nat := 4096 + v

/-- Increment, registration, acknowledgement, release, read, read reply, set threshold (07 R245). -/
def tInc (t n org : Nat) : TMsg := { op := 0, tally := t, value := n, src := if org < 4096 then vatOf org else org - 4096, kind := 0, org := org }
def tReg (t v org : Nat) : TMsg := { op := 1, tally := t, value := 0, src := v, kind := 0, org := org }
def tAck (t w : Nat) : TMsg := { op := 2, tally := t, value := 0, src := tallyVat t, kind := 0, dst := w }
def tRel (t count kind w : Nat) (answer : Bool) : TMsg :=
  { op := 3, tally := t, value := count, src := tallyVat t, kind := kind, dst := w, answer := answer }
def tRead (t c : Nat) : TMsg := { op := 4, tally := t, value := 0, src := c, kind := 0, org := c }
def tReadReply (t count c : Nat) : TMsg := { op := 5, tally := t, value := count, src := c, kind := 0, dst := vatOf c }
def tThr (t x org : Nat) : TMsg := { op := 6, tally := t, value := x, src := if org < 4096 then vatOf org else org - 4096, kind := 0, org := org }

/-- May this message arrive now? Messages from one sender to one tally, and from one tally to one vat, arrive in the
order they were sent (06 R198, R204). A message that is not in flight may arrive at any time (log 7). -/
def State.tnetOrder (s : State) (m : TMsg) : Bool :=
  match s.net.find? (fun e => match e with
    | .tnet o => o.tally = m.tally && o.dst = m.dst && o.org = m.org
    | _ => false) with
  | some e => e = .tnet m || !s.net.contains (.tnet m)
  | none => true

/-- Deliver a T-net message in its order. -/
def State.tnetArrive (s : State) (m : TMsg) (f : State → State) : State :=
  if s.tnetOrder m then f (s.recvMsg (.tnet m)) else s

/-- Send an increment. -/
def State.sendInc (s : State) (t n org : Nat) : State := s.send (.tnet (tInc t n org))

/-! ### Task slots (06 R190 to R197) -/

/-- Are the core section and the hub of a vat supplied and serving (18 R540, R541)? -/
def State.vatOn (s : State) (v : Nat) : Bool := s.fld PWR_DOM_STAT.STATE v = 2 || s.fld PWR_DOM_STAT.STATE v = 3

/-- Is a vat unit able to take a request: powered and not in reset (06 R219 phase 1)? -/
def State.vatLive (s : State) (v : Nat) : Bool := s.vatOn v && !s.bit VAT_STAT.RESETTING v

/-- What a task slot holds. -/
def State.task (s : State) (v k : Nat) : TaskSt := smGet {} s.tasks (256 * v + k)

/-- Replace what a task slot holds. -/
def State.setTaskSt (s : State) (v k : Nat) (t : TaskSt) : State := { s with tasks := smSet {} s.tasks (256 * v + k) t }

/-- Fields of a captured descriptor (06 R190). -/
def descEntry (d : Dword) : Nat := bvBits d 0 16
def descTarget (d : Dword) : Nat := bvBits d 16 6
def descGate (d : Dword) : Nat := bvBits d 24 14
def descGateEn (d : Dword) : Bool := d.getLsbD 38
def descOut (d : Dword) : Nat := bvBits d 39 14
def descOutEn (d : Dword) : Bool := d.getLsbD 53
def descRearm (d : Dword) : Bool := d.getLsbD 54

/-- The `STATE` of a slot (06 R193). -/
def State.taskState (s : State) (v k : Nat) : Nat := s.fld VAT_TASK_CTL.STATE v k

/-- Is k a dispatch target of the vat (06 R189, 03 R82)? -/
def State.isTarget (s : State) (v k : Nat) : Bool :=
  match smFind s.img.kinds v with
  | none => true
  | some ks =>
    match ks.getD k 0 with
    | 1 => k % 2 = 0 && k / 8 % 2 = 0
    | 2 => k % 2 = 0
    | _ => true

/-- A command for a slot is dropped and counted (06 R194). -/
def State.cmdRej (s : State) (v : Nat) : State := s.bump VAT_PC_CMD_REJ v

/-- Register the gate wait of a slot (06 R203). -/
def State.registerGate (s : State) (v k : Nat) : State :=
  let t := s.task v k
  let g := descGate t.desc
  let s := s.setTaskSt v k { t with gate := .registered }
  { s.send (.tnet (tReg g v (vatOrg v))) with regQueue := s.regQueue ++ [(v, g, .slot v k)] }

/-- `TASK_DESC_WRITE` (06 R191): only while the slot is `FREE`. -/
def execTaskDescWrite (v : VatId) (slot : SlotIx) (arg : Bool) (data : Dword) (s : State) : Host.Outcome State Fault Refusal :=
  .next (if !s.vatLive v then s
    else if s.taskState v slot ≠ 0 then s.cmdRej v
    else if arg then s.setReg VAT_TASK_ARG (BitVec.ofNat 64 (bvBits data 0 32)) v slot
    else s.setReg VAT_TASK_DESC (data &&& 0x007FFFFFFF3FFFFF) v slot)

/-- `TASK_LOAD` (06 R194). -/
def execTaskLoad (v : VatId) (slot : SlotIx) (s : State) : Host.Outcome State Fault Refusal :=
  .next (if !s.vatLive v then s
    else
      let d := s.reg VAT_TASK_DESC v slot
      let ok := s.taskState v slot = 0 && descEntry d % 4 = 0 && s.isTarget v (descTarget d)
        && (!descGateEn d || s.tallyOk v (descGate d)) && (!descOutEn d || s.tallyOk v (descOut d))
      if !ok then s.cmdRej v
      else
        let s := (s.setTaskSt v slot { desc := d, arg := (s.reg VAT_TASK_ARG v slot).setWidth 32 }).setTask v slot 1 0
        if descGateEn d then s.registerGate v slot else s)

/-- `TASK_READY` (06 R194). -/
def execTaskReady (v : VatId) (slot : SlotIx) (s : State) : Host.Outcome State Fault Refusal :=
  .next (if !s.vatLive v then s
    else match s.taskState v slot with
      | 1 => s.setTask v slot 2 0
      | 6 => s.bump VAT_PC_READY_DROP v
      | _ => s.cmdRej v)

/-- The core that runs the task of a slot. -/
def State.taskCore (s : State) (v k : Nat) : Nat := 64 * v + descTarget (s.task v k).desc

/-- A cancel meets a slot (06 R194). -/
def State.cancelTask (s : State) (v k : Nat) : State :=
  match s.taskState v k with
  | 1 => s.setTask v k 6 0
  | 2 => s.setTask v k 6 0
  | 3 => s.setFld VAT_TASK_CTL.ABORT 1 v k
  | 4 => s.endTask (s.taskCore v k) 6
  | _ => s.cmdRej v

/-- `TASK_CANCEL` (06 R194, R195). -/
def execTaskCancel (v : VatId) (slot : SlotIx) (s : State) : Host.Outcome State Fault Refusal :=
  .next (if !s.vatLive v then s else s.cancelTask v slot)

/-- `TASK_RELEASE` (06 R194). -/
def execTaskRelease (v : VatId) (slot : SlotIx) (s : State) : Host.Outcome State Fault Refusal :=
  .next (if !s.vatLive v then s
    else if 5 ≤ s.taskState v slot then (s.setTaskSt v slot {}).setTask v slot 0 0
    else s.cmdRej v)

/-- `TASK_CMD_RESERVED` (06 R192). -/
def execTaskCmdReserved (v : VatId) (slot : SlotIx) (s : State) : Host.Outcome State Fault Refusal :=
  let _ := slot
  .next (if !s.vatLive v then s else s.cmdRej v)

/-- The registers of a member at task start: every register is zero (06 R196). -/
def CoreSt.cleared (x : CoreSt) : CoreSt :=
  { x.idleWaits with
    sreg := [], vreg := [], preg := [], acc := [], fflags := 0, frm := 0, fseed := 0, ptag := 0, tvec := 0, tepc := 0
    inHandler := false, k := 0, div := none, storeErrs := [], evLatch := false }

/-- Is the target idle (06 R193): it runs no task and its cache is ready? -/
def State.targetIdle (s : State) (v k : Nat) : Bool :=
  let c := 64 * v + k
  (s.core c).task.isNone && !s.bit VAT_CORE_STAT.CC_INIT v k

/-- The slot a dispatcher grants to target k (06 R197): round robin after the slot last dispatched to it. -/
def State.pickSlot (s : State) (v k : Nat) : Option Nat :=
  let last := smGet 255 s.lastDisp (64 * v + k)
  ((List.range 256).map (fun i => (last + 1 + i) % 256)).find? (fun i =>
    s.taskState v i = 2 && descTarget (s.task v i).desc = k)

/-- `TASK_DISPATCH` (06 R196, R197): an idle target takes a `READY` task; a fatal device does not dispatch (12 R390). -/
def execTaskDispatch (v : VatId) (k : VatId) (s : State) : Host.Outcome State Fault Refusal :=
  .next (if !s.vatLive v ∨ s.fatal ∨ !s.isTarget v k ∨ !s.targetIdle v k then s
    else match s.pickSlot v k with
      | none => s
      | some i =>
        let t := s.task v i
        let c := 64 * v.val + k.val
        let s := { (s.setTask v i 3 0).setFld VAT_TASK_CTL.ABORT 0 v i with lastDisp := smSet 255 s.lastDisp (64 * v + k) i }
        let s := (s.members c).foldl (fun s m => s.updCore m CoreSt.cleared) s
        let (st, nx) := t.stage.getD (0xFFFFFFFF, 0xFFFFFFFF)
        (s.updCore c (fun x =>
          { (((x.setS 1 (BitVec.ofNat 32 (256 * v.val + i))).setS 2 t.arg).setS 3 (BitVec.ofNat 32 st)).setS 4 (BitVec.ofNat 32 nx) with
            task := some i, pc := BitVec.ofNat 16 (descEntry t.desc) })).refill c)

/-! ### Tallies (06 R198 to R204) -/

/-- The count of a tally. -/
def State.tallyCount (s : State) (t : Nat) : Nat := s.fld VAT_TALLY_CNT.COUNT (tallyVat t) (t % 256)

/-- The threshold of a tally. -/
def State.tallyThr (s : State) (t : Nat) : Nat := s.fld VAT_TALLY_THR.THRESH (tallyVat t) (t % 256)

/-- Set the count, with `SAT` (06 R204). -/
def State.setCount (s : State) (t n : Nat) : State :=
  (s.setFld VAT_TALLY_CNT.COUNT n (tallyVat t) (t % 256)).setFld VAT_TALLY_STAT.SAT
    (if n = 0xFFFFFFFF then 1 else 0) (tallyVat t) (t % 256)

/-- Send a release to every waiting vat and clear the mask (06 R203 step 3). -/
def State.releaseAll (s : State) (t kind : Nat) : State :=
  let m := s.fld VAT_TALLY_WAITV.WAITV (tallyVat t) (t % 256)
  let n := s.tallyCount t
  let s := ((List.range 64).filter (fun w => m.testBit w)).foldl (fun s w => s.send (.tnet (tRel t n kind w false))) s
  s.setFld VAT_TALLY_WAITV.WAITV 0 (tallyVat t) (t % 256)

/-- Saturation of a tally (06 R200): `OVF` is set, and on its first setting the tally source occurs. -/
def State.tallyOvf (s : State) (t : Nat) : State :=
  if s.bit VAT_TALLY_STAT.OVF (tallyVat t) (t % 256) then s
  else (s.setFld VAT_TALLY_STAT.OVF 1 (tallyVat t) (t % 256)).raiseVat (tallyVat t) 2

/-- An uncorrectable error in a tally's storage (12 R374): count 0, threshold at its largest, step 0, mask kept; the
instance leaves the ledger and a record is written. -/
def State.tallyUe (s : State) (t sub : Nat) : State :=
  let v := tallyVat t
  let s := (s.setCount t 0).setFld VAT_TALLY_THR.THRESH 0xFFFFFFFF v (t % 256)
  ((s.setFld VAT_TALLY_STEP.STEP 0 v (t % 256)).exclude 8 t).fault
    { cls := 8, sub := sub, part := s.partOf v, unit := 2, inst := v, info := t }

/-- An access to a tally's storage meets an armed injection (12 R383, R384). -/
def State.tallyEcc (s : State) (t : Nat) : State :=
  let v := tallyVat t
  let b := s.injBits (64 * v) 4
  (s.useInj v b VAT_ECC1.CORR_HUB).when (b = 2) (fun s => s.tallyUe t 0)

/-- An increment at a tally (06 R198 to R201). -/
def State.tallyInc (s : State) (t n : Nat) : State :=
  let v := tallyVat t
  let old := s.tallyCount t
  if old = 0xFFFFFFFF then s.bump VAT_PC_TALLY_SATINC v
  else
    let new := min (old + n) 0xFFFFFFFF
    let thr := s.tallyThr t
    let s := s.setCount t new
    let s := if new = 0xFFFFFFFF then s.tallyOvf t else s
    if old < thr ∧ thr ≤ new then
      (s.releaseAll t 0).setFld VAT_TALLY_THR.THRESH (min (thr + s.fld VAT_TALLY_STEP.STEP v (t % 256)) 0xFFFFFFFF) v (t % 256)
    else s

/-- After a write of the count or the threshold: a count at or above it releases every waiter (06 R199). -/
def State.releaseMet (s : State) (t : Nat) : State := if s.tallyThr t ≤ s.tallyCount t then s.releaseAll t 0 else s

/-- The mesh section of a vat that is not powered takes a message for its hub, which is counted (18 R557). -/
def State.absorb (s : State) (v : Nat) : State := s.bump PWR_VAT_PC_ABSORB v

/-- `TALLY_INCREMENT` (06 R198). A tally of a vat in reset holds it (06 R219); one without power discards it (18 R557). -/
def execTallyIncrement (t : TallyId) (n : Word) (org : Nat) (s : State) : Host.Outcome State Fault Refusal :=
  .next (if !s.vatOn (tallyVat t.toNat) then s.tnetArrive (tInc t.toNat n.toNat org) (fun s => s.absorb (tallyVat t.toNat))
    else if !s.vatLive (tallyVat t.toNat) then s
    else s.tnetArrive (tInc t.toNat n.toNat org) (fun s => (s.tallyEcc t.toNat).tallyInc t.toNat n.toNat))

/-- `TALLY_REGISTRATION` (06 R203 step 1). A tally without power answers at once with a release of kind RESET and count
0 (18 R557). -/
def execTallyRegistration (t : TallyId) (w : VatId) (org : Nat) (s : State) : Host.Outcome State Fault Refusal :=
  let n := t.toNat
  let v := tallyVat n
  .next (if !s.vatOn v then s.tnetArrive (tReg n w org) (fun s => s.send (.tnet (tRel n 0 1 w true)))
    else if !s.vatLive v then s
    else s.tnetArrive (tReg n w org) (fun s =>
      let s := s.tallyEcc n
      if s.tallyThr n ≤ s.tallyCount n then s.send (.tnet (tRel n (s.tallyCount n) 0 w true))
      else (s.setFld VAT_TALLY_WAITV.WAITV (s.fld VAT_TALLY_WAITV.WAITV v (n % 256) ||| 2 ^ w.val) v (n % 256)).send
        (.tnet (tAck n w))))

/-- The oldest unanswered registration of a vat at a tally leaves the queue. -/
def State.popReg (s : State) (w t : Nat) : Option (Waiter × State) :=
  match s.regQueue.find? (fun e => e.1 = w && e.2.1 = t) with
  | some e => some (e.2.2, { s with regQueue := s.regQueue.erase e })
  | none => none

/-- `HALT` ends (06 R196): the increment is sent, the slot becomes `DONE`, `LOADED` or `READY`, the target is free. A
slot that a cancel took meanwhile stays cancelled. -/
def State.haltEnd (s : State) (c : Nat) (released : Bool) : State :=
  match (s.core c).task with
  | none => s
  | some k =>
    let v := vatOf c
    let d := (s.task v k).desc
    let s := if descOutEn d then s.sendInc (descOut d) 1 c else s
    let s := s.signClose v (idxOf c)
    let st := if !descRearm d then 5 else if !descGateEn d || released then 2 else 1
    let s := if s.taskState v k = 3 ∨ s.taskState v k = 1 then s.setTask v k st 0 else s
    let s := s.bump VAT_CORE_PC_INSN v (idxOf c)
    s.updCore c (fun x => { x.idleWaits with task := none })

/-- The core whose `HALT` waits for the registration of this slot. -/
def State.haltingCore (s : State) (v k : Nat) : Option Nat :=
  let c := s.taskCore v k
  if (s.core c).halting ∧ (s.core c).task = some k then some c else none

/-- `TALLY_REGISTRATION_ACK` (06 R203 step 2): the waiter is armed; a `HALT` that held goes on. -/
def execTallyRegistrationAck (w : VatId) (t : TallyId) (s : State) : Host.Outcome State Fault Refusal :=
  .next (s.tnetArrive (tAck t.toNat w) (fun s =>
    match s.popReg w t.toNat with
    | none => s
    | some (.core c, s) =>
      match (s.core c).wait with
      | some (.twait rd u _) => s.updCore c (fun x => { x with wait := some (.twait rd u true) })
      | _ => s
    | some (.slot v k, s) =>
      let s := s.setTaskSt v k { s.task v k with gate := .armed }
      match s.haltingCore v k with
      | some c => s.haltEnd c false
      | none => s))

/-- A `TWAIT` of core `c` resumes with the carried count (06 R203 step 4). -/
def State.wakeTwait (s : State) (c : Nat) (rd : BitVec 5) (n : Nat) : State :=
  ((s.updCore c (fun x => x.setS rd (BitVec.ofNat 32 n))).resumeTask c).retire c

/-- A waiter of a gate is woken (06 R203 step 4, R219): `LOADED` becomes `READY`, or registers again after a reset of
the tally's vat. -/
def State.wakeSlot (s : State) (v k : Nat) (kind : RelKind) : State :=
  let s := s.setTaskSt v k { s.task v k with gate := .none }
  if s.taskState v k ≠ 1 then s
  else match kind with
    | .reset => s.registerGate v k
    | .reach => match s.haltingCore v k with
      | some c => s.haltEnd c true
      | none => s.setTask v k 2 0

/-- The cores of a vat that wait armed in `TWAIT` on a tally. -/
def State.armedCores (s : State) (w t : Nat) : List (Nat × BitVec 5) :=
  (List.range 64).filterMap (fun k => match (s.core (64 * w + k)).wait with
    | some (.twait rd u true) => if u = t then some (64 * w + k, rd) else none
    | _ => none)

/-- The slots of a vat whose gate wait on a tally is armed. -/
def State.armedSlots (s : State) (w t : Nat) : List Nat :=
  (List.range 256).filter (fun k => (s.task w k).gate = .armed && descGate (s.task w k).desc = t)

/-- `TALLY_RELEASE` (06 R203 step 4, R219): every armed waiter is woken; a release that answers a registration wakes the
waiter that registered (log 16). -/
def execTallyRelease (w : VatId) (t : TallyId) (count : Word) (kind : RelKind) (answer : Bool) (s : State) :
    Host.Outcome State Fault Refusal :=
  let n := count.toNat
  let code := match kind with | .reach => 0 | .reset => 1
  .next (s.tnetArrive (tRel t.toNat n code w answer) (fun s =>
    let s := (s.armedCores w t.toNat).foldl (fun s e => s.wakeTwait e.1 e.2 n) s
    let s := (s.armedSlots w t.toNat).foldl (fun s k => s.wakeSlot w k kind) s
    if !answer then s
    else match s.popReg w t.toNat with
      | some (.core c, s) =>
        match (s.core c).wait with
        | some (.twait rd _ _) => s.wakeTwait c rd n
        | _ => s
      | some (.slot v k, s) => s.wakeSlot v k kind
      | none => s))

/-- `TALLY_READ` (06 R198). A tally without power reads zero, as its registers do (18 R557). -/
def execTallyRead (t : TallyId) (c : CoreId) (s : State) : Host.Outcome State Fault Refusal :=
  .next (if !s.vatOn (tallyVat t.toNat) then
      s.tnetArrive (tRead t.toNat c) (fun s => s.send (.tnet (tReadReply t.toNat 0 c)))
    else if !s.vatLive (tallyVat t.toNat) then s
    else s.tnetArrive (tRead t.toNat c) (fun s =>
      let s := s.tallyEcc t.toNat
      s.send (.tnet (tReadReply t.toNat (s.tallyCount t.toNat) c))))

/-- `TALLY_READ_REPLY` (06 R198): the blocked `TRD` completes. -/
def execTallyReadReply (c : CoreId) (t : TallyId) (count : Word) (s : State) : Host.Outcome State Fault Refusal :=
  .next (s.tnetArrive (tReadReply t.toNat count.toNat c) (fun s =>
    match (s.core c).blk with
    | some b => match b.kind with
      | .trd rd => s.blkData c 0 b (fun x => x.setS rd count)
      | _ => s
    | none => s))

/-- Set the threshold (06 R199). -/
def State.setThr (s : State) (t x : Nat) : State :=
  (s.setFld VAT_TALLY_THR.THRESH x (tallyVat t) (t % 256)).releaseMet t

/-- `TALLY_SET_THRESHOLD` (06 R199). A tally without power ignores it, as its registers do (18 R557). -/
def execTallySetThreshold (t : TallyId) (value : Word) (org : Nat) (s : State) : Host.Outcome State Fault Refusal :=
  .next (if !s.vatOn (tallyVat t.toNat) then s.recvMsg (.tnet (tThr t.toNat value.toNat org))
    else if !s.vatLive (tallyVat t.toNat) then s
    else s.tnetArrive (tThr t.toNat value.toNat org) (fun s => (s.tallyEcc t.toNat).setThr t.toNat value.toNat))

/-- `TALLY_CNT_WRITE` (06 R199, R200). -/
def execTallyCntWrite (t : TallyId) (value : Word) (s : State) : Host.Outcome State Fault Refusal :=
  .next (if !s.vatLive (tallyVat t.toNat) then s else (s.setCount t.toNat value.toNat).releaseMet t.toNat)

/-- `TALLY_THR_WRITE` (06 R199). -/
def execTallyThrWrite (t : TallyId) (value : Word) (s : State) : Host.Outcome State Fault Refusal :=
  .next (if !s.vatLive (tallyVat t.toNat) then s else s.setThr t.toNat value.toNat)

/-- `TALLY_STEP_WRITE` (06 R198). -/
def execTallyStepWrite (t : TallyId) (value : Word) (s : State) : Host.Outcome State Fault Refusal :=
  .next (if !s.vatLive (tallyVat t.toNat) then s
    else s.setFld VAT_TALLY_STEP.STEP value.toNat (tallyVat t.toNat) (t.toNat % 256))

/-! ### Message and tally instructions (04 R115) -/

/-- A `MSG` form: `rs1` and `rs2` (04 R113, R115). -/
def resMsg (r : RArg) : Option Nat := lowest [(r.rd ≠ 0 || r.fx ≠ 0, 2)]

/-- The source check of a packet to a logical core (07 R231): none where it may go, else the trap. -/
def State.srcCheck (s : State) (v dst : Nat) : Option (Nat × Nat) :=
  if !s.bit VAT_NET_DTAB.VALID v dst then some (causeBusError, 0)
  else if s.partOf v ≠ some (s.fld VAT_NET_DTAB.PART v dst) ∨ s.fld VAT_NET_DTAB.ROLE v dst = 2 then some (causeAccess, 0)
  else none

/-- `SEND` and `SENDU` (07 R231, R242, R243). -/
def State.sendMsg (s : State) (c : Nat) (r : RArg) (urgent : Bool) : State :=
  let w := encR 0x30 r (if urgent then 1 else 0)
  s.issue c w [r.rs1, r.rs2] (resMsg r) (fun s =>
    let x := s.core c
    let dst := bvBits (x.s r.rs1) 0 12
    match s.srcCheck (vatOf c) dst with
    | some (cause, sub) => s.trapOn c w cause sub
    | none => s.signed (vatOf c) (idxOf c) fun s =>
      ((s.sign (vatOf c) (idxOf c) (evMsg dst ((s.partOf (vatOf c)).getD 0) ((x.s r.rs2).setWidth 64))).send
        (.cnet dst urgent (BitVec.ofNat 32 c) (x.s r.rs2))).retire c)

/-- `SEND` (07 R242). -/
def execSend (c : CoreId) (r : RArg) (s : State) : Host.Outcome State Fault Refusal := .next (s.sendMsg c r false)

/-- `SENDU` (07 R241). -/
def execSendu (c : CoreId) (r : RArg) (s : State) : Host.Outcome State Fault Refusal := .next (s.sendMsg c r true)

/-- `DBELL` (17 R522). -/
def execDbell (c : CoreId) (r : RArg) (s : State) : Host.Outcome State Fault Refusal :=
  let w := encR 0x30 r 2
  .next (s.issue c w [r.rs1, r.rs2] (resMsg r) (fun s =>
    let x := s.core c
    let v := bvBits (x.s r.rs1) 0 6
    if !s.samePart (vatOf c) v then s.trapOn c w causeAccess 0
    else s.signed (vatOf c) (idxOf c) fun s =>
      let src := bvBits (x.s r.rs2) 0 8
      ((s.sign (vatOf c) (idxOf c) (evBell v src)).send (.doorbell v src)).retire c))

/-- Take the oldest message of a core: VC1 first, then VC0 (07 R242). -/
def CoreSt.takeMsg (x : CoreSt) : Option ((Word × Word) × CoreSt) :=
  match x.rx1, x.rx0 with
  | m :: r, _ => some (m, { x with rx1 := r })
  | [], m :: r => some (m, { x with rx0 := r })
  | [], [] => none

/-- A message is handed to `RECV`: payload to s[rd], sender to s[rs1] (04 R115, 07 R243). -/
def CoreSt.putMsg (x : CoreSt) (rd rs1 : BitVec 5) (m : Word × Word) : CoreSt := (x.setS rd m.2).setS rs1 m.1

/-- A `RECV` form: `rs2` and `fx` are reserved. -/
def resRecv (r : RArg) : Option Nat := lowest [(r.rs2 ≠ 0 || r.fx ≠ 0, 2)]

/-- `RECV` (04 R115, 06 R196, 07 R242). -/
def execRecv (c : CoreId) (r : RArg) (s : State) : Host.Outcome State Fault Refusal :=
  .next (s.issue c (encR 0x31 r 0) [r.rd, r.rs1] (resRecv r) (fun s => s.yieldPoint c (fun s =>
    match (s.core c).takeMsg with
    | some (m, x) => (s.setCore c (x.putMsg r.rd r.rs1 m)).retire c
    | none => s.suspend c 3 (.recv r.rd r.rs1))))

/-- `RECVNB` (04 R115). -/
def execRecvnb (c : CoreId) (r : RArg) (s : State) : Host.Outcome State Fault Refusal :=
  .next (s.issue c (encR 0x31 r 1) [r.rd, r.rs1] (resRecv r) (fun s =>
    match (s.core c).takeMsg with
    | some (m, x) => (s.setCore c (x.putMsg r.rd r.rs1 m)).retire c
    | none => (s.updCore c (fun x => x.setS r.rs1 0xFFFFFFFF)).retire c))

/-- `MESSAGE_DELIVERY` (07 R242): the message enters its queue while it has room, and wakes a task in `RECV`. -/
def execMessageDelivery (c : CoreId) (urgent : Bool) (sender payload : Word) (s : State) : Host.Outcome State Fault Refusal :=
  let x := s.core c
  let full := if urgent then 2 ≤ x.rx1.length else 6 ≤ x.rx0.length
  .next (if full then s
    else
      let s := s.recvMsg (.cnet c urgent sender payload)
      let s := s.updCore c (fun x =>
        if urgent then { x with rx1 := x.rx1 ++ [(sender, payload)] } else { x with rx0 := x.rx0 ++ [(sender, payload)] })
      match (s.core c).wait with
      | some (.recv rd rs1) =>
        match (s.core c).takeMsg with
        | some (m, x) => ((s.setCore c (x.putMsg rd rs1 m)).resumeTask c).retire c
        | none => s
      | _ => s)

/-- A tally instruction: the tally in s[rs1][13:0] must be the partition's (06 R198). -/
def State.tallyInsn (s : State) (c : Nat) (r : RArg) (fn : BitVec 6) (uses : List (BitVec 5)) (ill : Option Nat)
    (act : Nat → State → State) : State :=
  let w := encR 0x32 r fn
  s.issue c w uses ill (fun s =>
    let t := bvBits ((s.core c).s r.rs1) 0 14
    if !s.tallyOk (vatOf c) t then s.trapOn c w causeAccess 0 else act t s)

/-- `TINC` (06 R198): posted. -/
def execTinc (c : CoreId) (r : RArg) (s : State) : Host.Outcome State Fault Refusal :=
  .next (s.tallyInsn c r 0 [r.rs1, r.rs2] (resMsg r) (fun t s => s.signed (vatOf c) (idxOf c) fun s =>
    let n := ((s.core c).s r.rs2).toNat
    ((s.sign (vatOf c) (idxOf c) (evInc t n)).sendInc t n c).retire c))

/-- `TWAIT` (06 R203): the wait is registered and the task is suspended. -/
def execTwait (c : CoreId) (r : RArg) (s : State) : Host.Outcome State Fault Refusal :=
  .next (s.tallyInsn c r 1 [r.rd, r.rs1] (resRecv r) (fun t s => s.yieldPoint c (fun s =>
    let s := (s.suspend c 2 (.twait r.rd t false)).send (.tnet (tReg t (vatOf c) c))
    { s with regQueue := s.regQueue ++ [(vatOf c, t, .core c)] })))

/-- `TRD` (06 R198): it blocks until the reply. -/
def execTrd (c : CoreId) (r : RArg) (s : State) : Host.Outcome State Fault Refusal :=
  .next (s.tallyInsn c r 2 [r.rd, r.rs1] (resRecv r) (fun t s =>
    (s.updCore c (fun x => { x with blk := some { kind := .trd r.rd, fa := 0, word := encR 0x32 r 2, waits := [0] } })).send
      (.tnet (tRead t c))))

/-- `TSETT` (06 R199): posted. -/
def execTsett (c : CoreId) (r : RArg) (s : State) : Host.Outcome State Fault Refusal :=
  .next (s.tallyInsn c r 3 [r.rs1, r.rs2] (resMsg r) (fun t s =>
    (s.send (.tnet (tThr t ((s.core c).s r.rs2).toNat c))).retire c))

/-- `HALT` (06 R196): the waits of `FENCE`, then a gated rearmed task registers its gate and holds; else the task
ends. -/
def execHalt (c : CoreId) (r : RArg) (s : State) : Host.Outcome State Fault Refusal :=
  .next (s.issue c (encR 0x36 r 6) [] (lowest [(resR r, 2)]) (fun s => s.yieldPoint c (fun s =>
    if !s.fenced c then s
    else match (s.core c).task with
      | none => s
      | some k =>
        let d := (s.task (vatOf c) k).desc
        if descRearm d && descGateEn d then
          ((s.setTask (vatOf c) k 1 0).updCore c (fun x => { x with halting := true })).registerGate (vatOf c) k
        else s.haltEnd c false)))

end Sys2Proof.Machine
end

