-- ==== Sys2Proof/Machine/Vector.lean ====
section
/-! DEFINITION. The vector, dot-product, accumulator and conversion instructions of the curd core (04 R115 to R120, 05
R142 to R184). Every member of a cluster acts on its own registers; flags go to the leader (05 R173). -/

namespace Sys2Proof.Machine

open Sys2Proof

/-- What a lane-wise instruction does on one member: the leader as it was before the instruction, the member index, the
member. -/
abbrev MemberOp := CoreSt → Nat → CoreSt → CoreSt × Flags

/-- Run an operation on every member and complete: the flags raised are set in the leader's `FFLAGS` (05 R173); an
instruction that rounds while `FRM` is 4 advances the stochastic counter (05 R165). -/
def State.eachMember (s : State) (c : Nat) (rounds : Bool) (f : MemberOp) : State :=
  let lead := s.core c
  let (s, fl) := (indexed (s.members c)).foldl (fun (acc : State × Flags) e =>
    let (x, g) := f lead e.1 (acc.1.core e.2)
    (acc.1.setCore e.2 x, acc.2 ||| g)) (s, (0 : Flags))
  (s.updCore c (fun x => { x with fflags := x.fflags ||| fl, k := if rounds && x.frm = 4 then x.k + 1 else x.k })).retire c

/-- The rounding context of element `e` on member `m` (05 R164). -/
def CoreSt.rnd (lead : CoreSt) (e m : Nat) : Rnd := ⟨lead.frm.toNat, stochR lead.fseed lead.k e m⟩

/-- Lane i of a vector register. -/
def laneOf (d : Line) (i : Nat) : Nat := bvBits d (32 * i) 32

/-- A vector from 16 lane values. -/
def ofLanes (f : Nat → Nat) : Line :=
  BitVec.ofNat 512 ((List.range 16).foldl (fun acc i => acc + (f i % 2 ^ 32) * 2 ^ (32 * i)) 0)

/-- A number packed from n elements of width w. -/
def packElems (w n : Nat) (f : Nat → Nat) : Nat :=
  (List.range n).foldl (fun acc e => acc + (f e % 2 ^ w) * 2 ^ (w * e)) 0

/-- One element of `VALU`, width w (04 R115). -/
def valuElem (fn w a b : Nat) : Nat :=
  let sa := sextNat a w
  let sb := sextNat b w
  match fn with
  | 0 => (a + b) % 2 ^ w
  | 1 => (a + 2 ^ w - b) % 2 ^ w
  | 2 => a &&& b
  | 3 => a ||| b
  | 4 => a ^^^ b
  | 5 => (a <<< (b % w)) % 2 ^ w
  | 6 => a >>> (b % w)
  | 7 => ((sa >>> (b % w)) % 2 ^ w).toNat
  | 8 => if sa < sb then a else b
  | 9 => if sa < sb then b else a
  | _ => (a * b) % 2 ^ w

/-- The fn[5:0] of `VALU` and `VFP`. -/
def lowFn (v : VArg) : Nat := bvBits v.fn 0 6

/-- Lane i of the result of `VALU` on one member: unchanged outside the predicate. -/
def valuLane (v : VArg) (x : CoreSt) (i : Nat) : Nat :=
  let w := 32 / 2 ^ v.fmt.toNat
  if (x.p v.pm.toNat).getLsbD i then
    packElems w (32 / w) (fun e =>
      valuElem (lowFn v) w (element (laneOf (x.v v.vs1.toNat) i) w e) (element (laneOf (x.v v.vs2.toNat) i) w e))
  else laneOf (x.v v.vd.toNat) i

/-- `VALU` on one member. -/
def valuMember (v : VArg) : MemberOp := fun _ _ x => (x.setV v.vd.toNat (ofLanes (valuLane v x)), 0)

/-- `VALU` (04 R115). -/
def execValu (c : CoreId) (v : VArg) (s : State) : Host.Outcome State Fault Refusal :=
  .next (s.issue c (encV 0x20 v) [] (lowest [(10 < lowFn v, 1), (v.fn.getLsbD 6 || 2 < v.fmt.toNat, 2)]) (fun s =>
    s.eachMember c false (valuMember v)))

/-- Element e of the result of `VFP` on one member, with the flags it raises: unchanged outside the predicate. -/
def vfpOne (v : VArg) (lead : CoreSt) (m : Nat) (x : CoreSt) (e : Nat) : Nat × Flags :=
  let w := fmtWidth v.fmt.toNat
  let d := (x.v v.vd.toNat).toNat
  if (x.p v.pm.toNat).getLsbD (e * w / 32) then
    vfpElem (lowFn v) (fmtBin v.fmt.toNat) (lead.rnd e m) (element (x.v v.vs1.toNat).toNat w e)
      (element (x.v v.vs2.toNat).toNat w e) (element d w e)
  else (element d w e, 0)

/-- `VFP` on one member. -/
def vfpMember (v : VArg) : MemberOp := fun lead m x =>
  let w := fmtWidth v.fmt.toNat
  let res := (List.range (512 / w)).map (vfpOne v lead m x)
  (x.setV v.vd.toNat (BitVec.ofNat 512 (packElems w (512 / w) (fun e => (res.getD e (0, 0)).1))),
    res.foldl (fun acc r => acc ||| r.2) 0)

/-- `VFP` (05 R166). -/
def execVfp (c : CoreId) (v : VArg) (s : State) : Host.Outcome State Fault Refusal :=
  let fmt := v.fmt.toNat
  .next (s.issue c (encV 0x21 v) [] (lowest [(5 < lowFn v, 1), (v.fn.getLsbD 6 || fmt < 2 || 4 < fmt, 2)]) (fun s =>
    s.eachMember c true (vfpMember v)))

/-- `VMOV` (04 R115): the fields a row does not use are reserved. -/
def execVmov (c : CoreId) (v : VSArg) (s : State) : Host.Outcome State Fault Refusal :=
  let fn := v.fn.toNat
  let unused := match fn with
    | 0 => v.rs ≠ 0 || v.lane ≠ 0
    | 1 => v.vs1 ≠ 0 || v.lane ≠ 0
    | 2 => v.vs1 ≠ 0
    | 3 => v.vd ≠ 0
    | 4 => v.vd.getLsbD 3 || v.vs1 ≠ 0 || v.lane ≠ 0
    | _ => v.vs1.getLsbD 3 || v.vd ≠ 0 || v.lane ≠ 0
  let uses := if fn = 0 then [] else [v.rs]
  .next (s.issue c (encVS 0x22 v) uses (lowest [(5 < fn, 1), (v.res ≠ 0 || unused, 2)]) (fun s =>
    let lead := s.core c
    let sv := (lead.s v.rs).toNat
    let i := v.lane.toNat
    match fn with
    | 3 => (s.updCore c (fun x => x.setS v.rs (BitVec.ofNat 32 (laneOf (x.v v.vs1.toNat) i)))).retire c
    | 5 => (s.updCore c (fun x => x.setS v.rs ((x.p (bvBits v.vs1 0 3)).setWidth 32))).retire c
    | _ => s.eachMember c false (fun _ _ x =>
        match fn with
        | 0 => (x.setV v.vd.toNat (x.v v.vs1.toNat), 0)
        | 1 => (x.setV v.vd.toNat (ofLanes (fun _ => sv)), 0)
        | 2 => (x.setV v.vd.toNat (ofLanes (fun l => if l = i then sv else laneOf (x.v v.vd.toNat) l)), 0)
        | _ => (x.setP (bvBits v.vd 0 3) (BitVec.ofNat 16 sv), 0))))

/-- The source index of lane i of `VSHUF` (0) or `VROT` (1) over n lanes (04 R115). -/
def permIndex (fn n i : Nat) (ctl : Nat → Nat) : Nat := if fn = 0 then ctl i % n else (i + ctl 0) % n

/-- Lane i of a register of a whisk's members, as they were before the instruction. -/
def wideLane (olds : List CoreSt) (r i : Nat) : Nat := laneOf ((olds.getD (i / 16) {}).v r) (i % 16)

/-- Lane i of the result of `VPERM` on member m: unchanged outside the predicate. -/
def vpermLane (v : VArg) (olds : List CoreSt) (m : Nat) (x : CoreSt) (i : Nat) : Nat :=
  let wide := v.fn.getLsbD 6
  let get := fun (r i : Nat) => if wide then wideLane olds r i else laneOf (x.v r) i
  if (x.p v.pm.toNat).getLsbD i then
    get v.vs1.toNat (permIndex (lowFn v) (if wide then 32 else 16) (i + if wide then 16 * m else 0) (get v.vs2.toNat))
  else laneOf (x.v v.vd.toNat) i

/-- `VPERM` on one member. -/
def vpermMember (v : VArg) (olds : List CoreSt) : MemberOp := fun _ m x => (x.setV v.vd.toNat (ofLanes (vpermLane v olds m x)), 0)

/-- `VPERM` (04 R115, R120): over 16 lanes of each member, or over the 32 lanes of a whisk with `W` set. -/
def execVperm (c : CoreId) (v : VArg) (s : State) : Host.Outcome State Fault Refusal :=
  .next (s.issue c (encV 0x23 v) []
    (lowest [(1 < lowFn v, 1), (v.fmt ≠ 0, 2), (v.fn.getLsbD 6 && (s.core c).kind ≠ 2, 4)]) (fun s =>
    s.eachMember c false (vpermMember v ((s.members c).map (fun m => s.core m)))))

/-- One lane of `VCMP` (04 R115, 05 R167). -/
def vcmpLane (fn fmt a b : Nat) : Bool × Flags :=
  match fn with
  | 0 => (a = b, 0)
  | 1 => (a ≠ b, 0)
  | 2 => (sextNat a 32 < sextNat b 32, 0)
  | 3 => (sextNat a 32 ≤ sextNat b 32, 0)
  | 4 => (a < b, 0)
  | 5 => (a ≤ b, 0)
  | _ => fcmpElem fn (fmtBin fmt) (a % 2 ^ fmtWidth fmt) (b % 2 ^ fmtWidth fmt)

/-- `VCMP` on one member: a lane outside the predicate writes 0. -/
def vcmpMember (v : VArg) : MemberOp := fun _ _ x =>
  let res := (List.range 16).map (fun i =>
    if (x.p v.pm.toNat).getLsbD i then
      vcmpLane v.fn.toNat v.fmt.toNat (laneOf (x.v v.vs1.toNat) i) (laneOf (x.v v.vs2.toNat) i)
    else (false, 0))
  (x.setP (bvBits v.vd 0 3) (BitVec.ofNat 16 (packElems 1 16 (fun i => (res.getD i (false, 0)).1.toNat))),
    res.foldl (fun acc r => acc ||| r.2) 0)

/-- `VCMP` (04 R115, 05 R167). -/
def execVcmp (c : CoreId) (v : VArg) (s : State) : Host.Outcome State Fault Refusal :=
  let fn := v.fn.toNat
  let fmt := v.fmt.toNat
  let badFmt := if fn < 6 then fmt ≠ 0 else fmt < 2 || 4 < fmt
  .next (s.issue c (encV 0x24 v) [] (lowest [(8 < fn, 1), (v.vd.getLsbD 3 || badFmt, 2)]) (fun s =>
    s.eachMember c false (vcmpMember v)))

/-! ### Dot products (04 R117, R118, R120, 05 R156 to R159) -/

/-- Add terms to the lanes of an accumulator set. -/
def addTerms (x : CoreSt) (ad : Nat) (lanes : List Nat) (terms : Nat → List Term) : CoreSt × Flags :=
  lanes.foldl (fun (acc : CoreSt × Flags) i =>
    let (l, f) := (acc.1.lane ad i).addAll (terms i)
    (acc.1.setLane ad i l, acc.2 ||| f)) (x, 0)

/-- The elements of a row of `DOT` (04 R117). -/
def dotRow (fmt : Nat) : Nat := match fmt with | 0 => 16 | 1 => 8 | 4 => 1 | _ => 2

/-- The terms of lane i of `DOT`: row i of W times X, X from byte `sel` × its size (04 R117). -/
def dotTerms (fmt sel wts acts i : Nat) : List Term :=
  let w := fmtWidth fmt
  let n := dotRow fmt
  (List.range n).map (fun j =>
    termMul (decodeElem fmt (element wts w (n * i + j))) (decodeElem fmt (element (acts >>> (sel * w * n)) w j)))

/-- The illegal forms of `DOT` beyond its function code (04 R116, R117). -/
def dotIll (d : DArg) (extra : List (Bool × Nat)) : Option Nat :=
  let fmt := d.fmt.toNat
  lowest ([(d.res ≠ 0 || 4 < fmt || (fmt ≤ 1 && 7 < d.sel.toNat), 2), (fmt ≤ 1 && oddReg d.vA, 3)] ++ extra)

/-- The weights of `DOT`: a vector pair for the integer formats. -/
def dotWeights (x : CoreSt) (d : DArg) : Nat :=
  if d.fmt.toNat ≤ 1 then x.vpair d.vA.toNat else (x.v d.vA.toNat).toNat

/-- The lanes of `DOT` that change: those of the predicate, and only 0 to 7 in binary32. -/
def dotLanes (x : CoreSt) (d : DArg) : List Nat :=
  (List.range (if d.fmt = 4 then 8 else 16)).filter (fun i => (x.p d.pm.toNat).getLsbD i)

/-- `DOT` (04 R117). -/
def execDot (c : CoreId) (d : DArg) (s : State) : Host.Outcome State Fault Refusal :=
  .next (s.issue c (encD 0x28 d 0) [] (dotIll d []) (fun s =>
    s.eachMember c false (fun _ _ x =>
      addTerms x d.ad.toNat (dotLanes x d) (dotTerms d.fmt.toNat d.sel.toNat (dotWeights x d) (x.v d.vB.toNat).toNat))))

/-- `DOT.P` (04 R120): the leader's weights times each member's own activations; a press only. -/
def execDotP (c : CoreId) (d : DArg) (s : State) : Host.Outcome State Fault Refusal :=
  .next (s.issue c (encD 0x28 d 1) [] (dotIll d [((s.core c).kind ≠ 1, 4)]) (fun s =>
    s.eachMember c false (fun lead _ x =>
      addTerms x d.ad.toNat (dotLanes x d) (dotTerms d.fmt.toNat d.sel.toNat (dotWeights lead d) (x.v d.vB.toNat).toNat))))

/-- Byte k of a word. -/
def byteOf (w : Word) (k : Nat) : Nat := bvBits w (8 * k) 8

/-- The format code of an activation (04 R118). -/
def afmtCode (a : Nat) : Nat := match a with | 0 => 10 | 1 => 5 | _ => 6

/-- The terms of lane i of `DOTMX` (04 R118, 05 R147, R153, R156). `lead` holds the scalar operands. -/
def dotmxTerms (lead : CoreSt) (f : XArg) (wts acts i : Nat) : List Term :=
  let fmt := f.fmt.toNat
  let four := fmt = 9 ∨ fmt = 11
  let n := if four then 16 else 8
  let w := if four then 4 else 8
  let sel := f.sel.toNat
  let wscale :=
    if four then byteOf (lead.s (f.ss + BitVec.ofNat 5 (i / 2 / 4))) (i / 2 % 4) else byteOf (lead.s f.ss) (i / 4)
  let sa := if fmt = 11 then f.ss + 4 else if fmt = 9 then f.ss + 2 else f.ss + 1
  let ascale := byteOf (lead.s sa) (sel / 4)
  (List.range n).map (fun j =>
    let e := n * i + j
    let wv := (decodeElem fmt (element wts w e)).scaled wscale
    let wv := if fmt = 11 then ob4Value wv (lead.s (f.ss + 2)).toNat (lead.s (f.ss + 3)).toNat e else wv
    termMul wv ((decodeElem (afmtCode f.afmt.toNat) (element (acts >>> (64 * sel)) 8 j)).scaled ascale))

/-- `DOTMX` (04 R118): all 16 lanes are written. -/
def execDotmx (c : CoreId) (f : XArg) (s : State) : Host.Outcome State Fault Refusal :=
  let fmt := f.fmt.toNat
  let ss := f.ss.toNat
  let four := fmt = 9 || fmt = 11
  let top := if fmt = 11 then ss + 4 else if fmt = 9 then ss + 2 else ss + 1
  let ill := lowest [(f.fn ≠ 0, 1), (fmt < 5 || 11 < fmt || f.afmt = 3 || (four && f.sel.getLsbD 0) || 31 < top, 2),
    (oddReg f.vs1 || (fmt = 9 && oddReg f.ss) || (fmt = 11 && ss % 4 ≠ 0), 3)]
  let uses := (List.range (top - ss + 1)).map (fun k => f.ss + BitVec.ofNat 5 k)
  .next (s.issue c (encX 0x29 f) uses ill (fun s =>
    s.eachMember c false (fun lead _ x =>
      addTerms x f.ad.toNat (List.range 16) (dotmxTerms lead f (x.vpair f.vs1.toNat) (x.v f.vs2.toNat).toNat))))

/-! ### Accumulator operations (04 R115, 05 R168, R184) -/

/-- The lanes of the predicate. -/
def predLanes (x : CoreSt) (pm : BitVec 3) : List Nat := (List.range 16).filter (fun i => (x.p pm.toNat).getLsbD i)

/-- The fields that `CLR` and `PART` do not use (04 R113, R115). -/
def accRes (d : DArg) : Bool := d.res ≠ 0 || d.vA ≠ 0 || d.vB ≠ 0 || d.fmt ≠ 0 || d.sel ≠ 0

/-- The illegal forms of `RD`, `RDC` and `ADDV` (04 R116). -/
def accIll (d : DArg) : Option Nat :=
  lowest [(d.res ≠ 0 || d.vB ≠ 0 || d.sel ≠ 0 || !([2, 3, 4, 12].contains d.fmt.toNat), 2)]

/-- Clear the predicated lanes. -/
def clearLanes (x : CoreSt) (d : DArg) : CoreSt :=
  (predLanes x d.pm).foldl (fun x i => x.setLane d.ad.toNat i {}) x

/-- `ACC.CLR` (05 R155). -/
def execAccClr (c : CoreId) (d : DArg) (s : State) : Host.Outcome State Fault Refusal :=
  .next (s.issue c (encD 0x2A d 0) [] (lowest [(accRes d, 2)]) (fun s =>
    s.eachMember c false (fun _ _ x => (clearLanes x d, 0))))

/-- Read the predicated lanes out into v[vA] (05 R168). -/
def readLanes (lead : CoreSt) (m : Nat) (x : CoreSt) (d : DArg) : CoreSt × Flags :=
  let lanes := predLanes x d.pm
  let res := (List.range 16).map (fun i =>
    if lanes.contains i then (x.lane d.ad.toNat i).readOut d.fmt.toNat (lead.rnd i m) else (laneOf (x.v d.vA.toNat) i, 0))
  (x.setV d.vA.toNat (ofLanes (fun i => (res.getD i (0, 0)).1)), res.foldl (fun acc r => acc ||| r.2) 0)

/-- `ACC.RD` (05 R168). -/
def execAccRd (c : CoreId) (d : DArg) (s : State) : Host.Outcome State Fault Refusal :=
  .next (s.issue c (encD 0x2A d 1) [] (accIll d) (fun s => s.eachMember c true (fun lead m x => readLanes lead m x d)))

/-- `ACC.RDC` (05 R168): the lanes read are cleared. -/
def execAccRdc (c : CoreId) (d : DArg) (s : State) : Host.Outcome State Fault Refusal :=
  .next (s.issue c (encD 0x2A d 2) [] (accIll d) (fun s =>
    s.eachMember c true (fun lead m x => let (y, f) := readLanes lead m x d; (clearLanes y d, f))))

/-- `ACC.ADDV` (05 R156, R168). -/
def execAccAddv (c : CoreId) (d : DArg) (s : State) : Host.Outcome State Fault Refusal :=
  let fmt := d.fmt.toNat
  .next (s.issue c (encD 0x2A d 3) [] (accIll d) (fun s =>
    s.eachMember c false (fun _ _ x =>
      addTerms x d.ad.toNat (predLanes x d.pm)
        (fun i => [termOf (decodeElem fmt (laneOf (x.v d.vA.toNat) i % 2 ^ fmtWidth fmt))]))))

/-- The home vat of a reduction tag (06 R205). -/
def tagVat (tag : BitVec 16) : Nat := tag.toNat / 1024

/-- `ACC.PART` (05 R184, 06 R205): each predicated lane of each member goes out under `PTAG`. -/
def execAccPart (c : CoreId) (d : DArg) (s : State) : Host.Outcome State Fault Refusal :=
  let w := encD 0x2A d 4
  .next (s.issue c w [] (lowest [(accRes d, 2)]) (fun s =>
    let ptag := (s.core c).ptag
    if !s.samePart (vatOf c) (tagVat (ptag.setWidth 16)) then s.trapOn c w causeAccess 0
    else s.signed (vatOf c) (idxOf c) fun s =>
      let s := (s.members c).foldl (fun s m =>
        let x := s.core m
        (predLanes x d.pm).foldl (fun s i =>
          let p := (x.lane d.ad.toNat i).toPartial ptag i
          (s.sign (vatOf c) (idxOf c) (evPart p)).send (.part m p)) s) s
      s.retire c))

/-! ### Conversions (04 R119, 05 R169 to R171) -/

/-- The element count of a conversion (04 R119). -/
def cvtCount (src dst : Nat) : Nat :=
  if isMx src || isMx dst then 32 else 512 / max (fmtWidth src) (fmtWidth dst)

/-- A format that `CVT` accepts (04 R116). -/
def cvtFmt (f : Nat) : Bool := 2 ≤ f && f ≤ 10

/-- The largest finite value of an MX format as m × 2^e (05 R150). -/
def maxFin (fmt : Nat) : Nat × Int :=
  if fmt = 10 then (127, -6) else (fmtBin fmt).magnitude (fmtBin fmt).maxCode

/-- Is a finite magnitude smaller? -/
def magLt (a b : Nat × Int) : Bool :=
  let q := min a.2 b.2
  a.1 * 2 ^ (a.2 - q).toNat < b.1 * 2 ^ (b.2 - q).toNat

/-- The block exponent X of R170 for the largest magnitude. -/
def mxExponent (fmt : Nat) (amax : Nat × Int) : Int :=
  if amax.1 = 0 then -127
  else
    let mf := maxFin fmt
    let x0 : Int := ((Nat.log2 amax.1 : Int) + amax.2) - ((Nat.log2 mf.1 : Int) + mf.2)
    let x := if magLt (mf.1, mf.2 + x0) amax then x0 + 1 else x0
    min (max x (-127)) 127

/-- Convert the values of a block into MX format `fmt` (05 R170): codes, scale, flags. -/
def toMxBlock (fmt : Nat) (rnd : Nat → Rnd) (vs : List Val) : List Nat × Nat × Flags :=
  if vs.any (fun v => v.isNaN || v.isInf) then
    (vs.map (fun _ => 0), 0xFF, Flags.when (vs.any (fun v => v.isInf || v.isSNaN)) .nv)
  else
    let amax := vs.foldl (fun acc v => match v with
      | .fin _ m e => if magLt acc (m, e) then (m, e) else acc
      | _ => acc) ((0, 0) : Nat × Int)
    let x := mxExponent fmt amax
    let res := ((List.range vs.length).zip vs).map (fun p => match p.2 with
      | .fin n m e => toMxElem fmt (rnd p.1) n m (e - x)
      | _ => (0, 0))
    (res.map Prod.fst, (x + 127).toNat, res.foldl (fun acc r => acc ||| r.2) 0)

/-- Does a conversion write its elements and its scale to one register? What that register then holds is not stated: a free
value (log 52). -/
def cvtClash (v : VArg) : Bool := isMx (bvBits v.fn 3 4) && v.vs2 = v.vd

/-- `CVT` on one member (04 R119, 05 R169). `clash` is what a register holds that both results go to. -/
def cvtMember (v : VArg) (clash : Nat → Line) (lead : CoreSt) (m : Nat) (x : CoreSt) : CoreSt × Flags :=
  let src := v.fmt.toNat
  let dst := bvBits v.fn 3 4
  let n := cvtCount src dst
  let ws := fmtWidth src
  let wd := fmtWidth dst
  let from' := if 512 < n * ws then x.vpair v.vs1.toNat else (x.v v.vs1.toNat).toNat
  let scale := bvBits (x.v v.vs2.toNat) 0 8
  let vals := (List.range n).map (fun e =>
    let d := decodeElem src (element from' ws e)
    if isMx src then d.scaled scale else d)
  let put := fun (x : CoreSt) (d : Nat) =>
    if 512 < n * wd then (x.setV v.vd.toNat (BitVec.ofNat 512 d)).setV (v.vd.toNat + 1) (BitVec.ofNat 512 (d / 2 ^ 512))
    else x.setV v.vd.toNat (BitVec.ofNat 512 d)
  if isMx dst then
    let (codes, sc, fl) := toMxBlock dst (fun e => lead.rnd e m) vals
    ((put x (packElems wd n (fun e => codes.getD e 0))).setV v.vs2.toNat
      (if cvtClash v then clash m else BitVec.ofNat 512 sc), fl)
  else
    let res := ((List.range n).zip vals).map (fun p =>
      let (code, fl) := toFmt dst (lead.rnd p.1 m) p.2
      (code, fl ||| Flags.when p.2.isSNaN .nv))
    (put x (packElems wd n (fun e => (res.getD e (0, 0)).1)), res.foldl (fun acc r => acc ||| r.2) 0)

/-- A conversion on every member. -/
def State.convert (s : State) (c : Nat) (v : VArg) : State :=
  let t := s.eachMember c true (cvtMember v (fun m => Config.freeLine (s.free + m)))
  if cvtClash v then { t with free := t.free + 4 } else t

/-- `CVT` (04 R119). -/
def execCvt (c : CoreId) (v : VArg) (s : State) : Host.Outcome State Fault Refusal :=
  let src := v.fmt.toNat
  let dst := bvBits v.fn 3 4
  let ok := cvtFmt src && cvtFmt dst
  let n := cvtCount src dst
  .next (s.issue c (encV 0x2B v) [] (lowest [(!ok || bvBits v.fn 0 3 ≠ 0 || v.pm ≠ 0, 2),
      (ok && ((512 < n * fmtWidth src && oddReg v.vs1) || (512 < n * fmtWidth dst && oddReg v.vd)), 3)]) (fun s =>
    s.convert c v))

end Sys2Proof.Machine
end

