-- ==== Sys2Proof/Machine/Churn.lean ====
section
/-! DEFINITION. The churn: reduction entries (06 R205 to R208, 15 R474) and churn programs (06 R209 to R212). -/

namespace Sys2Proof.Machine

open Sys2Proof

/-- The churn of a vat. -/
def State.churn (s : State) (v : Nat) : ChurnSt := smGet {} s.churns v

/-- Replace the churn of a vat. -/
def State.setChurn (s : State) (v : Nat) (x : ChurnSt) : State := { s with churns := smSet {} s.churns v x }

/-- Do the ladles, churns and speculation units of a vat accept work: powered, not in reset, the device not fatal
(12 R390), the twin not held (20 R604, R607)? -/
def State.accepts (s : State) (v : Nat) : Bool := s.vatLive v && !s.fatal && !s.twinHeld

/-! ### Reduction entries -/

/-- The key of a lane. -/
def redKey (v e l : Nat) : Nat := (64 * v + e) * 16 + l

/-- A lane of an entry. -/
def State.redLane (s : State) (v e l : Nat) : RedLane := smGet {} s.redLanes (redKey v e l)

/-- Replace a lane. -/
def State.setRedLane (s : State) (v e l : Nat) (x : RedLane) : State :=
  { s with redLanes := smSet {} s.redLanes (redKey v e l) x }

/-- Clear the lanes of an entry. -/
def State.clearLanes (s : State) (v e : Nat) : State := (List.range 16).foldl (fun s l => s.setRedLane v e l {}) s

/-- The churn's fault source (17 R521). -/
def State.churnFault (s : State) (v : Nat) : State := s.raiseVat v 4

/-- Count in `RED_CFG`. -/
def State.redCfgErr (s : State) (v : Nat) : State := s.bumpErr VAT_CHURN_ERR1.RED_CFG v

/-- A result write fails (06 R208, R221): `addr` is the global address, or the virtual one where none was formed. -/
def State.redFail (s : State) (v e l : Nat) (addr : Dword) (virt : Bool) : State :=
  let s := (s.setFld VAT_RED_STAT.FAULT 1 v e).churnFault v
  s.fault { cls := 0x71, part := s.partOf v, unit := 2, inst := v, addr := addr
            info := e + l * 2 ^ 6 + (if virt then 2 ^ 10 else 0) }

/-- The `INFO` of a churn's translation record (13 R403). -/
def churnXltInfo (v : Nat) (write : Bool) : Nat := v + 2 * 2 ^ 14 + (if write then 2 ^ 16 else 0)

/-- Split `n` bytes from `va` at line boundaries. -/
def splitLines : Nat → Nat → Nat → Nat → List RedPiece
  | 0, _, _, _ => []
  | fuel + 1, va, n, d =>
    let k := min n (64 - va % 64)
    if n = 0 then [] else ⟨va, k, d % 2 ^ (8 * k)⟩ :: splitLines fuel (va + k) (n - k) (d >>> (8 * k))

/-- Does a requester already wait for a walk of this page? -/
def State.walking (s : State) (a : Agent) (va : Nat) : Bool :=
  s.walks.any (fun w => w.reqs.any (fun r => r.src = a && r.va = va))

/-- A requester found the walk queue full: it asks again when a walk leaves it (13 R400). -/
def State.retryXlt (s : State) (a : Agent) : State :=
  if s.xltRetry.contains a then s else { s with xltRetry := s.xltRetry ++ [a] }

/-- Try to send one waiting piece of a result (06 R208). -/
def State.redSendOne (s : State) (v e l : Nat) (p : RedPiece) : State :=
  let x := s.redLane v e l
  let x' := { x with todo := x.todo.erase p }
  let who := Agent.redEntry v e l
  if 2 ^ 48 ≤ p.va then (s.setRedLane v e l x').redFail v e l (BitVec.ofNat 64 p.va) true
  else
    match s.xlate v p.va true with
    | .ga a s =>
      let m := byteMask (p.va % 64) p.n
      let d := placeAt (p.va % 64) p.data
      let s := (s.setRedLane v e l { x' with out := x'.out ++ [(p.va, a)] }).sign v (64 + e) (evLine a m d)
      s.send (.req who p.va (a &&& ~~~63) (.write m d))
    | .reg off =>
      (s.setRedLane v e l { x' with out := x'.out ++ [(p.va, regSpace off)] }).send
        (.req who p.va (regSpace off) (.regWrite p.n (BitVec.ofNat 64 p.data)))
    | .fault r s =>
      let s := match s.partOf v with
        | some q => s.xltFault q 2 v p.va r (churnXltInfo v true)
        | none => s
      (s.setRedLane v e l x').redFail v e l (BitVec.ofNat 64 p.va) true
    | .miss =>
      if s.walking who p.va then s
      else ((s.partOf v).bind (fun q => s.walkRequest v q ⟨who, p.va, true, false⟩)).getD (s.retryXlt who)
    | .deny => (s.setRedLane v e l x').redFail v e l (BitVec.ofNat 64 p.va) true
    | .noPart => (s.setRedLane v e l x').redFail v e l (BitVec.ofNat 64 p.va) true

/-- Send the waiting result pieces of a lane. -/
def State.redSend (s : State) (v e l : Nat) : State :=
  (s.redLane v e l).todo.foldl (fun s p => s.redSendOne v e l p) s

/-- The size of a result at `DST` (06 R206). -/
def redSize (fmt : Nat) : Nat := match fmt with | 2 => 2 | 3 => 2 | 4 => 4 | 12 => 4 | _ => 128

/-- The valid devices of a multicast group (15 R475). -/
def State.mcgDevs (s : State) (g : Nat) : List Nat :=
  (List.range 16).filterMap (fun k =>
    let e := bvBits (s.reg MC_FAB_MCG g (k / 4)) (16 * (k % 4)) 16
    if e.testBit 15 then some (e % 2 ^ 14) else none)

/-- A lane completes (06 R208): it is forwarded (15 R474), or read out and written. -/
def State.laneDone (s : State) (v e l : Nat) (p : Partial) : State :=
  let s := s.setFld VAT_RED_STAT.DONE (s.fld VAT_RED_STAT.DONE v e ||| 2 ^ l) v e
  if s.bit VAT_RED_XFWD.EN v e then
    let tag := s.fld VAT_RED_XFWD.XTAG v e
    let gen := s.fld VAT_RED_CFG.GEN v e
    let q : Partial := { p with
      tag := BitVec.ofNat 16 (tag / 1024 * 1024 + gen * 64 + tag % 64)
      lane := BitVec.ofNat 4 l
      expect := BitVec.ofNat 8 (s.fld VAT_RED_XFWD.XEXPECT v e)
      merged := 1
      wins := encodeAcc (partialValue p) }
    let s := (s.mcgDevs (s.fld VAT_RED_XFWD.GROUP v e)).foldl (fun s d =>
      (s.sign v (64 + e) (evPart q)).send (.xpart d ((s.partOf v).getD 0) q)) s
    if s.bit VAT_RED_XFWD.SELF v e then (s.sign v (64 + e) (evPart q)).send (.part (vatOrg v) q) else s
  else
    let fmt := s.fld VAT_RED_CFG.FMT v e
    let frm := s.fld VAT_RED_CFG.FRM v e
    let addr := s.fld VAT_RED_DST.DST v e + l * redSize fmt
    let setFl := fun (s : State) (f : Flags) =>
      s.setFld VAT_CHURN_FLAGS.FLAGS (s.fld VAT_CHURN_FLAGS.FLAGS v ||| (f ||| Flags.when p.aov .aov).toNat) v
    if fmt = 0 then
      let q := { p with lane := BitVec.ofNat 4 l, wins := encodeAcc (partialValue p) }
      let s := setFl s 0
      (s.setRedLane v e l { s.redLane v e l with todo := splitLines 4 addr 128 (partialBytes q) }).redSend v e l
    else
      let x := s.churn v
      let c : Rnd := ⟨frm, stochR (BitVec.ofNat 32 (s.fld VAT_CHURN_SEED.SEED v)) x.k l 0⟩
      let (code, fl) := ({ a := partialValue p, p := p.p, n := p.n, q := p.q } : Lane).readOut fmt c
      let s := if frm = 4 then s.setChurn v { x with k := x.k + 1 } else s
      let s := setFl s fl
      (s.setRedLane v e l { s.redLane v e l with todo := splitLines 4 addr (redSize fmt) code }).redSend v e l

/-- Is an `FMT` reserved (06 R206)? -/
def redFmtBad (fmt : Nat) : Bool := !(fmt = 0 || fmt = 2 || fmt = 3 || fmt = 4 || fmt = 12)

/-- Is a partial of lane `l` dropped by the first row of 06 R207? -/
def State.redBad (s : State) (v e l : Nat) : Bool :=
  !s.bit VAT_RED_CFG.EN v e || s.bit VAT_RED_STAT.FAULT v e
    || (!s.bit VAT_RED_XFWD.EN v e && (redFmtBad (s.fld VAT_RED_CFG.FMT v e) || 4 < s.fld VAT_RED_CFG.FRM v e))
    || !(s.fld VAT_RED_CFG.LANES v e).testBit l

/-- A partial meets its entry (06 R207): dropped, held early, or merged. -/
def State.redStep (s : State) (v : Nat) (p : Partial) : State :=
  let e := p.tag.toNat % 64
  let g := p.tag.toNat / 64 % 16
  let l := p.lane.toNat
  let gen := s.fld VAT_RED_CFG.GEN v e
  if s.redBad v e l then s.redCfgErr v
  else if g = (gen + 1) % 16 then
    let x := s.churn v
    s.setChurn v { x with early := x.early ++ [p] }
  else if g ≠ gen then
    (s.bumpErr VAT_CHURN_ERR0.RED_GEN v).fault
      { cls := 0x70, part := s.partOf v, unit := 2, inst := v, info := p.tag.toNat + l * 2 ^ 16 }
  else if (s.fld VAT_RED_STAT.DONE v e).testBit l then s.bumpErr VAT_CHURN_ERR0.RED_EXCESS v
  else
    let x := s.redLane v e l
    let first := x.part.getD p
    let differ := first.expect ≠ p.expect
    let total := match x.part with | some o => o.merged + p.merged | none => p.merged
    let excess := expectCount first.expect < total
    let m := match x.part with | some o => partialMerge o p | none => p
    let m := if differ ∨ excess then { m with q := true } else m
    let s := if differ then s.redCfgErr v else s
    let s := if excess then s.bumpErr VAT_CHURN_ERR0.RED_EXCESS v else s
    let s := (s.setRedLane v e l { x with part := some m }).setFld VAT_RED_STAT.BUSY 1 v e
    if expectCount first.expect ≤ total then s.laneDone v e l m else s

/-- Is the churn's invocation queue full (06 R209)? -/
def State.invFull (s : State) (v : Nat) : Bool := 16 ≤ (s.churn v).invq.length

/-- Queue an invocation. -/
def State.invoke (s : State) (v : Nat) (i : Invoc) : State :=
  let x := s.churn v
  s.setChurn v { x with invq := x.invq ++ [i] }

/-- The entry completes when it can (06 R208): the state after its three steps, and the held early partials that are
merged next. -/
def State.redFinish (s : State) (v e : Nat) : Option (State × List Partial) :=
  let lanes := s.fld VAT_RED_CFG.LANES v e
  let idle := (List.range 16).all (fun l => (s.redLane v e l).todo = [] && (s.redLane v e l).out = [])
  let prog := s.bit VAT_RED_CFG.PROG_EN v e
  let ready : Bool := s.bit VAT_RED_STAT.BUSY v e && s.fld VAT_RED_STAT.DONE v e &&& lanes = lanes && idle
    && !s.bit VAT_RED_STAT.FAULT v e && !(prog && s.invFull v)
  if !ready then none
  else
    let gen := s.fld VAT_RED_CFG.GEN v e
    let out := s.fld VAT_RED_CFG.OUT v e
    let s := if !s.bit VAT_RED_CFG.OUT_EN v e then s
      else if s.tallyOk v out then s.sendInc out 1 (vatOrg v)
      else (s.redCfgErr v).churnFault v
    let s := if prog then
        s.invoke v ⟨s.fld VAT_RED_CFG.PROG v e, BitVec.ofNat 32 (1024 * v + 64 * gen + e + lanes * 2 ^ 16), 0⟩
      else s
    let s := s.signClose v (64 + e)
    let s := ((s.setFld VAT_RED_CFG.GEN ((gen + 1) % 16) v e).clearLanes v e).setReg VAT_RED_STAT 0 v e
    let x := s.churn v
    let mine := fun (p : Partial) => p.tag.toNat % 64 = e
    some (s.setChurn v { x with early := x.early.filter (fun p => !mine p) }, x.early.filter mine)

/-- Handle a partial, then everything that its completion releases; a completion takes at least one early partial, so
a chain is no longer than the early queue. -/
def State.redHandle : Nat → State → Nat → Partial → State
  | 0, s, _, _ => s
  | fuel + 1, s, v, p =>
    let s := s.redStep v p
    match s.redFinish v (p.tag.toNat % 64) with
    | none => s
    | some (s, es) => es.foldl (fun s q => State.redHandle fuel s v q) s

/-- Complete an entry where it can be completed. -/
def State.redTry (s : State) (v e : Nat) : State :=
  match s.redFinish v e with
  | none => s
  | some (s, es) => es.foldl (fun s q => State.redHandle 17 s v q) s

/-- Does a full early queue withhold the acknowledge of this partial (06 R207)? -/
def State.earlyFull (s : State) (v : Nat) (p : Partial) : Bool :=
  let e := p.tag.toNat % 64
  16 ≤ (s.churn v).early.length && p.tag.toNat / 64 % 16 = (s.fld VAT_RED_CFG.GEN v e + 1) % 16
    && !s.redBad v e p.lane.toNat

/-- `CHURN_PARTIAL` (06 R207, 05 R183): `src` is the core, or the unit, that sent it; a malformed partial is
replaced, one to a vat without power is dropped and counted (18 R557). -/
def execChurnPartial (v : VatId) (src : Nat) (p : Partial) (s : State) : Host.Outcome State Fault Refusal :=
  let q := if partialMalformed p false then partialSanitised p else p
  .next (if !s.vatOn v then (s.recvMsg (.part src p)).absorb v
    else if !s.accepts v ∨ tagVat p.tag ≠ v ∨ s.earlyFull v q then s
    else s.signed v (64 + p.tag.toNat % 64) (fun s => (s.recvMsg (.part src p)).redHandle 17 v q))

/-- A result write ends. -/
def State.redWriteEnd (s : State) (v e l va : Nat) (err : Bool) : State :=
  let x := s.redLane v e l
  match x.out.find? (fun o => o.1 = va) with
  | none => s
  | some o =>
    let s := s.recvMsg (.reply (.redEntry v e l) va (if err then .busError else .done))
    let s := s.setRedLane v e l { x with out := x.out.erase o }
    let s := if err then s.redFail v e l o.2 false else s
    s.redTry v e

/-- `RED_RESULT_WRITE_ACK` (06 R208). -/
def execRedResultWriteAck (v : VatId) (e : EntryIx) (lane : Fin 16) (va : Nat) (res : Ack) (s : State) :
    Host.Outcome State Fault Refusal :=
  .next (s.redWriteEnd v e lane va (res = .err))

/-- The rule of 06 R206 for the registers of an entry: a write while `BUSY` and not `FAULT` is ignored and counted. -/
def State.redGuard (s : State) (v e : Nat) (act : State → State) : State :=
  if !s.vatLive v then s
  else if s.bit VAT_RED_STAT.BUSY v e && !s.bit VAT_RED_STAT.FAULT v e then s.redCfgErr v
  else act s

/-- `RED_CFG_WRITE` (06 R206, R208): while `FAULT` is 1, it clears the entry and discards its early partials. -/
def execRedCfgWrite (v : VatId) (e : EntryIx) (data : Dword) (s : State) : Host.Outcome State Fault Refusal :=
  .next (s.redGuard v e (fun s =>
    let s := if s.bit VAT_RED_STAT.FAULT v e then
        let s := (s.clearLanes v e).setReg VAT_RED_STAT 0 v e
        let x := s.churn v
        let mine := fun (p : Partial) => p.tag.toNat % 64 = e.val
        let s := s.setChurn v { x with early := x.early.filter (fun p => !mine p) }
        (x.early.filter mine).foldl (fun s _ => s.redCfgErr v) s
      else s
    s.setReg VAT_RED_CFG (data &&& 0x007FFFFFFFFFFFFF) v e))

/-- `RED_DST_WRITE` (06 R206). -/
def execRedDstWrite (v : VatId) (e : EntryIx) (data : Dword) (s : State) : Host.Outcome State Fault Refusal :=
  .next (s.redGuard v e (fun s => s.setReg VAT_RED_DST (data &&& 0xFFFFFFFFFFFF) v e))

/-- `RED_XFWD_WRITE` (15 R474). -/
def execRedXfwdWrite (v : VatId) (e : EntryIx) (data : Dword) (s : State) : Host.Outcome State Fault Refusal :=
  .next (s.redGuard v e (fun s => s.setReg VAT_RED_XFWD (data &&& 0xFFFFFFFF) v e))

/-! ### Invocations (06 R209) -/

/-- `CHURN_INVOCATION_START` (06 R209): the next invocation starts with program memory as it is now; entries that waited
for a queue place complete. -/
def execChurnInvocationStart (v : VatId) (s : State) : Host.Outcome State Fault Refusal :=
  let x := s.churn v
  .next (if !s.accepts v ∨ x.run.isSome then s
    else match x.invq with
      | [] => s
      | i :: rest =>
        let prog := (List.range 2048).filterMap (fun k =>
          let w : Word := (s.reg VAT_CHURN_PROG v k).setWidth 32
          if w = 0 then none else some (k, w))
        let regs : SMap Dword := smSet 0 (smSet 0 [] 1 (i.arg.setWidth 64)) 2 (BitVec.ofNat 64 i.kind)
        let st := if i.kind = 0 then some (64 + i.arg.toNat % 64) else none
        let s := s.setChurn v { x with invq := rest, run := some { stream := st, pc := i.entry, regs := regs, prog := prog } }
        (List.range 64).foldl (fun s e => s.redTry v e) s)

/-- `CHURN_CALL_WRITE` (06 R209): a full queue withholds its acknowledge. -/
def execChurnCallWrite (v : VatId) (data : Dword) (s : State) : Host.Outcome State Fault Refusal :=
  .next (if !s.accepts v ∨ s.invFull v then s
    else s.invoke v ⟨bvBits data 32 11, data.setWidth 32, 1⟩)

/-- `CHURN_SEED_WRITE` (06 R208). -/
def execChurnSeedWrite (v : VatId) (seed : Word) (s : State) : Host.Outcome State Fault Refusal :=
  .next (if !s.vatLive v then s
    else (s.setFld VAT_CHURN_SEED.SEED seed.toNat v).setChurn v { s.churn v with k := 0 })

/-- `CHURN_RSEED_WRITE` (06 R211). -/
def execChurnRseedWrite (v : VatId) (seed : Dword) (s : State) : Host.Outcome State Fault Refusal :=
  .next (if !s.vatLive v then s
    else (s.setReg VAT_CHURN_RSEED seed v).setChurn v
      { s.churn v with rng := if seed = 0 then 0x9E3779B97F4A7C15 else seed })

/-! ### Program instructions (06 R210) -/

/-- The word of a churn instruction. -/
def encC (op : BitVec 6) (a : CArg) : Word := op ++ a.rd ++ a.ra ++ a.rb ++ a.imm

/-- The code of an integer operation. -/
def churnOpCode : ChurnOp → BitVec 6
  | .add => 1 | .sub => 2 | .and => 3 | .or => 4 | .xor => 5 | .sll => 6 | .srl => 7 | .minu => 8 | .maxu => 9
  | .min => 10 | .max => 11

/-- The code of a binary32 operation. -/
def churnFCode : ChurnF → BitVec 6
  | .fadd => 0x13 | .fsub => 0x14 | .fmul => 0x15

/-- The code of a branch. -/
def churnBrCode : ChurnBr → BitVec 6
  | .beq => 0x1A | .bne => 0x1B | .bltu => 0x1C

/-- Is the word a reserved op, or is a field that its operation does not use non-zero (06 R210, R212)? -/
def churnReserved (w : Word) : Bool :=
  let op := bvBits w 26 6
  let rd := bvBits w 22 4 ≠ 0
  let ra := bvBits w 18 4 ≠ 0
  let rb := bvBits w 14 4 ≠ 0
  let imm := bvBits w 0 14 ≠ 0
  if op = 0 ∨ 0x21 ≤ op then true
  else if op ≤ 0x0B then imm
  else if op ≤ 0x11 then rb
  else if op ≤ 0x15 then imm
  else if op ≤ 0x17 then rb || imm
  else if op = 0x18 then ra || rb || imm
  else if op = 0x19 then rd || rb
  else if op ≤ 0x1C then rd
  else if op = 0x1D then rd || imm
  else if op = 0x1E then rd || rb
  else if op = 0x1F then rd || imm
  else rd || ra || rb || imm

/-- A churn register; `c0` reads zero. -/
def ChurnRun.c (r : ChurnRun) (i : BitVec 4) : Dword := if i = 0 then 0 else smGet 0 r.regs i.toNat

/-- Write a churn register; a write to `c0` is ignored. -/
def ChurnRun.setC (r : ChurnRun) (i : BitVec 4) (d : Dword) : ChurnRun :=
  if i = 0 then r else { r with regs := smSet 0 r.regs i.toNat d }

/-- The program of a churn, replaced. -/
def State.setRun (s : State) (v : Nat) (r : Option ChurnRun) : State := s.setChurn v { s.churn v with run := r }

/-- A program fault at `pc` (06 R212). -/
def State.progFault (s : State) (v pc : Nat) : State :=
  (((s.bumpErr VAT_CHURN_ERR1.PROG_FAULT v).setFld VAT_CHURN_STAT.FAULT_PC pc v).setRun v none).churnFault v

/-- The program goes on at `pc + off`; a `PC` outside the program memory is a program fault, whose recorded value the
spec leaves open (log 3). -/
def State.churnNext (s : State) (v : Nat) (r : ChurnRun) (off : Int := 1) : State :=
  let pc := (r.pc : Int) + off
  if pc < 0 ∨ 2048 ≤ pc then s.drawn.progFault v (Config.freeNat s.free % 2048)
  else s.setRun v (some { r with pc := pc.toNat, count := r.count + 1, wait := none })

/-- Run one instruction word (06 R209, R212): nothing happens where no program runs, where it waits, where the word is
not the one at its `PC` (log 8), or at the instruction limit. -/
def State.churnIssue (s : State) (v : Nat) (w : Word) (act : ChurnRun → State → State) : State :=
  if !s.vatLive v then s
  else match (s.churn v).run with
    | none => s
    | some r =>
      if r.wait.isSome ∨ 65536 ≤ r.count ∨ smGet 0 r.prog r.pc ≠ w then s
      else if churnReserved w then s.progFault v r.pc
      else act r s

/-- Run an instruction that writes a register. -/
def State.churnSet (s : State) (v : Nat) (op : BitVec 6) (a : CArg) (f : ChurnRun → Dword) : State :=
  s.churnIssue v (encC op a) (fun r s => s.churnNext v (r.setC a.rd (f r)))

/-- The result of an integer operation. -/
def churnAlu (op : ChurnOp) (x y : Dword) : Dword :=
  match op with
  | .add => x + y
  | .sub => x - y
  | .and => x &&& y
  | .or => x ||| y
  | .xor => x ^^^ y
  | .sll => x <<< bvBits y 0 6
  | .srl => x >>> bvBits y 0 6
  | .minu => if x.ult y then x else y
  | .maxu => if x.ult y then y else x
  | .min => if x.slt y then x else y
  | .max => if x.slt y then y else x

/-- `CHURN_ALU` (06 R210). -/
def execChurnAlu (v : VatId) (op : ChurnOp) (a : CArg) (s : State) : Host.Outcome State Fault Refusal :=
  .next (s.churnSet v (churnOpCode op) a (fun r => churnAlu op (r.c a.ra) (r.c a.rb)))

/-- `CHURN_ADDI` (06 R210). -/
def execChurnAddi (v : VatId) (a : CArg) (s : State) : Host.Outcome State Fault Refusal :=
  .next (s.churnSet v 0x0C a (fun r => r.c a.ra + a.imm.signExtend 64))

/-- `CHURN_SHLI` (06 R210). -/
def execChurnShli (v : VatId) (a : CArg) (s : State) : Host.Outcome State Fault Refusal :=
  .next (s.churnSet v 0x0D a (fun r => (r.c a.ra <<< 14) ||| a.imm.setWidth 64))

/-- A page fault of a churn program (06 R212, 13 R402): a record and a program fault. -/
def State.churnPageFault (s : State) (v va reason : Nat) (write : Bool) : State :=
  let s := match s.partOf v with
    | some q => s.xltFault q 2 v va reason (churnXltInfo v write)
    | none => s
  match (s.churn v).run with
  | some r => s.progFault v r.pc
  | none => s

/-- The address of a churn `LD` or `ST`: its sum modulo 2^64. -/
def churnAddr (r : ChurnRun) (a : CArg) : Nat := (r.c a.ra + (a.imm.signExtend 64 <<< 3)).toNat

/-- A memory access of a churn program: checks, translation, and the request (06 R210, R212). A miss waits for its
walk and the instruction is run again. -/
def State.churnAccess (s : State) (v : Nat) (r : ChurnRun) (va : Nat) (write : Bool) (w : ChurnWait)
    (op : Nat → Bool → MemOp) (ev : Dword → Option Dword) : State :=
  if va % 8 ≠ 0 ∨ 2 ^ 48 ≤ va then s.progFault v r.pc
  else
    match s.xlate v va write with
    | .ga a s =>
      let go := fun (s : State) =>
        let s := match r.stream, ev a with
          | some st, some h => s.sign v st h
          | _, _ => s
        (s.setRun v (some { r with wait := some w })).send
          (.req (.churn v) 0 (if write then a &&& ~~~63 else a) (op (va % 64) false))
      match r.stream with
      | some st => if write then s.signed v st go else go s
      | none => go s
    | .reg off => (s.setRun v (some { r with wait := some w })).send (.req (.churn v) 0 (regSpace off) (op (va % 64) true))
    | .fault reason s => s.churnPageFault v va reason write
    | .miss =>
      match (s.partOf v).bind (fun q => s.walkRequest v q ⟨.churn v, va, write, false⟩) with
      | none => s
      | some s => s.setRun v (some { r with wait := some .walk })
    | .deny => s.progFault v r.pc
    | .noPart => s.progFault v r.pc

/-- `CHURN_LD` (06 R210). -/
def execChurnLd (v : VatId) (a : CArg) (s : State) : Host.Outcome State Fault Refusal :=
  .next (s.churnIssue v (encC 0x0E a) (fun r s =>
    s.churnAccess v r (churnAddr r a) false (.ld a.rd) (fun _ reg => if reg then .regRead 8 else .read 8) (fun _ => none)))

/-- `CHURN_ST` (06 R210). -/
def execChurnSt (v : VatId) (a : CArg) (s : State) : Host.Outcome State Fault Refusal :=
  .next (s.churnIssue v (encC 0x0F a) (fun r s =>
    let d := (r.c a.rd).toNat
    let va := churnAddr r a
    s.churnAccess v r va true .st
      (fun o reg => if reg then .regWrite 8 (r.c a.rd) else .write (byteMask o 8) (placeAt o d))
      (fun ga => some (evLine ga (byteMask (va % 64) 8) (placeAt (va % 64) d)))))

/-- The reply to a churn program's request (06 R212). -/
def State.churnReply (s : State) (v : Nat) (res : Reply) : State :=
  match (s.churn v).run with
  | none => s
  | some r =>
    let s1 := s.recvMsg (.reply (.churn v) 0 res)
    match r.wait, res with
    | some (.ld _), .busError => s1.progFault v r.pc
    | some .st, .busError => s1.progFault v r.pc
    | some (.ld rd), .word w => s1.churnNext v (r.setC rd w)
    | some (.ld rd), .data d => s1.churnNext v (r.setC rd (d.setWidth 64))
    | some .st, .done => s1.churnNext v r
    | _, _ => s

/-- `CHURN_MEMORY_REPLY` (06 R212). -/
def execChurnMemoryReply (v : VatId) (res : Reply) (s : State) : Host.Outcome State Fault Refusal := .next (s.churnReply v res)

/-- `CHURN_REQUEST_TIMEOUT` (06 R208, R218): the request completes with a bus error. -/
def execChurnRequestTimeout (v : VatId) (req : ChurnReq) (s : State) : Host.Outcome State Fault Refusal :=
  .next (match req with
    | .prog => s.churnReply v .busError
    | .red e l va => s.redWriteEnd v e l va true)

/-- The scratch word of `LDL` and `STL`. -/
def scratchIx (r : ChurnRun) (a : CArg) : Nat := ((r.c a.ra).toNat + a.imm.toNat) % 512

/-- `CHURN_LDL` (06 R210): `imm` is unsigned. -/
def execChurnLdl (v : VatId) (a : CArg) (s : State) : Host.Outcome State Fault Refusal :=
  .next (s.churnSet v 0x10 a (fun r => smGet 0 (s.churn v).scratch (scratchIx r a)))

/-- `CHURN_STL` (06 R210). -/
def execChurnStl (v : VatId) (a : CArg) (s : State) : Host.Outcome State Fault Refusal :=
  .next (s.churnIssue v (encC 0x11 a) (fun r s =>
    let x := s.churn v
    (s.setChurn v { x with scratch := smSet 0 x.scratch (scratchIx r a) (r.c a.rd) }).churnNext v r))

/-- Set sticky flags of the churn. -/
def State.churnFlags (s : State) (v : Nat) (f : Flags) : State :=
  s.setFld VAT_CHURN_FLAGS.FLAGS (s.fld VAT_CHURN_FLAGS.FLAGS v ||| f.toNat) v

/-- Run a floating-point instruction: result on bits [31:0], zero-extended, and flags. -/
def State.churnFp (s : State) (v : Nat) (op : BitVec 6) (a : CArg) (f : ChurnRun → Nat × Flags) : State :=
  s.churnIssue v (encC op a) (fun r s =>
    let (d, fl) := f r
    (s.churnFlags v fl).churnNext v (r.setC a.rd (BitVec.ofNat 64 d)))

/-- The binary32 of a churn register. -/
def ChurnRun.f (r : ChurnRun) (i : BitVec 4) : Nat := bvBits (r.c i) 0 32

/-- `CHURN_FLT` (06 R210): NaN compares false. -/
def execChurnFlt (v : VatId) (a : CArg) (s : State) : Host.Outcome State Fault Refusal :=
  .next (s.churnFp v 0x12 a (fun r => let (b, fl) := fcmpElem 7 .b32 (r.f a.ra) (r.f a.rb); (if b then 1 else 0, fl)))

/-- `CHURN_FARITH` (06 R210): rounded to nearest even. -/
def execChurnFarith (v : VatId) (op : ChurnF) (a : CArg) (s : State) : Host.Outcome State Fault Refusal :=
  let fn := match op with | .fadd => 0 | .fsub => 1 | .fmul => 2
  .next (s.churnFp v (churnFCode op) a (fun r => vfpElem fn .b32 ⟨0, 0⟩ (r.f a.ra) (r.f a.rb) 0))

/-- ⌊√n⌋ for n below 4^bits. -/
def isqrtGo : Nat → Nat → Nat → Nat
  | 0, _, r => r
  | k + 1, n, r => isqrtGo k n (if (r + 2 ^ k) * (r + 2 ^ k) ≤ n then r + 2 ^ k else r)

/-- The fraction bits of the fixed-point numbers of `exp2Frac`. -/
def expBits : Nat := 192

/-- 2^(f ÷ 2^k) × 2^192 for f below 2^k, truncated: one root of 2 for each bit of f, from the highest down. `root` is the
root of 2 that belongs to the next bit. -/
def exp2Frac : Nat → Nat → Nat → Nat → Nat
  | 0, _, _, acc => acc
  | k + 1, f, root, acc =>
    let acc := if f.testBit k then acc * root / 2 ^ expBits else acc
    exp2Frac k f (isqrtGo (expBits + 2) (root * 2 ^ expBits) 0) acc

/-- 2^x of the finite number ±m × 2^e, with a sticky bit where it is not exact (06 R210). Numbers beyond the range of
binary32 stand for themselves at its ends; those nearer to zero than 2^-60 give a number next to 1. -/
def exp2Val (neg : Bool) (m : Nat) (e : Int) : Val :=
  if m = 0 then .fin false 1 0
  else if (8 : Int) ≤ (Nat.log2 m : Int) + e then .fin false 1 (if neg then -200 else 200)
  else if (Nat.log2 m : Int) + e < -60 then
    (if neg then .fin false (2 ^ 100 - 1) (-100) else .fin false (2 ^ 100 + 1) (-100))
  else
    let k := (-e).toNat
    let i := dyInt neg m e (-(k : Int))
    let fl := i / (2 ^ k : Nat)
    let f := (i - fl * (2 ^ k : Nat)).toNat
    if f = 0 then .fin false 1 fl
    else .fin false (2 * exp2Frac k f (isqrtGo (expBits + 2) (2 * 2 ^ expBits * 2 ^ expBits) 0) (2 ^ expBits) + 1)
      (fl - (expBits : Int) - 1)

/-- `FEXP2` of a binary32. -/
def fexp2 (x : Nat) : Nat × Flags :=
  match decodeBinary .b32 x with
  | .nan sg => (BinFmt.b32.nanCode, Flags.when sg .nv)
  | .inf n => (if n then 0 else 0x7F800000, 0)
  | .fin n m e => toBinary .b32 ⟨0, 0⟩ (exp2Val n m e)

/-- `FRCP` of a binary32: the quotient has a sticky bit. -/
def frcp (x : Nat) : Nat × Flags :=
  match decodeBinary .b32 x with
  | .nan sg => (BinFmt.b32.nanCode, Flags.when sg .nv)
  | .inf n => (BinFmt.b32.signed n 0, 0)
  | .fin n 0 _ => (BinFmt.b32.signed n 0x7F800000, .dz)
  | .fin n m e =>
    let q := 2 ^ 100 / m
    toBinary .b32 ⟨0, 0⟩ (.fin n (2 * q + (if 2 ^ 100 % m = 0 then 0 else 1)) (-101 - e))

/-- `CHURN_FEXP2` (06 R210). -/
def execChurnFexp2 (v : VatId) (a : CArg) (s : State) : Host.Outcome State Fault Refusal :=
  .next (s.churnFp v 0x16 a (fun r => fexp2 (r.f a.ra)))

/-- `CHURN_FRCP` (06 R210). -/
def execChurnFrcp (v : VatId) (a : CArg) (s : State) : Host.Outcome State Fault Refusal :=
  .next (s.churnFp v 0x17 a (fun r => frcp (r.f a.ra)))

/-- One step of the generator (06 R211): the output and the next state. -/
def rngStep (x : Dword) : Dword × Dword :=
  let x := x ^^^ (x >>> 12)
  let x := x ^^^ (x <<< 25)
  let x := x ^^^ (x >>> 27)
  (x * 0x2545F4914F6CDD1D, x)

/-- `CHURN_RNG` (06 R211). -/
def execChurnRng (v : VatId) (a : CArg) (s : State) : Host.Outcome State Fault Refusal :=
  .next (s.churnIssue v (encC 0x18 a) (fun r s =>
    let x := s.churn v
    let (o, st) := rngStep x.rng
    (s.setChurn v { x with rng := st }).churnNext v (r.setC a.rd o)))

/-- Is the key of list word `w` numerically smaller than the key of `x`? A NaN is not. -/
def keyBelow (w x : Dword) : Bool := (decodeBinary .b32 (bvBits w 0 32)).lt (decodeBinary .b32 (bvBits x 0 32))

/-- Insert into a descending list of at most its own length (06 R211). -/
def topInsert (x : Dword) (ws : List Dword) : List Dword :=
  match ws.findIdx? (fun w => keyBelow w x) with
  | some i => (ws.take i ++ [x] ++ ws.drop i).take ws.length
  | none => ws

/-- `CHURN_TOPK` (06 R211). -/
def execChurnTopk (v : VatId) (a : CArg) (s : State) : Host.Outcome State Fault Refusal :=
  .next (s.churnIssue v (encC 0x19 a) (fun r s =>
    let x := s.churn v
    let b := a.imm.toNat % 512
    let at' := fun i => smGet 0 x.scratch ((b + 1 + i) % 512)
    let k := bvBits (smGet 0 x.scratch b) 0 7
    if k = 0 ∨ 64 < k then s.progFault v r.pc
    else
      let ws := topInsert (r.c a.ra) ((List.range k).map at')
      let sc := ((List.range k).zip ws).foldl (fun m (e : Nat × Dword) => smSet 0 m ((b + 1 + e.1) % 512) e.2) x.scratch
      (s.setChurn v { x with scratch := sc }).churnNext v r))

/-- `CHURN_BRANCH` (06 R210). -/
def execChurnBranch (v : VatId) (op : ChurnBr) (a : CArg) (s : State) : Host.Outcome State Fault Refusal :=
  .next (s.churnIssue v (encC (churnBrCode op) a) (fun r s =>
    let x := r.c a.ra
    let y := r.c a.rb
    let taken : Bool := match op with | .beq => x = y | .bne => x ≠ y | .bltu => x.ult y
    s.churnNext v r (if taken then a.imm.toInt else 1)))

/-- An act of a program whose event is signed where a completion invoked it (20 R596). -/
def State.churnSigned (s : State) (v : Nat) (r : ChurnRun) (h : Dword) (act : State → State) : State :=
  match r.stream with
  | some st => s.signed v st (fun s => act (s.sign v st h))
  | none => act s

/-- `CHURN_TINC` (06 R210, R212). -/
def execChurnTinc (v : VatId) (a : CArg) (s : State) : Host.Outcome State Fault Refusal :=
  .next (s.churnIssue v (encC 0x1D a) (fun r s =>
    let t := bvBits (r.c a.ra) 0 14
    let n := bvBits (r.c a.rb) 0 32
    if !s.tallyOk v t then s.progFault v r.pc
    else s.churnSigned v r (evInc t n) (fun s => (s.sendInc t n (vatOrg v)).churnNext v r)))

/-- `CHURN_DBELL` (06 R210, R212, 17 R522). -/
def execChurnDbell (v : VatId) (a : CArg) (s : State) : Host.Outcome State Fault Refusal :=
  .next (s.churnIssue v (encC 0x1E a) (fun r s =>
    let w := bvBits (r.c a.ra) 0 6
    let src := a.imm.toNat % 256
    if !s.samePart v w then s.progFault v r.pc
    else s.churnSigned v r (evBell w src) (fun s => (s.send (.doorbell w src)).churnNext v r)))

/-- `CHURN_SEND` (06 R210, R212, 07 R231, R243). -/
def execChurnSend (v : VatId) (a : CArg) (s : State) : Host.Outcome State Fault Refusal :=
  .next (s.churnIssue v (encC 0x1F a) (fun r s =>
    let dst := bvBits (r.c a.ra) 0 12
    let w : Word := (r.c a.rb).setWidth 32
    if (s.srcCheck v dst).isSome then s.progFault v r.pc
    else s.churnSigned v r (evMsg dst ((s.partOf v).getD 0) (w.setWidth 64)) (fun s =>
      (s.send (.cnet dst false (BitVec.ofNat 32 (0x10000 + v)) w)).churnNext v r)))

/-- `CHURN_END` (06 R210). -/
def execChurnEnd (v : VatId) (a : CArg) (s : State) : Host.Outcome State Fault Refusal :=
  .next (s.churnIssue v (encC 0x20 a) (fun _ s => s.setRun v none))

/-- `CHURN_RESERVED_OP` (06 R212). -/
def execChurnReservedOp (v : VatId) (w : Word) (s : State) : Host.Outcome State Fault Refusal :=
  .next (if churnReserved w then s.churnIssue v w (fun _ s => s) else s)

/-- `CHURN_INSTRUCTION_LIMIT` (06 R212). -/
def execChurnInstructionLimit (v : VatId) (s : State) : Host.Outcome State Fault Refusal :=
  .next (match (s.churn v).run with
    | some r => if s.vatLive v ∧ r.wait.isNone ∧ 65536 ≤ r.count then s.progFault v r.pc else s
    | none => s)

end Sys2Proof.Machine
end

