-- ==== Sys2Proof/Machine/Ladle.lean ====
section
/-! DEFINITION. The ladles: descriptors, submission, transfers, flush and stop (06 R213 to R218), and the reset of a vat
(06 R219). -/

namespace Sys2Proof.Machine

open Sys2Proof

/-- Replace a ladle. -/
def State.setLadle (s : State) (v l : Nat) (x : LadleSt) : State := { s with ladles := smSet {} s.ladles (4 * v + l) x }

/-- The first reply in flight to a requester with a tag leaves the network. -/
def State.recvReply (s : State) (a : Agent) (tag : Nat) : State :=
  match s.net.find? (fun m => match m with
    | .reply d t _ => d = a && t = tag
    | _ => false) with
  | some m => s.recvMsg m
  | none => s

/-! ### Descriptors (06 R214, R215) -/

/-- The fields of a descriptor (06 R214). -/
def LItem.op (d : LItem) : Nat := bvBits (d.word 0) 0 8
def LItem.hfence (d : LItem) : Bool := d.flags.testBit 1
def LItem.tally (d : LItem) : Nat := bvBits (d.word 0) 16 14
def LItem.ten (d : LItem) : Bool := (d.word 0).getLsbD 31
def LItem.inc (d : LItem) : Nat := bvBits (d.word 0) 32 32
def LItem.src (d : LItem) : Dword := d.word 1
def LItem.dst (d : LItem) : Dword := d.word 2
def LItem.len (d : LItem) : Nat := bvBits (d.word 3) 0 32
def LItem.rows (d : LItem) : Nat := bvBits (d.word 3) 32 32
def LItem.sstride (d : LItem) : Dword := d.word 4
def LItem.dstride (d : LItem) : Dword := d.word 5
def LItem.aux (d : LItem) : Dword := d.word 6

/-- The bytes read and written for one row (06 R214). -/
def LItem.srcLen (d : LItem) : Nat := match d.op with | 2 => 0 | 5 => d.len / 24 * 32 | _ => d.len
def LItem.dstLen (d : LItem) : Nat := match d.op with | 4 => d.len / 24 * 32 | _ => d.len

/-- Is a descriptor `MALFORMED` (06 R214, R215)? -/
def LItem.malformed (d : LItem) : Bool :=
  let op := d.op
  op = 0 || 7 ≤ op || 4 ≤ d.flags || (d.word 0).getLsbD 30 || d.word 7 ≠ 0
    || (!d.isGlobal && (2 ^ 48 ≤ d.src.toNat || 2 ^ 48 ≤ d.dst.toNat))
    || (if op = 6 then d.src ≠ 0 || d.dst ≠ 0 || d.len ≠ 0 || d.rows ≠ 0 else d.len = 0 || d.rows = 0)
    || (op = 2 && d.src ≠ 0)
    || (op = 3 && (d.len % 64 ≠ 0 || 3072 < d.len || d.rows ≠ 1 || bvBits d.src 0 6 ≠ 0 || bvBits d.dst 0 6 ≠ 0 || d.isGlobal))
    || ((op = 4 || op = 5) && (d.len % 24 ≠ 0 || d.rows ≠ 1))

/-- The vat and the core that `CALL` and `INJECT` name in `AUX`. -/
def LItem.callVat (d : LItem) : Nat := bvBits d.aux 48 6
def LItem.injCore (d : LItem) (v : Nat) : Nat := 64 * v + bvBits d.aux 0 6

/-- The destination lines of a descriptor (20 R596); the line offset of a row depends on the row modulo 64. -/
def LItem.lineCount (d : LItem) : Nat :=
  if d.op = 3 ∨ d.op = 6 then 0
  else
    let f := fun (r : Nat) => (bvBits (d.dst + BitVec.ofNat 64 r * d.dstride) 0 6 + d.dstLen + 63) / 64
    let sum := fun (n : Nat) => (List.range n).foldl (fun acc r => acc + f r) 0
    d.rows / 64 * sum 64 + sum (d.rows % 64)

/-- The code of a submission (06 R215): 0 accepted, 1 full, 2 malformed, 3 denied, 4 stopped. -/
def State.ladleCode (s : State) (v l : Nat) (d : LItem) (privileged : Bool) : Nat :=
  let st := s.fld VAT_LADLE_STAT.STATE v l
  if d.malformed then 2
  else if (d.isGlobal && !privileged) || (d.op = 6 && !s.samePart v d.callVat) || (d.ten && !s.tallyOk v d.tally) then 3
  else if st = 2 ∨ st = 3 then 4
  else if 16 ≤ (s.ladle v l).queue.length then 1
  else 0

/-- Submit a descriptor (06 R215): the state, the code and the sequence number. -/
def State.ladleSubmit (s : State) (v l : Nat) (words : List Dword) (privileged : Bool) (stream : Option Nat) :
    State × Nat × Nat :=
  let x := s.ladle v l
  let d : LItem := { seq := x.seq, words := words }
  let code := s.ladleCode v l d privileged
  if code ≠ 0 then (s, code, 0)
  else
    let (s, pos) := match stream with
      | some st => s.signAhead v st d.lineCount
      | none => (s, none)
    let s := s.setLadle v l { x with queue := x.queue ++ [{ d with sign := pos }], seq := (x.seq + 1) % 65536 }
    (if s.fld VAT_LADLE_STAT.STATE v l = 0 then s.setFld VAT_LADLE_STAT.STATE 1 v l else s, 0, x.seq)

/-- `LSUBMIT` (04 R113, R115, 06 R215): the descriptor is v[rs2[3:0]] of the leader, and bit 4 of rs2, which
the row does not use, is reserved (DEDUCED, log 22). -/
def execLsubmit (c : CoreId) (r : RArg) (s : State) : Host.Outcome State Fault Refusal :=
  .next (s.issue c (encR 0x33 r 0) [r.rd, r.rs1] (lowest [(r.fx ≠ 0, 2), (r.rs2.getLsbD 4, 2)]) (fun s =>
    s.signed (vatOf c) (idxOf c) (fun s =>
      let x := s.core c
      let ws := lineWords (x.v (bvBits r.rs2 0 4))
      let (s, code, seq) := s.ladleSubmit (vatOf c) (bvBits (x.s r.rs1) 0 2) ws false (some (idxOf c))
      (s.updCore c (fun x => x.setS r.rd (BitVec.ofNat 32 (code + seq * 2 ^ 16)))).retire c)))

/-! ### Staging (06 R216) -/

/-- Count a dropped staging word or item. -/
def State.stgDrop (s : State) (v l : Nat) : State := s.bump VAT_LADLE_PC_STG_DROP v l

/-- `LADLE_STAGE_START` (06 R216 rule 1). -/
def execLadleStageStart (v : VatId) (l : LadleIx) (data : Dword) (s : State) : Host.Outcome State Fault Refusal :=
  .next (if !s.vatLive v then s
    else
      let x := s.ladle v l
      let s := if x.stg = [] then s else s.stgDrop v l
      (s.setLadle v l { x with stg := [data] }).setFld VAT_LADLE_STG_STAT.DISCARD 0 v l)

/-- Is word w the next of the item in staging (06 R216 rule 2)? -/
def State.stgTakes (s : State) (v l w : Nat) : Bool :=
  (s.ladle v l).stg.length = w && !s.bit VAT_LADLE_STG_STAT.DISCARD v l

/-- A staging word that is not taken (06 R216 rule 2). -/
def State.stgRefuse (s : State) (v l : Nat) : State := (s.stgDrop v l).setFld VAT_LADLE_STG_STAT.DISCARD 1 v l

/-- `LADLE_STAGE_WORD` (06 R216 rule 2): `STG1` to `STG6`. -/
def execLadleStageWord (v : VatId) (l : LadleIx) (w : Fin 8) (data : Dword) (s : State) : Host.Outcome State Fault Refusal :=
  .next (if !s.vatLive v ∨ w.val = 0 ∨ w.val = 7 then s
    else if s.stgTakes v l w then
      let x := s.ladle v l
      s.setLadle v l { x with stg := x.stg ++ [data] }
    else s.stgRefuse v l)

/-- `LADLE_STAGE_COMMIT` (06 R216 rule 3): `privileged` says that the writer is the management core or the host physical
function (06 R215). -/
def execLadleStageCommit (v : VatId) (l : LadleIx) (data : Dword) (privileged : Bool) (s : State) :
    Host.Outcome State Fault Refusal :=
  .next (if !s.accepts v then s
    else if !s.stgTakes v l 7 then s.stgRefuse v l
    else
      let x := s.ladle v l
      let s := s.setLadle v l { x with stg := [] }
      let (s, code, seq) := s.ladleSubmit v l (x.stg ++ [data]) privileged none
      let s := s.setFld VAT_LADLE_STG_STAT.LAST_CODE code v l
      if code = 0 then s.setFld VAT_LADLE_STG_STAT.LAST_SEQ seq v l else s)

/-! ### Transfers -/

/-- A ladle stops on an error (06 R218): 1 read, 2 write, 3 timeout, 4 read-back. Where the failed access had no global
address, `ERRADDR` holds a free value (log 3). -/
def State.ladleStop (s : State) (v l code : Nat) (ga : Option Dword) : State :=
  let x := s.ladle v l
  let seq := match x.queue with | d :: _ => d.seq | [] => 0
  let s := s.setLadle v l { x with queue := x.queue.drop 1, act := none }
  let s := ((s.setFld VAT_LADLE_STAT.STATE 2 v l).setFld VAT_LADLE_STAT.ERR code v l).setFld VAT_LADLE_STAT.ERR_SEQ seq v l
  let s := match ga with
    | some a => s.setReg VAT_LADLE_ERRADDR a v l
    | none => s.drawn.setReg VAT_LADLE_ERRADDR (Config.freeDword s.free) v l
  s.raiseVat v 3

/-- How the address of a ladle access stands. -/
inductive LAddr where
  | ga (a : Dword) (reg : Bool) (s : State)
  | wait (s : State)
  | bad

/-- Is a global address one of this device's own physical addresses (01 R32)? -/
def State.ownDpa (s : State) (ga : Dword) : Bool :=
  bvBits ga 62 2 = 0 && bvBits ga 48 14 = 0 || (bvBits ga 62 2 = 1 && bvBits ga 48 14 = s.devId)

/-- Is a global address in the register space of this device (01 R35)? -/
def State.inRegSpace (s : State) (ga : Dword) : Bool := s.ownDpa ga && bvBits ga 28 20 = 0x43

/-- The entry of a ladle's micro-TLB that covers an address (13 R398). -/
def State.microFind (s : State) (v l va : Nat) (write : Bool) : Option TlbEnt :=
  (smGet [] s.micro (4 * v + l)).findSome? (fun i =>
    match smFind s.tlb i with
    | some e => if e.covers va && (e.w || !write) then some e else none
    | none => none)

/-- Fill the micro-TLB with the vat TLB entry of an address, first in first out over 8 entries (13 R398). -/
def State.microFill (s : State) (v l va : Nat) : State :=
  match s.tlbFind v va with
  | some (i, _) =>
    let m := (smGet [] s.micro (4 * v + l)).filter (fun j => j ≠ i) ++ [i]
    { s with micro := smSet [] s.micro (4 * v + l) (m.drop (m.length - 8)) }
  | none => s

/-- The `INFO` of a ladle's translation record (13 R403). -/
def ladleXltInfo (v l : Nat) (write : Bool) : Nat := 4 * v + l + 2 ^ 14 + (if write then 2 ^ 16 else 0)

/-- The global address of a ladle access (06 R214, 13 R398, R402). -/
def State.ladleAddr (s : State) (v l : Nat) (d : LItem) (a : Dword) (write : Bool) : LAddr :=
  if d.isGlobal then .ga a (s.inRegSpace a) s
  else if 2 ^ 48 ≤ a.toNat then .bad
  else
    let va := a.toNat
    match s.microFind v l va write with
    | some e => .ga (e.target va) false s
    | none =>
      match s.xlate v va write with
      | .ga g s => .ga g false (s.microFill v l va)
      | .reg off => .ga (regSpace off) true s
      | .fault r s =>
        let s := match s.partOf v with
          | some q => s.xltFault q 2 v va r (ladleXltInfo v l write)
          | none => s
        let x := s.ladle v l
        .wait (s.setLadle v l { x with act := x.act.map (fun t => { t with hold := some va }) })
      | .miss =>
        if s.walking (.ladle v l) va then .wait s
        else .wait (((s.partOf v).bind (fun q => s.walkRequest v q ⟨.ladle v l, va, write, false⟩)).getD (s.retryXlt (.ladle v l)))
      | .deny => .bad
      | .noPart => .bad

/-- The host window entry that serves an offset (16 R505). -/
def State.hostEntry (s : State) (off : Nat) : Option Nat :=
  (List.range 256).find? (fun w =>
    let base := s.fld HOST_WIN_BASE.BASE w * 2 ^ 21
    s.bit HOST_WIN_CFG.EN w && s.fld HOST_WIN_CFG.OWNER w ≤ 64 && base ≤ off && off < base + s.fld HOST_WIN_SIZE.SIZE w * 2 ^ 21)

/-- The path of a write to host memory: the window entry that it goes through, or another device's host (06 R216). -/
def State.hostPath (s : State) (ga : Dword) : Option Nat :=
  let dpa := bvBits ga 0 48
  if bvBits ga 62 2 = 2 then
    (if bvBits ga 48 14 = s.devId then s.hostEntry (dpa % 2 ^ 44) else some (256 + bvBits ga 48 14))
  else if s.ownDpa ga ∧ 2 ^ 44 ≤ dpa ∧ dpa < 2 ^ 45 then s.hostEntry (dpa - 2 ^ 44)
  else none

/-- Issue the write of `n` bytes at `ga`. -/
def State.ladleWrite (s : State) (v l : Nat) (d : LItem) (a : LAct) (ga : Dword) (reg : Bool) (n data : Nat) : State :=
  let x := s.ladle v l
  let o := bvBits ga 0 6
  let m := byteMask o n
  let line := placeAt o (data % 2 ^ (8 * n))
  let s := match d.sign with
    | some p => s.signLate v p a.lines (evLine ga m line)
    | none => s
  let hosts := match s.hostPath ga with
    | some k => a.hosts.filter (fun h => h.1 ≠ k) ++ [(k, ga + BitVec.ofNat 64 (n - 1))]
    | none => a.hosts
  let a := { a with wrs := a.wrs ++ [(x.tag, ga, false)], hosts := hosts, doff := a.doff + n, lines := a.lines + 1 }
  (s.setLadle v l { x with act := some a, tag := x.tag + 1 }).send
    (.req (.ladle v l) x.tag (if reg then ga else ga &&& ~~~63)
      (if reg then .regWrite n (BitVec.ofNat 64 data) else .write m line))

/-- Unpack an MXFP6 block of 24 bytes into 32 containers (05 R149). -/
def unpack6 (x : Nat) : Nat := (List.range 32).foldl (fun acc i => acc + bitsOf x (6 * i) 6 * 2 ^ (8 * i)) 0

/-- Pack 32 containers into an MXFP6 block; container bits [7:6] are ignored. -/
def pack6 (x : Nat) : Nat := (List.range 32).foldl (fun acc i => acc + bitsOf x (8 * i) 6 * 2 ^ (6 * i)) 0

/-- A byte of `FILL`: byte (a mod 8) of `AUX`. -/
def fillData (aux a : Dword) (n : Nat) : Nat :=
  (List.range n).foldl (fun acc i => acc + bvBits aux (8 * ((bvBits a 0 3 + i) % 8)) 8 * 2 ^ (8 * i)) 0

/-- Replace the transfer of a ladle. -/
def State.setAct (s : State) (v l : Nat) (a : LAct) : State := s.setLadle v l { s.ladle v l with act := some a }

/-- The active descriptor completes (06 R213): its tally is incremented, and the next one may begin. -/
def State.ladleDone (s : State) (v l : Nat) (d : LItem) : State :=
  let x := s.ladle v l
  let s := s.setLadle v l { x with queue := x.queue.drop 1, act := none }
  let s := if d.ten then s.sendInc d.tally d.inc (vatOrg v) else s
  let s := s.bump VAT_LADLE_PC_DONE v l
  s.setFld VAT_LADLE_STAT.STATE (if x.queue.length ≤ 1 then 0 else 1) v l

/-- Send the read-backs of `HFENCE` (06 R216): 4 bytes that hold the last byte written through each entry. -/
def State.ladleFence (s : State) (v l : Nat) (a : LAct) : State :=
  a.hosts.foldl (fun s h =>
    let x := s.ladle v l
    let ga := h.2 &&& ~~~3
    let act := x.act.map (fun t => { t with wrs := t.wrs ++ [(x.tag, ga, true)], fenced := true })
    (s.setLadle v l { x with act := act, tag := x.tag + 1 }).send (.req (.ladle v l) x.tag ga (.read 4))) s

/-- One step of a transfer (06 R213, R214); the flag says whether to go on. -/
def State.ladleStep (s : State) (v l : Nat) : State × Bool :=
  let x := s.ladle v l
  match x.act, x.queue with
  | some a, d :: _ =>
    if a.hold.isSome ∨ a.rd.isSome ∨ s.fld VAT_LADLE_STAT.STATE v l ≠ 1 then (s, false)
    else if d.rows ≤ a.row then
      if a.wrs ≠ [] then (s, false)
      else if d.hfence ∧ !a.fenced ∧ a.hosts ≠ [] then (s.ladleFence v l a, false)
      else (s.ladleDone v l d, false)
    else
      let src := d.src + BitVec.ofNat 64 a.row * d.sstride + BitVec.ofNat 64 a.soff
      let dst := d.dst + BitVec.ofNat 64 a.row * d.dstride + BitVec.ofNat 64 a.doff
      let k := min (64 - bvBits dst 0 6) (d.dstLen - a.doff)
      let put := fun (n : Nat) (data : Nat) (a' : LAct) =>
        match s.ladleAddr v l d dst true with
        | .ga ga reg s => (s.ladleWrite v l d a' ga reg n data, true)
        | .wait s => (s, false)
        | .bad => (s.ladleStop v l 2 none, false)
      if a.doff = d.dstLen then
        (s.setAct v l { a with row := a.row + 1, soff := 0, doff := 0, ibuf := 0, ilen := 0, obuf := 0, olen := 0 }, true)
      else if d.op = 2 then
        if a.wrs ≠ [] then (s, false) else put k (fillData d.aux dst k) a
      else if d.op = 4 ∧ 24 ≤ a.ilen then
        (s.setAct v l { a with ibuf := a.ibuf >>> 192, ilen := a.ilen - 24
                               obuf := a.obuf + unpack6 (a.ibuf % 2 ^ 192) * 2 ^ (8 * a.olen), olen := a.olen + 32 }, true)
      else if d.op = 5 ∧ 32 ≤ a.ilen then
        (s.setAct v l { a with ibuf := a.ibuf >>> 256, ilen := a.ilen - 32
                               obuf := a.obuf + pack6 (a.ibuf % 2 ^ 256) * 2 ^ (8 * a.olen), olen := a.olen + 24 }, true)
      else if k ≤ a.olen then
        let data := a.obuf % 2 ^ (8 * k)
        let a' := { a with obuf := a.obuf >>> (8 * k), olen := a.olen - k }
        if d.op = 3 then
          if 2 ^ 48 ≤ dst.toNat then (s.ladleStop v l 2 none, false)
          else
            let line := dst.toNat / 64
            let a' := { a' with wrs := a'.wrs ++ [(x.tag, BitVec.ofNat 64 line, false)], doff := a'.doff + 64 }
            ((s.setLadle v l { x with act := some a', tag := x.tag + 1 }).send
              (.inject (d.injCore v) line (BitVec.ofNat 512 data) a.rdT), true)
        else put k data a'
      else
        let n := min (64 - bvBits src 0 6) (d.srcLen - a.soff)
        match s.ladleAddr v l d src false with
        | .ga ga reg s =>
          let x := s.ladle v l
          ((s.setLadle v l { x with act := some { a with rd := some (x.tag, n, ga), rdT := s.tsc32 }, tag := x.tag + 1 }).send
            (.req (.ladle v l) x.tag ga (if reg then .regRead n else .read n)), false)
        | .wait s => (s, false)
        | .bad => (s.ladleStop v l 1 none, false)
  | _, _ => (s, false)

/-- Run a transfer until it waits; between two waits it takes a few steps. -/
def State.ladlePump : Nat → State → Nat → Nat → State
  | 0, s, _, _ => s
  | fuel + 1, s, v, l =>
    let (s, more) := s.ladleStep v l
    if more then State.ladlePump fuel s v l else s

/-- The steps that any wait leaves to do. -/
def pumpFuel : Nat := 16

/-- A ladle begins the descriptor at the head of its queue (06 R213). -/
def State.ladleBegin (s : State) (v l op : Nat) : State :=
  let x := s.ladle v l
  match x.act, x.queue with
  | none, d :: _ =>
    if s.accepts v ∧ s.fld VAT_LADLE_STAT.STATE v l = 1 ∧ d.op = op then
      State.ladlePump pumpFuel (s.setLadle v l { x with act := some {} }) v l
    else s
  | _, _ => s

/-- `LADLE_COPY` (06 R214). -/
def execLadleCopy (v : VatId) (l : LadleIx) (s : State) : Host.Outcome State Fault Refusal := .next (s.ladleBegin v l 1)

/-- `LADLE_FILL` (06 R214). -/
def execLadleFill (v : VatId) (l : LadleIx) (s : State) : Host.Outcome State Fault Refusal := .next (s.ladleBegin v l 2)

/-- `LADLE_INJECT` (06 R214). -/
def execLadleInject (v : VatId) (l : LadleIx) (s : State) : Host.Outcome State Fault Refusal := .next (s.ladleBegin v l 3)

/-- `LADLE_UNPACK6` (06 R214). -/
def execLadleUnpack6 (v : VatId) (l : LadleIx) (s : State) : Host.Outcome State Fault Refusal := .next (s.ladleBegin v l 4)

/-- `LADLE_PACK6` (06 R214). -/
def execLadlePack6 (v : VatId) (l : LadleIx) (s : State) : Host.Outcome State Fault Refusal := .next (s.ladleBegin v l 5)

/-- `LADLE_CALL` (06 R209, R214): the invocation enters the queue of the churn it names, whose full queue holds it. -/
def execLadleCall (v : VatId) (l : LadleIx) (s : State) : Host.Outcome State Fault Refusal :=
  let x := s.ladle v l
  .next (match x.act, x.queue with
    | none, d :: _ =>
      let w := d.callVat
      if s.accepts v ∧ s.fld VAT_LADLE_STAT.STATE v l = 1 ∧ d.op = 6 ∧ s.accepts w ∧ !s.invFull w then
        (s.invoke w ⟨bvBits d.aux 32 11, d.aux.setWidth 32, 2 + 2 ^ 8 * v.val⟩).ladleDone v l d
      else s
    | _, _ => s)

/-- The bytes of a reply. -/
def replyBytes (r : Reply) : Option Nat :=
  match r with
  | .data d => some d.toNat
  | .word w => some w.toNat
  | _ => none

/-- The outstanding read of a ladle ends: its data, or an error code. -/
def State.ladleReadEnd (s : State) (v l : Nat) (res : Option Nat) (code : Nat) : State :=
  let x := s.ladle v l
  match x.act, x.queue with
  | some a, q =>
    match a.rd with
    | none => s
    | some (tag, n, ga) =>
      let s := s.recvReply (.ladle v l) tag
      let a := { a with rd := none }
      if s.fld VAT_LADLE_STAT.STATE v l ≠ 1 then s.setAct v l a
      else
        match res, q with
        | some d, it :: _ =>
          let d := d % 2 ^ (8 * n)
          let a := if it.op = 4 ∨ it.op = 5 then { a with ibuf := a.ibuf + d * 2 ^ (8 * a.ilen), ilen := a.ilen + n }
            else { a with obuf := a.obuf + d * 2 ^ (8 * a.olen), olen := a.olen + n }
          State.ladlePump pumpFuel (s.setAct v l { a with soff := a.soff + n }) v l
        | _, _ => s.ladleStop v l code (some ga)
  | none, _ => s

/-- `LADLE_READ_REPLY` (06 R213, R218). -/
def execLadleReadReply (v : VatId) (l : LadleIx) (res : Reply) (s : State) : Host.Outcome State Fault Refusal :=
  .next (match res with
    | .done => s
    | _ => s.ladleReadEnd v l (replyBytes res) 1)

/-- An outstanding write or read-back of a ladle ends; `err` is 0, or 2 for a bus error, 3 for a timeout (06 R218). -/
def State.ladleWriteEnd (s : State) (v l tag err : Nat) : State :=
  let x := s.ladle v l
  match x.act with
  | none => s
  | some a =>
    match a.wrs.find? (fun w => w.1 = tag) with
    | none => s
    | some w =>
      let s := (s.recvReply (.ladle v l) tag).setAct v l { a with wrs := a.wrs.erase w }
      if s.fld VAT_LADLE_STAT.STATE v l ≠ 1 then s
      else if err = 0 then State.ladlePump pumpFuel s v l
      else s.ladleStop v l (if err = 2 ∧ w.2.2 then 4 else err) (some w.2.1)

/-- `LADLE_WRITE_ACK` (06 R213, R216, R218). -/
def execLadleWriteAck (v : VatId) (l : LadleIx) (tag : Nat) (res : Ack) (s : State) : Host.Outcome State Fault Refusal :=
  .next (s.ladleWriteEnd v l tag (if res = .err then 2 else 0))

/-- `LADLE_REQUEST_TIMEOUT` (06 R218). -/
def execLadleRequestTimeout (v : VatId) (l : LadleIx) (tag : Nat) (s : State) : Host.Outcome State Fault Refusal :=
  .next (match (s.ladle v l).act with
    | some a => if a.rd.any (fun r => r.1 = tag) then s.ladleReadEnd v l none 3 else s.ladleWriteEnd v l tag 3
    | none => s)

/-- An injection has been installed or dropped: the ladle that sent it has its acknowledge (06 R213). -/
def State.injectAcked (s : State) (c line : Nat) : State :=
  let v := vatOf c
  match (List.range 4).findSome? (fun l =>
    match (s.ladle v l).act, (s.ladle v l).queue with
    | some a, d :: _ =>
      if d.op = 3 ∧ d.injCore v = c then (a.wrs.find? (fun w => w.2.1.toNat = line)).map (fun w => (l, w.1)) else none
    | _, _ => none) with
  | some (l, tag) => s.ladleWriteEnd v l tag 0
  | none => s

/-- `LADLE_INJECTION_ARRIVAL` (04 R132, R139): installed as class L at age 0, or dropped and counted. -/
def execLadleInjectionArrival (c : CoreId) (line : Nat) (data : Line) (rtime : Nat) (s : State) : Host.Outcome State Fault Refusal :=
  let s1 := s.recvMsg (.inject c line data rtime)
  let x := s1.core c
  let drop := s1.bump VAT_CORE_PC_INJ_DROP (vatOf c) (idxOf c)
  let pend : Bool := match x.findLine line with
    | some i => (x.ent i).pending
    | none => false
  .next (if (s1.bit VAT_CORE_STAT.CC_INIT (vatOf c) (idxOf c) || pend) then drop.injectAcked c line
    else match s1.install c .l { valid := true, line := line, data := data, rtime := rtime } with
      | .done s => s.injectAcked c line
      | .noAlloc => drop.injectAcked c line
      | .wait => s)

/-! ### Flush, stop, resume (06 R217, R218) -/

/-- `LADLE_FLUSH` (06 R217): what is issued completes; nothing more is issued. -/
def execLadleFlush (v : VatId) (l : LadleIx) (s : State) : Host.Outcome State Fault Refusal :=
  .next (if !s.vatLive v then s
    else
      let x := s.ladle v l
      let s := x.queue.foldl (fun s _ => s.bump VAT_LADLE_PC_FLUSHED v l) s
      let s := if x.stg = [] then s
        else (s.setFld VAT_LADLE_STG_STAT.DISCARD 1 v l).setFld VAT_LADLE_STG_STAT.FLUSHED 1 v l
      let act := x.act.map (fun a => { a with hold := none })
      (s.setLadle v l { x with queue := [], stg := [], act := act }).setFld VAT_LADLE_STAT.STATE 3 v l)

/-- `LADLE_FLUSH_COMPLETE` (06 R217). -/
def execLadleFlushComplete (v : VatId) (l : LadleIx) (s : State) : Host.Outcome State Fault Refusal :=
  let x := s.ladle v l
  let quiet : Bool := match x.act with | some a => a.rd.isNone && a.wrs = [] | none => true
  .next (if s.fld VAT_LADLE_STAT.STATE v l = 3 ∧ quiet then
      (s.setLadle v l { x with act := none }).setFld VAT_LADLE_STAT.STATE 0 v l
    else s)

/-- `LADLE_RESUME` (06 R218): ignored outside `STOPPED`. -/
def execLadleResume (v : VatId) (l : LadleIx) (s : State) : Host.Outcome State Fault Refusal :=
  .next (if s.vatLive v ∧ s.fld VAT_LADLE_STAT.STATE v l = 2 then
      s.setFld VAT_LADLE_STAT.STATE (if (s.ladle v l).queue = [] then 0 else 1) v l
    else s)

/-! ### Partition start and vat reset (06 R190, R202, R219) -/

/-- The descriptor of an image-created task (06 R190). -/
def StageRec.desc (r : StageRec) (k : Nat) : Dword :=
  let g := r.inTally ≠ 0xFFFF
  BitVec.ofNat 64 (r.entry + k * 2 ^ 16 + (if g then r.inTally % 2 ^ 14 * 2 ^ 24 + 2 ^ 38 + 2 ^ 54 else 0)
    + (if r.outTally ≠ 0xFFFF then r.outTally % 2 ^ 14 * 2 ^ 39 + 2 ^ 53 else 0))

/-- The stages of a vat with the dispatch targets they create tasks for (03 R83). -/
def State.vatStages (s : State) (v : Nat) : List (StageRec × Nat) :=
  (s.img.stages.filter (fun r => r.vat = v)).flatMap (fun r =>
    ((List.range 64).filter (fun k => r.cores.getLsbD k && s.isTarget v k)).map (fun k => (r, k)))

/-- Create the image's tasks of a vat, `LOADED`, every other slot `FREE` (06 R190). -/
def State.startTasks (s : State) (v : Nat) : State :=
  let s := (List.range 256).foldl (fun s k =>
    (((s.setTaskSt v k {}).setReg VAT_TASK_DESC 0 v k).setReg VAT_TASK_ARG 0 v k).setReg VAT_TASK_CTL 0 v k) s
  (s.vatStages v).foldl (fun s e =>
    let d := e.1.desc e.2
    let s := (s.setReg VAT_TASK_DESC d v e.2).setTaskSt v e.2 { desc := d, stage := some (e.1.stage, e.1.next) }
    let s := s.setTask v e.2 1 0
    if descGateEn d then s.registerGate v e.2 else s) s

/-- Ready the image's tasks of stages without an `IN_TALLY` (06 R190). -/
def State.readyStages (s : State) (v : Nat) : State :=
  (s.vatStages v).foldl (fun s e =>
    if e.1.inTally = 0xFFFF ∧ s.taskState v e.2 = 1 then s.setTask v e.2 2 0 else s) s

/-- Give the tallies of a vat their image or default values (06 R202, 03 R84). -/
def State.startTallies (s : State) (v : Nat) : State :=
  (List.range 256).foldl (fun s i =>
    let t := 256 * v + i
    let (n, thr) := match s.img.tallies.find? (fun r => r.id = t) with
      | some r => (r.count, r.thresh)
      | none => (0, 1)
    let s := (s.setReg VAT_TALLY_STAT 0 v i).setCount t n
    let s := (s.setFld VAT_TALLY_THR.THRESH thr v i).setFld VAT_TALLY_STEP.STEP 0 v i
    if n = 0xFFFFFFFF then s.tallyOvf t else s) s

/-- Reset the registers of a vat's block from offset `lo` up to `hi`, except performance counters, which count while the
vat is powered (04 R141, 06 R220). -/
def State.clearVatRegs (s : State) (v lo hi : Nat) (keep : Nat → Bool) : State :=
  let base := 0x1000000 + v * 0x100000
  { s with regs := s.regs.filter (fun e => !(base + lo ≤ e.1 && e.1 < base + hi && !keep (e.1 - base))) }

/-- Is an agent a unit of the vat that a vat reset resets? -/
def resetUnit (v : Nat) (a : Agent) : Bool :=
  match a with
  | .core c => vatOf c = v
  | .ladle w _ => w = v
  | .churn w => w = v
  | .redEntry w _ _ => w = v
  | _ => false

/-- A core after reset (04 R104, R138, 06 R219): its registers are zero, what it waited for is forgotten; its cluster
membership stays. -/
def CoreSt.afterReset (x : CoreSt) : CoreSt := { member := x.member }

/-- The units of a vat at reset, but for its tasks and its tallies (06 R219). -/
def State.clearUnits (s : State) (v : Nat) : State :=
  let s := (List.range 64).foldl (fun s k => s.updCore (64 * v + k) CoreSt.afterReset) s
  let s := (List.range 4).foldl (fun s l => s.setLadle v l {}) s
  let s := (List.range 64).foldl (fun s e => s.clearLanes v e) s
  let s := s.setChurn v {}
  let s := s.tlbRemove v (fun _ => true)
  let s : State := { s with
    walks := s.walks.map (fun w => { w with reqs := w.reqs.filter (fun r => !resetUnit v r.src) })
    xltRetry := s.xltRetry.filter (fun a => !resetUnit v a)
    regQueue := s.regQueue.filter (fun e => e.1 ≠ v)
    lastDisp := s.lastDisp.filter (fun e => e.1 / 64 ≠ v) }
  let s := s.clearVatRegs v 0x30000 0x40000 (fun _ => false)
  let s := s.clearVatRegs v 0x40000 0x44000 (fun o => 0x200 ≤ o % 0x1000 && o % 0x1000 < 0x218)
  let s := s.clearVatRegs v 0x80000 0x90000 (fun o => 0x80 ≤ o % 0x400 && o % 0x400 < 0xC0)
  s.clearVatRegs v 0x90000 0xA0000 (fun o => o = 0x90200)

/-- The units of a vat at reset, phases 2 to 5 (06 R219). -/
def State.resetUnits (s : State) (v : Nat) : State :=
  let s := s.clearUnits v
  let s := s.startTasks v
  let waiting := (List.range 256).map (fun i => s.fld VAT_TALLY_WAITV.WAITV v i)
  let s := s.startTallies v
  (((List.range 256).zip waiting).foldl (fun (s : State) e => if e.2 ≠ 0 then s.releaseAll (256 * v + e.1) 1 else s) s).rebaseVat v false

end Sys2Proof.Machine
end

