-- ==== Sys2Proof/Machine/Networks.lean ====
section
/-! DEFINITION. The on-die networks: routers, reduction slots, credits, the firmware broadcast and the T-net
(07 R222 to R257). -/

namespace Sys2Proof.Machine

open Sys2Proof

/-- A pool instance is excluded from the ledger, with its record (02 R62, 12 R370, R385 `POOL_UE`). -/
def State.excludePool (s : State) (pool inst unit uinst : Nat) : State :=
  (s.exclude pool inst).fault { cls := 7, unit := unit, inst := uinst, info := pool + inst * 16 }

/-- The key of a credit count. -/
def credKey (pool inst vc : Nat) : Nat := (65536 * pool + inst) * 4 + vc

/-- Credits of an instance that are not free. -/
def State.credUsed (s : State) (pool inst vc : Nat) : Nat := smGet 0 s.credOut (credKey pool inst vc)

/-- Set the credits of an instance that are not free. -/
def State.setCred (s : State) (pool inst vc n : Nat) : State := { s with credOut := smSet 0 s.credOut (credKey pool inst vc) n }

/-- The buffer depth of a channel (07 R252): 4 flits or messages, 2 flits on C-net VC1. -/
def credDepth (pool : Nat) : Nat := if pool = 2 then 2 else 4

/-- The physical core location of a router (01 R25). -/
def routerLoc (v pcol prow : Nat) : Nat := v * 128 + prow * 8 + pcol

/-- Where a router forwards a packet (07 R228): 0 east, 1 north, 2 west, 3 south, or the local port. -/
def routeDir (px py dx dy : Nat) : Option Nat :=
  if px < dx then some 0 else if dx < px then some 2 else if py < dy then some 1 else if dy < py then some 3 else none

/-- Does a packet that leaves a router in this direction leave its vat? -/
def leavesVat (pcol prow dir : Nat) : Bool :=
  match dir with
  | 0 => pcol = 7
  | 1 => prow = 8
  | 2 => pcol = 0
  | _ => prow = 0

/-- The counter of an edge (07 R257). -/
def edgeCounter (dir : Nat) : Reg :=
  match dir with | 0 => VAT_NET_PC_EDGE_E | 1 => VAT_NET_PC_EDGE_N | 2 => VAT_NET_PC_EDGE_W | _ => VAT_NET_PC_EDGE_S

/-- Count forwarded B-net flits (07 R257). -/
def State.countFlits (s : State) (v pcol prow : Nat) (dir : Option Nat) (n : Nat) : State :=
  let s := s.bumpN VAT_NET_PC_FLITS n v
  match dir with
  | some d => if leavesVat pcol prow d then s.bumpN (edgeCounter d) n v else s
  | none => s

/-- A packet is dropped by a router (07 R237): the network source of the vat, the record `NET_DROP`, and the message it
carried is lost; a lost partial excludes the slot pool of its router. -/
def State.dropPacket (s : State) (v loc : Nat) (hdr : Nat) (msg : Nat) : State :=
  let s := (s.raiseVat v 5).fault { cls := 6, unit := 3, inst := loc, info := hdr % 2 ^ 32 }
  match s.net[msg]? with
  | none => s
  | some m =>
    let s := { s with net := s.net.eraseIdx msg }
    match m with
    | .part _ _ => s.excludePool 4 loc 3 loc
    | _ => s

/-- What becomes of a message whose data field has a parity error (07 R237). -/
def poisonMsg (m : Msg) : Option Msg :=
  match m with
  | .reply d t _ => some (.reply d t .busError)
  | .req a t _ (.write _ _) => some (.reply a t .busError)
  | .req a t _ (.regWrite _ _) => some (.reply a t .busError)
  | .req a t _ (.atomic _ _ _) => some (.reply a t .busError)
  | .part src p => some (.part src { partialSanitised p with merged := p.merged })
  | .victim .. => none
  | .inject .. => none
  | m => some m

/-- Poison the message that a packet carries. -/
def State.poison (s : State) (msg : Nat) : State :=
  match s.net[msg]? with
  | none => s
  | some m =>
    match poisonMsg m with
    | some m' => { s with net := s.net.set msg m' }
    | none => { s with net := s.net.eraseIdx msg }

/-- An armed injection of a header error at hub port 0 of the vat, which is the router of row 1, column 0 (12 R383). -/
def State.hdrInj (s : State) (cnet : Bool) (v pcol prow : Nat) (err : HdrErr) : HdrErr × State :=
  if !cnet ∧ pcol = 0 ∧ prow = 1 ∧ s.bit VAT_ECC_INJ.ARM v ∧ s.fld VAT_ECC_INJ.TARGET v = 5 then
    (if s.fld VAT_ECC_INJ.BITS v = 1 then .corrected else .uncorrectable, s.setFld VAT_ECC_INJ.ARM 0 v)
  else (err, s)

/-- Is a header one that a router drops (07 R237, R240)? -/
def badHeader (cnet : Bool) (hdr : Dword) : Bool :=
  let type := bvBits hdr 26 4
  71 < bvBits hdr 6 7 || (if cnet then 6 ≤ type else 12 ≤ type || bvBits hdr 30 2 = 3)

/-- `ROUTER_PACKET` (07 R228, R232 to R241, R252): a packet arrives at a router, its header is checked and it is forwarded
when the output holds a credit. `msg` is the place of the message that it carries among those in flight. -/
def execRouterPacket (cnet : Bool) (v : VatId) (pcol : Fin 8) (prow : Fin 9) (hdr : Dword) (err : HdrErr) (parity : Bool)
    (msg : Nat) (s : State) : Host.Outcome State Fault Refusal :=
  let loc := routerLoc v pcol prow
  let (err, s1) := s.hdrInj cnet v pcol prow err
  let dir := routeDir (8 * (v.val % 8) + pcol) (9 * (v.val / 8) + prow) (bvBits hdr 0 6) (bvBits hdr 6 7)
  let vc := if cnet then 0 else bvBits hdr 30 2
  let pool := if !cnet then 0 else if hdr.getLsbD 30 then 2 else 1
  let inst := fun (d : Nat) => loc + d * 2 ^ 13
  .next (match err with
    | .uncorrectable => (s1.bumpErr VAT_NET_ERR0.HDR_DROP v).dropPacket v loc hdr.toNat msg
    | _ =>
      let blocked : Bool := !badHeader cnet hdr && (match dir with
        | some d => credDepth pool ≤ s.credUsed pool (inst d) vc
        | none => false)
      if blocked then s
      else
        let s := if err = .corrected then s1.bumpErr VAT_NET_ERR0.HDR_CORR v else s1
        if badHeader cnet hdr then (s.bumpErr VAT_NET_ERR1.BAD_PKT v).dropPacket v loc hdr.toNat msg
        else
          let s := match dir with
            | some d => s.setCred pool (inst d) vc (s.credUsed pool (inst d) vc + 1)
            | none => s
          if cnet then
            (if dir.isNone ∧ hdr.getLsbD 30 then s.bump VAT_NET_PC_CVC1 v else s)
          else
            let s := s.countFlits v pcol prow dir (bvBits hdr 32 3 + 1)
            if parity then (s.bumpErr VAT_NET_ERR1.DATA_PAR v).poison msg else s)

/-- `CREDIT_RETURN` (07 R252): a credit of a network channel returns. -/
def execCreditReturn (pool : BitVec 4) (inst : BitVec 16) (vc : Fin 3) (s : State) : Host.Outcome State Fault Refusal :=
  let n := s.credUsed pool.toNat inst.toNat vc
  .next (if n = 0 then s else s.setCred pool.toNat inst.toNat vc (n - 1))

/-! ### Reduction in router slots (07 R247 to R251) -/

/-- A slot of a router. -/
def State.slot (s : State) (loc i : Nat) : Option RedSlot := smGet none s.slots (8 * loc + i)

/-- Replace a slot. -/
def State.setSlot (s : State) (loc i : Nat) (x : Option RedSlot) : State := { s with slots := smSet none s.slots (8 * loc + i) x }

/-- The hub port that a partial goes to (07 R248). -/
def partDest (p : Partial) : Nat × Nat :=
  let h := tagVat p.tag
  (8 * (h % 8) + p.lane.toNat % 8, 9 * (h / 8) + (if p.lane.toNat < 8 then 1 else 7))

/-- The flits of a partial (07 R233). -/
def partFlits (p : Partial) : Nat := if p.wins.length ≤ 3 then 1 else 2

/-- The way that a partial takes from a router. -/
def partDir (v pcol prow : Nat) (p : Partial) : Option Nat :=
  routeDir (8 * (v % 8) + pcol) (9 * (v / 8) + prow) (partDest p).1 (partDest p).2

/-- A partial leaves a router toward its port: counted, with a credit of its output. -/
def State.partOut (s : State) (v pcol prow : Nat) (p : Partial) : State :=
  let d := partDir v pcol prow p
  let s := match d with
    | some d =>
      let i := routerLoc v pcol prow + d * 2 ^ 13
      s.setCred 0 i 2 (s.credUsed 0 i 2 + 1)
    | none => s
  s.countFlits v pcol prow d (partFlits p)

/-- Does the output toward a partial's port hold a credit? -/
def State.partCredit (s : State) (v pcol prow : Nat) (p : Partial) : Bool :=
  match partDir v pcol prow p with
  | some d => s.credUsed 0 (routerLoc v pcol prow + d * 2 ^ 13) 2 < 4
  | none => true

/-- `ROUTER_PARTIAL` (07 R247 to R249): a partial in flight from `src` passes a router. A malformed one is replaced
(05 R183). -/
def execRouterPartial (v : VatId) (pcol : Fin 8) (prow : Fin 9) (src : Nat) (p : Partial) (s : State) :
    Host.Outcome State Fault Refusal :=
  let loc := routerLoc v pcol prow
  let q := if partialMalformed p false then partialSanitised p else p
  let pass := if s.partCredit v pcol prow p then s.partOut v pcol prow p else s
  let m := expectCount q.expect
  let match? := (List.range 8).find? (fun i => match s.slot loc i with
    | some x => !x.marked && x.part.tag = q.tag && x.part.lane = q.lane && x.part.expect = q.expect
    | none => false)
  .next (if !s.bit VAT_NET_CTL.MERGE v ∨ s.fld VAT_NET_CTL.HOLD v = 0 ∨ q.merged = m then pass
    else match match? with
      | some i =>
        match s.slot loc i with
        | some x =>
          let sum := x.part.merged + q.merged
          if sum ≤ m then
            ((s.recvMsg (.part src p)).setSlot loc i (some { x with part := partialMerge x.part q, marked := sum = m })).bump
              VAT_NET_PC_MERGE v
          else if s.partCredit v pcol prow p then
            (s.setSlot loc i (some { x with marked := true })).partOut v pcol prow p
          else s
        | none => s
      | none =>
        match (List.range 8).find? (fun i => (s.slot loc i).isNone) with
        | some i => (s.recvMsg (.part src p)).setSlot loc i (some ⟨q, s.fld MC_TSC.COUNT, false⟩)
        | none => if s.partCredit v pcol prow p then (s.partOut v pcol prow p).bump VAT_NET_PC_PASS v else s)

/-- `REDUCTION_SLOT_HOLD_EXPIRY` (07 R249, R250): after `HOLD` periods the slot is marked. -/
def execReductionSlotHoldExpiry (v : VatId) (pcol : Fin 8) (prow : Fin 9) (slot : Fin 8) (s : State) :
    Host.Outcome State Fault Refusal :=
  let loc := routerLoc v pcol prow
  .next (match s.slot loc slot with
    | some x =>
      if x.marked ∨ s.fld MC_TSC.COUNT < x.time + s.fld VAT_NET_CTL.HOLD v then s
      else (s.setSlot loc slot (some { x with marked := true })).bump VAT_NET_PC_HOLDFWD v
    | none => s)

/-- `REDUCTION_SLOT_FORWARD` (07 R249): a marked slot sends its partial, encoded under 05 R181, and frees. -/
def execReductionSlotForward (v : VatId) (pcol : Fin 8) (prow : Fin 9) (slot : Fin 8) (s : State) :
    Host.Outcome State Fault Refusal :=
  let loc := routerLoc v pcol prow
  .next (match s.slot loc slot with
    | some x =>
      let p := { x.part with wins := encodeAcc (partialValue x.part) }
      if !x.marked ∨ !s.partCredit v pcol prow p then s
      else ((s.setSlot loc slot none).partOut v pcol prow p).send (.part (16384 + loc) p)
    | none => s)

/-! ### Firmware broadcast, T-net, destination tables -/

/-- `FIRMWARE_BROADCAST` (07 R235): lines written into every enabled core store of the masked vats that are powered. -/
def execFirmwareBroadcast (off : BitVec 16) (vats : BitVec 64) (lines : List Line) (s : State) :
    Host.Outcome State Fault Refusal :=
  let n := min lines.length 4
  let d := ((List.range n).zip lines).foldl (fun acc (e : Nat × Line) => acc + e.2.toNat * 2 ^ (512 * e.1)) 0
  let cores := ((List.range 64).filter (fun v => vats.getLsbD v && s.domOn v)).flatMap (fun v =>
    (List.range 64).map (fun k => 64 * v + k))
  .next (cores.foldl (fun s c =>
    let room := min (64 * n) (65536 - off.toNat)
    { s with mem := Memory.write s.mem (csBase c + off.toNat) (2 ^ room - 1) d room }) s)

/-- `TNET_MESSAGE` (07 R237, R244, R245): a message passes a node of the tree; a reserved `OP` or an uncorrectable error
drops it. -/
def execTnetMessage (v : VatId) (bits : BitVec 104) (err : HdrErr) (link : Option (BitVec 16)) (msg : Nat) (s : State) :
    Host.Outcome State Fault Refusal :=
  let loc := routerLoc v 3 4
  .next (match err with
    | .uncorrectable => (s.bumpErr VAT_NET_ERR0.HDR_DROP v).dropPacket v loc bits.toNat msg
    | _ =>
      let blocked : Bool := match link with
        | some i => credDepth 3 ≤ s.credUsed 3 i.toNat 0
        | none => false
      if bvBits bits 0 4 < 7 ∧ blocked then s
      else
        let s := if err = .corrected then s.bumpErr VAT_NET_ERR0.HDR_CORR v else s
        if 7 ≤ bvBits bits 0 4 then (s.bumpErr VAT_NET_ERR1.BAD_PKT v).dropPacket v loc bits.toNat msg
        else match link with
          | some i => s.setCred 3 i.toNat 0 (s.credUsed 3 i.toNat 0 + 1)
          | none => s)

/-- `DTAB_WRITE` (07 R256): only management firmware's writes take effect. -/
def execDtabWrite (v : VatId) (i : Fin 4096) (data : Word) (firmware : Bool) (s : State) : Host.Outcome State Fault Refusal :=
  .next (if firmware then s.setReg VAT_NET_DTAB (BitVec.ofNat 64 (bvBits data 0 22)) v i else s)

end Sys2Proof.Machine
end

