-- ==== Sys2Proof/Machine/Spec.lean ====
section
/-! DEFINITION. The speculation units: commands, epochs, verdicts, key/value blocks, the token ring and their registers
(08 R258 to R296). -/

namespace Sys2Proof.Machine

open Sys2Proof

/-- A speculation unit. -/
def State.spec (s : State) (v : Nat) : SpecSt := smGet {} s.specs v

/-- Replace a speculation unit. -/
def State.setSpec (s : State) (v : Nat) (x : SpecSt) : State := { s with specs := smSet {} s.specs v x }

/-- The lowest vat of a mask. -/
def lowestVat (m : BitVec 64) : Option Nat := (List.range 64).find? (fun v => m.getLsbD v)

/-- The anchor vat of a partition (08 R259). -/
def State.anchor (s : State) (p : Nat) : Option Nat := (s.part p).bind (fun r => lowestVat r.vatMask)

/-- Has a vat a speculation unit: is it an anchor vat (08 R259)? -/
def State.hasSpec (s : State) (v : Nat) : Bool := (s.partOf v).bind s.anchor = some v

/-- The anchor vat of the partition that `VERIFY_PEER` names (08 R258, 03 R76). -/
def State.specPeer (s : State) (v : Nat) : Option Nat :=
  (s.partOf v).bind (fun p => (s.part p).bind (fun r => s.anchor r.verifyPeer))

/-- `STATE`, `ROLE` and the lead of a unit (08 R295). -/
def State.specState (s : State) (v : Nat) : Nat := s.fld VAT_SPEC_STAT.STATE v
def State.specRole (s : State) (v : Nat) : Nat := s.fld VAT_SPEC_CTL.ROLE v
def State.specLead (s : State) (v : Nat) : Bool := s.specRole v = 1 && s.bit VAT_SPEC_CTL.LEAD v
def State.specRing (s : State) (v : Nat) : Bool := s.specLead v && s.bit VAT_SPEC_CTL.RING_EN v
def State.specProv (s : State) (v : Nat) : Bool := s.specRing v && s.bit VAT_SPEC_CTL.POSTPROV v

/-- A dropped command (08 R267): `BAD_CMD` and the speculation source. -/
def State.specBad (s : State) (v : Nat) : State := (s.bumpErr VAT_SPEC_ERR.BAD_CMD v).raiseVat v 6

/-- A late command or message (08 R267, R268). -/
def State.specLate (s : State) (v : Nat) : State := s.bumpErr VAT_SPEC_ERR.LATE v

/-- The 64-bit words of a message, as it is signed (20 R597). -/
def specWords : SpecMsg → List Dword
  | .open d => [d]
  | .answer (some (e, s)) => [BitVec.ofNat 64 (e.toNat + s.toNat * 2 ^ 32)]
  | .answer none => [0]
  | .token d => [d]
  | .fin d => [d]
  | .verdict d e s n => [d, BitVec.ofNat 64 (e.toNat + s.toNat * 2 ^ 32), n.setWidth 64]
  | .lost => [0]

/-- The words of a message on its way to another device: its kind first. -/
def specCode (m : SpecMsg) : List Nat :=
  (match m with
    | .open _ => 0
    | .answer (some _) => 1
    | .answer none => 2
    | .token _ => 3
    | .fin _ => 4
    | .verdict .. => 5
    | .lost => 6) :: (specWords m).map (fun w => w.toNat)

/-- The message of such words. -/
def specOfCode (ws : List Nat) : SpecMsg :=
  let d := BitVec.ofNat 64 (ws.getD 1 0)
  match ws.headD 0 with
  | 0 => .open d
  | 1 => .answer (some (d.setWidth 32, (d >>> 32).setWidth 32))
  | 2 => .answer none
  | 3 => .token d
  | 4 => .fin d
  | 5 =>
    let es := BitVec.ofNat 64 (ws.getD 2 0)
    .verdict d (es.setWidth 32) ((es >>> 32).setWidth 32) (BitVec.ofNat 3 (ws.getD 3 0))
  | _ => .lost

/-- Send a message to a unit of this device, or to another device (08 R259, 15 R452), which a twin's follower drops
(20 R595); it is signed in the unit's stream (20 R596). -/
def State.specSend (s : State) (v : Nat) (dev dst : Nat) (m : SpecMsg) : State :=
  let unit := if dst = 64 then dev else dst
  let p := (s.partOf v).getD 0
  let s := s.sign v 128 (evHash 3 (BitVec.ofNat 64 unit) (BitVec.ofNat 64 p) (specWords m))
  if dev = s.devId then s.send (.spec dev dst m) else if s.twinMute then s else s.fabSpec dev p (specCode m)

/-- Send a message over the peer path. -/
def State.specToPeer (s : State) (v : Nat) (m : SpecMsg) : State :=
  match s.specPeer v with
  | some w => s.specSend v s.devId w m
  | none => s

/-- The devices that `FOLLOW0` to `FOLLOW3` mark valid (08 R271). -/
def State.specFollowers (s : State) (v : Nat) : List Nat :=
  (List.range 16).filterMap (fun k =>
    let e := bvBits (s.reg VAT_SPEC_FOLLOW v (k / 4)) (16 * (k % 4)) 16
    if e.testBit 15 then some (e % 2 ^ 14) else none)

/-- May this message arrive now? One sender's messages to a unit arrive in the order they were sent (08 R269, R272). -/
def State.specOrder (s : State) (m : Msg) : Bool :=
  match m with
  | .spec dev v _ =>
    match s.net.find? (fun e => match e with
      | .spec d w _ => d = dev && w = v
      | _ => false) with
    | some e => e = m || !s.net.contains m
    | none => true
  | _ => true

/-! ### Memory writes and the token ring (08 R270, R281 to R290) -/

/-- The global address of an offset in the unit's own host window (08 R285). -/
def State.hostGa (s : State) (off : Nat) : Dword := BitVec.ofNat 64 (2 ^ 63 + s.devId * 2 ^ 48 + off)

/-- The host-window offset of a byte of the ring. -/
def State.ringOff (s : State) (v k : Nat) : Nat := s.fld VAT_SPEC_RING.OFFSET v + k

/-- The offset in the ring of the record with sequence number q (08 R285). -/
def State.ringSlot (s : State) (v q : Nat) : Nat := 64 + q % 2 ^ s.fld VAT_SPEC_RING.RLOG v * 16

/-- Send a write: bytes at a global address, one line at most. -/
def State.specIssue (s : State) (v kind : Nat) (ga : Dword) (reg : Bool) (n data : Nat) : State :=
  let x := s.spec v
  let o := bvBits ga 0 6
  let m := byteMask o n
  let line := placeAt o (data % 2 ^ (8 * n))
  let s := if reg then s else s.sign v 128 (evLine ga m line)
  (s.setSpec v { x with outs := x.outs ++ [(x.tag, kind, ga.toNat / 64, ga)], tag := x.tag + 1 }).send
    (.req (.specUnit v) x.tag (if reg then ga else ga &&& ~~~63)
      (if reg then .regWrite n (BitVec.ofNat 64 data) else .write m line))

/-- The bytes of a ring record (08 R286). -/
def SpecRec.bytes (r : SpecRec) (q : Nat) : Nat :=
  r.type + (if r.prov then 16 else 0) + r.tok % 2 ^ 24 * 2 ^ 8 + r.pos % 2 ^ 32 * 2 ^ 32 + r.epoch % 2 ^ 32 * 2 ^ 64
    + q % 2 ^ 32 * 2 ^ 96

/-- Read back from the ring after the last record of a batch (08 R285); one read-back is outstanding at a time. -/
def State.specReadBack (s : State) (v upto : Nat) : State :=
  let x := s.spec v
  if x.rb.isSome then s.setSpec v { x with rbNext := some upto }
  else
    let ga := s.hostGa (s.ringOff v (s.ringSlot v (upto - 1) + 12))
    (s.setSpec v { x with rb := some (x.tag, upto, ga), tag := x.tag + 1, rbNext := none }).send
      (.req (.specUnit v) x.tag ga (.read 4))

/-- Is the ring full (08 R290)? -/
def State.specFull (s : State) (v : Nat) : Bool :=
  2 ^ s.fld VAT_SPEC_RING.RLOG v ≤ ((s.spec v).wseq + 2 ^ 32 - s.fld VAT_SPEC_CONS.CONS v) % 2 ^ 32

/-- Write queued records while the ring has room (08 R285, R290). -/
def State.ringPump : Nat → State → Nat → State
  | 0, s, _ => s
  | fuel + 1, s, v =>
    let x := s.spec v
    match x.outq with
    | [] => s
    | (r, last) :: rest =>
      if s.specFull v then s
      else
        let s := s.setSpec v { x with outq := rest, wseq := x.wseq + 1 }
        let s := s.specIssue v 2 (s.hostGa (s.ringOff v (s.ringSlot v x.wseq))) false 16 (r.bytes x.wseq)
        State.ringPump fuel (if last then s.specReadBack v (x.wseq + 1) else s) v

/-- Run the output queue and show whether records are held (08 R290). -/
def State.ringRun (s : State) (v : Nat) : State :=
  let s := State.ringPump ((s.spec v).outq.length + 1) s v
  s.setFld VAT_SPEC_STAT.RING_HOLD (if (s.spec v).outq = [] then 0 else 1) v

/-- Mark the last record of a batch. -/
def markLast : List SpecRec → List (SpecRec × Bool)
  | [] => []
  | [r] => [(r, true)]
  | r :: rs => (r, false) :: markLast rs

/-- Queue the records of one command, verdict or event (08 R285, R290): a record that the full ring holds is counted. -/
def State.specPost (s : State) (v : Nat) (recs : List SpecRec) : State :=
  if !s.specRing v then s
  else
    let x := s.spec v
    let s := (s.setSpec v { x with outq := x.outq ++ markLast recs }).ringRun v
    s.bumpN VAT_SPEC_PC_HOLD (min recs.length (s.spec v).outq.length) v

/-- A unit enters `FAULTED` (08 R281): the lead writes a `FAULT` record to a usable ring, and the other units are
notified. -/
def State.specFault (s : State) (v code : Nat) : State :=
  let st := s.specState v
  if st = 3 then s
  else
    let x := s.spec v
    let s := (s.setFld VAT_SPEC_STAT.STATE 3 v).setFld VAT_SPEC_STAT.FAULT code v
    let s := s.raiseVat v 6
    let s := s.setSpec v { x with busy := none, waits := [], todo := x.todo.filter (fun w => w.kind = 2)
                                  outq := if code = 3 then [] else x.outq
                                  rb := if code = 3 then none else x.rb
                                  rbNext := if code = 3 then none else x.rbNext }
    let s := if (st = 1 ∨ st = 2) ∧ code ≠ 3 then
        s.specPost v [{ type := 5, tok := code, pos := s.fld VAT_SPEC_POS.L v }] else s
    let s := s.specToPeer v .lost
    if s.specLead v then (s.specFollowers v).foldl (fun s d => s.specSend v d 64 .lost) s
    else if s.specRole v = 1 then s.specSend v (s.fld VAT_SPEC_LEAD.LEAD_DEV v) 64 .lost
    else s

/-- A memory access of the unit failed (08 R281 to R283): the record `SPEC_MEM`, and `MEM_ERR` or `RING_ERR`. -/
def State.specMemFault (s : State) (v kind : Nat) (ga : Dword) (timeout : Bool) : State :=
  let s := s.fault { cls := 0x74, unit := 2, inst := v, part := s.partOf v, addr := ga
                     info := (if timeout then 1 else 0) + 2 * kind }
  s.specFault v (if kind = 2 then 3 else 4)

/-- The `INFO` of a unit's translation record (13 R403): requester 3. -/
def specXltInfo (v : Nat) : Nat := v + 3 * 2 ^ 14 + 2 ^ 16

/-- Send waiting table and draft-buffer writes in order (08 R270, R276), a write to a line only when no other write to
that line is outstanding. A miss waits for its walk. -/
def State.specPump : Nat → State → Nat → State
  | 0, s, _ => s
  | fuel + 1, s, v =>
    let x := s.spec v
    match x.todo with
    | [] => s
    | w :: rest =>
      let k := min w.n (64 - w.va % 64)
      let more : List SpecWr :=
        if w.n ≤ k then rest else { w with va := w.va + k, n := w.n - k, data := w.data >>> (8 * k) } :: rest
      let go := fun (s : State) (ga : Dword) (reg : Bool) =>
        if x.outs.any (fun o => o.2.1 ≠ 2 && o.2.2.1 = ga.toNat / 64) then s
        else State.specPump fuel ((s.setSpec v { x with todo := more }).specIssue v w.kind ga reg k (w.data % 2 ^ (8 * k))) v
      if 2 ^ 48 ≤ w.va then s.specFault v 4
      else
        match s.xlate v w.va true with
        | .ga a s => go s a false
        | .reg off => go s (regSpace off) true
        | .fault r s =>
          let s := match s.partOf v with
            | some q => s.xltFault q 2 v w.va r (specXltInfo v)
            | none => s
          s.specFault v 4
        | .miss =>
          if s.walking (.specUnit v) w.va then s
          else ((s.partOf v).bind (fun q => s.walkRequest v q ⟨.specUnit v, w.va, true, false⟩)).getD
            (s.retryXlt (.specUnit v))
        | .deny => s.specFault v 4
        | .noPart => s.specFault v 4

/-- Send what can be sent. -/
def State.specRun (s : State) (v : Nat) : State := State.specPump ((s.spec v).todo.length + 16) s v

/-- Queue writes behind those that wait. -/
def State.specWrite (s : State) (v : Nat) (ws : List SpecWr) : State :=
  let x := s.spec v
  s.setSpec v { x with todo := x.todo ++ ws }

/-- Are writes of a kind waiting or outstanding? -/
def SpecSt.writing (x : SpecSt) (kind : Nat) : Bool := x.todo.any (fun w => w.kind = kind) || x.outs.any (fun o => o.2.1 = kind)

/-! ### Key/value blocks (08 R274 to R278) -/

/-- The key of a block. -/
def blkKey (st b : Nat) : Nat := 65536 * st + b

/-- The address of a block's entry (08 R274). -/
def State.blkVa (s : State) (v key : Nat) : Nat :=
  s.fld VAT_SPEC_BTAB.VA v + (key / 65536 * s.fld VAT_SPEC_BCFG.NBLK v + key % 65536) * 8

/-- Write a block's entry: the unit's own view and the table. -/
def State.blkPut (s : State) (v key entry : Nat) : State :=
  let x := s.spec v
  (s.setSpec v { x with blocks := smSet 0 x.blocks key entry }).specWrite v [⟨0, s.blkVa v key, 8, entry⟩]

/-- The lowest number not in a rising list, from `k`. -/
def lowestFree : List Nat → Nat → Nat
  | [], k => k
  | x :: xs, k => if x = k then lowestFree xs (k + 1) else k

/-- Insert into a rising list. -/
def insertNat : List Nat → Nat → List Nat
  | [], j => [j]
  | x :: xs, j => if j < x then j :: x :: xs else x :: insertNat xs j

/-- Allocate a page for a block (08 R275): the lowest free crock page, else the lowest free cellar page. -/
def State.blkAlloc (s : State) (v key epoch : Nat) (commit : Bool) : Option State :=
  let x := s.spec v
  let low := 1 + (if commit then 2 else 0) + epoch % 2 ^ 16 * 2 ^ 48
  let j := lowestFree x.usedC 0
  let k := lowestFree x.usedH 0
  let page := fun base j => (base + j * 65536) % 2 ^ 48 / 65536 * 65536
  if j < s.fld VAT_SPEC_POOLN.NCROCK v then
    some ((s.setSpec v { x with usedC := insertNat x.usedC j }).blkPut v key (low + page (s.fld VAT_SPEC_POOLC.BASE v) j))
  else if k < s.fld VAT_SPEC_POOLN.NCELLAR v then
    some (((s.setSpec v { x with usedH := insertNat x.usedH k }).blkPut v key
      (low + 4 + page (s.fld VAT_SPEC_POOLH.BASE v) k)).bump VAT_SPEC_PC_CELLAR v)
  else none

/-- The blocks of every stream that hold a position from `lo` to `hi` and whose entry is not `VALID`. -/
def State.blkNeed (s : State) (v lo hi : Nat) : List Nat :=
  let x := s.spec v
  let sz := 2 ^ s.fld VAT_SPEC_BCFG.BLKLOG v
  (List.range (s.fld VAT_SPEC_BCFG.NSTREAM v)).flatMap (fun st =>
    ((List.range (hi / sz + 1 - lo / sz)).map (fun i => blkKey st (lo / sz + i))).filter (fun k => smGet 0 x.blocks k % 2 = 0))

/-- Free pages of both pools (08 R275, R295 `VAT_SPEC_POOLF`). -/
def State.specFree (s : State) (v : Nat) : Nat × Nat :=
  let x := s.spec v
  (s.fld VAT_SPEC_POOLN.NCROCK v - x.usedC.length, s.fld VAT_SPEC_POOLN.NCELLAR v - x.usedH.length)

/-- Allocate each of a list of blocks; none when the pools run out. -/
def State.blkAllocAll (s : State) (v epoch : Nat) (commit : Bool) (keys : List Nat) : State × Bool :=
  keys.foldl (fun (acc : State × Bool) k =>
    if !acc.2 then acc
    else match acc.1.blkAlloc v k epoch commit with
      | some s => (s, true)
      | none => (acc.1, false)) (s, true)

/-- The page of an entry within a pool. -/
def pageIx (base entry : Nat) : Nat := (entry % 2 ^ 48 / 65536 * 65536 + 2 ^ 48 - base) % 2 ^ 48 / 65536

/-- Release a block (08 R276): its entry is cleared and its page is free. -/
def State.blkFree (s : State) (v key entry : Nat) : State :=
  let x := s.spec v
  let s := s.setSpec v (if entry.testBit 2 then { x with usedH := x.usedH.erase (pageIx (s.fld VAT_SPEC_POOLH.BASE v) entry) }
    else { x with usedC := x.usedC.erase (pageIx (s.fld VAT_SPEC_POOLC.BASE v) entry) })
  s.blkPut v key 0

/-- Commit the blocks that hold a position below `k`, and release the uncommitted ones of retired epochs (08 R276). -/
def State.blkVerdict (s : State) (v k : Nat) (retired : Nat → Bool) : State :=
  let sz := 2 ^ s.fld VAT_SPEC_BCFG.BLKLOG v
  (s.spec v).blocks.foldl (fun s e =>
    if !e.2.testBit 1 && e.1 % 65536 * sz < k then s.blkPut v e.1 (e.2 + 2)
    else if !e.2.testBit 1 && retired (e.2 / 2 ^ 48) then s.blkFree v e.1 e.2
    else s) s

/-! ### Epochs -/

/-- Show the outstanding epochs in the registers (08 R295). -/
def State.specSync (s : State) (v : Nat) : State :=
  let es := (s.spec v).epochs
  (s.setFld VAT_SPEC_STAT.OUTST es.length v).setFld VAT_SPEC_EPOCH.OPENED ((es.getLast?.map (fun e => e.e)).getD 0) v

/-- Increment one of the unit's tallies. -/
def State.specTally (s : State) (v : Nat) (en tally : Fld) (n : Nat) : State :=
  if s.bit en v ∧ n ≠ 0 then s.sendInc (s.fld tally v) n (vatOrg v) else s

/-- The number after epoch `e` (08 R265). -/
def nextEpoch (e : Nat) : Nat := if e = 0xFFFFFFFF then 8 else e + 1

/-- A stream ends (08 R280): every outstanding epoch is retired and every uncommitted block released. -/
def State.specEnd (s : State) (v reason : Nat) : State :=
  let x := s.spec v
  let lowest := x.posted.foldl (fun m p => min m p.1) (2 ^ 32)
  let recs : List SpecRec := if x.posted = [] then []
    else [{ type := 3, pos := lowest, epoch := (x.epochs.head?.map (fun e => e.e)).getD 0 }]
  let s := (s.setFld VAT_SPEC_STAT.STATE 2 v).bumpN VAT_SPEC_PC_RETRACT x.posted.length v
  let s := (s.setSpec v { x with epochs := [], waits := [], posted := [], reason := reason }).blkVerdict v 0 (fun _ => true)
  let s := (s.specSync v).specTally v VAT_SPEC_TALLY.FREE_EN VAT_SPEC_TALLY.FREE x.epochs.length
  (s.specPost v recs).specRun v

/-- The fields of a command word (08 R267). -/
def cmdOp (d : Dword) : Nat := bvBits d 0 4
def cmdN (d : Dword) : Nat := bvBits d 4 3
def cmdRa (d : Dword) : Bool := d.getLsbD 7
def cmdTok (d : Dword) : Nat := bvBits d 8 24
def cmdReason (d : Dword) : Nat := bvBits d 8 8

/-- Are a command word's operation and reserved fields as 08 R267 gives them? -/
def cmdWellFormed (d : Dword) : Bool :=
  match cmdOp d with
  | 1 => cmdN d ≠ 0 && (cmdRa d || cmdTok d = 0) && bvBits d 32 32 = 0
  | 2 => cmdN d ≤ 6 && !cmdRa d
  | 3 => !cmdRa d && bvBits d 48 16 = 0
  | 4 => bvBits d 4 4 = 0 && bvBits d 16 48 = 0
  | _ => false

/-- Does a unit take work now: an anchor vat that accepts work, no verdict in progress, the records of its stream of
signed events accepted (08 R267, 20 R598)? -/
def State.specTake (s : State) (v : Nat) (act : State → State) : State :=
  if !s.accepts v || !s.hasSpec v || (s.spec v).busy.isSome then s else s.signed v 128 act

/-- A message reaches a unit. -/
def State.specArrive (s : State) (v : Nat) (m : SpecMsg) (wait : Bool) (act : State → State) : State :=
  let msg := Msg.spec s.devId v m
  if wait || !s.specOrder msg then s else s.specTake v (fun s => act (s.recvMsg msg))

/-- Would `k` more records overrun the output queue of 64 (08 R290)? -/
def State.specNoRoom (s : State) (v k : Nat) : Bool := s.specRing v && k ≠ 0 && 64 < (s.spec v).outq.length + k

/-- Do forwarded messages of a drafter unit wait for its peer's output queue (08 R290)? -/
def State.specPathHeld (s : State) (v : Nat) : Bool :=
  match s.specPeer v with
  | some w => 64 ≤ (s.spec w).outq.length && s.net.any (fun m => match m with
    | .spec d u _ => d = s.devId && u = w
    | _ => false)
  | none => false

/-- The number of an epoch in a command, A and Y of a `VERDICT` (08 R267). -/
def verdE (d : Dword) : Nat := bvBits d 32 16
def verdA (d : Dword) : Nat := cmdN d
def verdY (d : Dword) : Nat := cmdTok d

/-- Does a `VERDICT` written to a unit pass its checks (08 R268)? -/
def State.verdictGood (s : State) (v : Nat) (d : Dword) : Bool :=
  s.specState v = 1 && s.specLead v && cmdOp d = 3 && cmdWellFormed d &&
    match (s.spec v).epochs with
    | [] => false
    | ep :: _ => ep.e % 2 ^ 16 = verdE d && ep.n ≤ ep.toks && verdA d ≤ ep.n

/-- The records that a command word written to the lead unit may add (08 R280, R287). -/
def State.specAdds (s : State) (v : Nat) (d : Dword) : Nat :=
  if s.verdictGood v d then 3
  else if s.specState v = 1 && s.specLead v && cmdOp d = 4 && cmdWellFormed d && cmdReason d ≤ 1 && (s.spec v).posted ≠ [] then 1
  else 0

/-- Does a command word wait for the output queue, its own or that of the drafter's peer (08 R290)? -/
def State.specCmdHeld (s : State) (v : Nat) (d : Dword) : Bool :=
  if s.specRole v = 2 then s.specPathHeld v else s.specNoRoom v (s.specAdds v d)

/-- A command word written to a unit: late outside `RUNNING`, dropped where it is malformed (08 R267, R268). -/
def State.specCmd (s : State) (v : Nat) (data : Dword) (act : State → State) : State :=
  if s.specCmdHeld v data then s
  else s.specTake v (fun s =>
    if s.specState v ≠ 1 then s.specLate v
    else if !cmdWellFormed data then s.specBad v
    else act s)

/-- `SPEC_OPEN` (08 R268, R269): forwarded by a drafter unit. -/
def execSpecOpen (v : VatId) (data : Dword) (s : State) : Host.Outcome State Fault Refusal :=
  .next (if cmdOp data ≠ 1 then s
    else s.specCmd v data (fun s =>
      if s.specRole v ≠ 2 then s.specBad v
      else
        let x := s.spec v
        (s.setSpec v { x with waits := x.waits ++ [(cmdN data, cmdRa data, cmdTok data)] }).specToPeer v (.open data)))

/-- `SPEC_TOKEN` (08 R268, R269). -/
def execSpecToken (v : VatId) (data : Dword) (s : State) : Host.Outcome State Fault Refusal :=
  .next (if cmdOp data ≠ 2 then s
    else s.specCmd v data (fun s => if s.specRole v ≠ 2 then s.specBad v else s.specToPeer v (.token data)))

/-- `SPEC_END` (08 R268, R280): at the lead it ends the stream; a drafter unit forwards it and ends its own. -/
def execSpecEnd (v : VatId) (data : Dword) (s : State) : Host.Outcome State Fault Refusal :=
  .next (if cmdOp data ≠ 4 then s
    else s.specCmd v data (fun s =>
      if 1 < cmdReason data then s.specBad v
      else if s.specRole v = 2 then (s.specToPeer v (.fin data)).specEnd v (cmdReason data)
      else if s.specLead v then s.specEnd v (cmdReason data)
      else s.specBad v))

/-- `SPEC_CMD_RESERVED` (08 R267): a reserved operation or field. -/
def execSpecCmdReserved (v : VatId) (data : Dword) (s : State) : Host.Outcome State Fault Refusal :=
  .next (if cmdWellFormed data then s else s.specCmd v data (fun s => s))

/-- The draft-buffer address of an epoch (08 R270). -/
def State.dbufVa (s : State) (v e : Nat) : Nat := s.fld VAT_SPEC_DBUF.VA v + e % 8 * 128

/-- The checks of an `OPEN` at the verifier unit (08 R268): none where it passes, else whether it is late. -/
def State.openCheck (s : State) (v : Nat) (data : Dword) : Option Bool :=
  let es := (s.spec v).epochs
  if s.specState v ≠ 1 then some true
  else if s.specRole v ≠ 1 ∨ !cmdWellFormed data then some false
  else if s.fld VAT_SPEC_CTL.NMAX v < cmdN data then some false
  else if es.any (fun e => e.toks < e.n) then some false
  else if 8 ≤ es.length then some false
  else if cmdRa data ∧ es = [] then some true
  else none

/-- `SPEC_PEER_OPEN` (08 R265, R268 to R270, R275). -/
def execSpecPeerOpen (v : VatId) (data : Dword) (s : State) : Host.Outcome State Fault Refusal :=
  .next (if cmdOp data ≠ 1 then s
    else s.specArrive v (.open data) (s.specProv v && cmdRa data && s.specNoRoom v 1) (fun s =>
    match s.openCheck v data with
    | some late => (if late then s.specLate v else s.specBad v).specToPeer v (.answer none)
    | none =>
      let x := s.spec v
      let n := cmdN data
      let start := match cmdRa data, x.epochs.getLast? with
        | true, some e => e.s + e.n + 1
        | _, _ => s.fld VAT_SPEC_POS.L v
      let need := s.blkNeed v (start - 1) (start + n - 1)
      let (fc, fh) := s.specFree v
      if s.fld VAT_SPEC_BCFG.NBLK v * 2 ^ s.fld VAT_SPEC_BCFG.BLKLOG v ≤ start + n - 1 then
        (s.specToPeer v (.answer none)).specEnd v 3
      else if fc + fh < need.length then (s.specToPeer v (.answer none)).specFault v 2
      else
        let e := x.next
        let ep : SpecEpoch := { e := e, s := start, n := n, ra := cmdRa data, g := cmdTok data }
        let s := s.setSpec v { x with epochs := x.epochs ++ [ep], next := nextEpoch e
                                      posted := if s.specProv v && cmdRa data then x.posted ++ [(start - 1, cmdTok data)] else x.posted }
        let s := (s.blkAllocAll v e false need).1
        let head := e + start * 2 ^ 32 + n * 2 ^ 64 + (if cmdRa data then 2 ^ 72 else 0) + cmdTok data * 2 ^ 96
        let s := s.specWrite v [⟨1, s.dbufVa v e, 64, head⟩, ⟨1, s.dbufVa v e + 64, 64, 0⟩]
        let s := (s.specSync v).specToPeer v (.answer (some (BitVec.ofNat 32 e, BitVec.ofNat 32 start)))
        let s := if s.specProv v && cmdRa data then
            s.specPost v [{ type := 1, prov := true, tok := cmdTok data, pos := start - 1, epoch := e }] else s
        s.specRun v))

/-- `SPEC_OPEN_ANSWER` (08 R269, R275): on ACCEPT the drafter unit allocates its blocks. -/
def execSpecOpenAnswer (v : VatId) (accept : Option (Word × Word)) (s : State) : Host.Outcome State Fault Refusal :=
  .next (s.specArrive v (.answer accept) false (fun s =>
    let x := s.spec v
    if s.specState v ≠ 1 then s.specLate v
    else match x.waits, accept with
      | _ :: rest, none => s.setSpec v { x with waits := rest }
      | (n, ra, g) :: rest, some (e, st) =>
        let s := s.setSpec v { x with waits := rest }
        let start := st.toNat
        let need := s.blkNeed v (start - 1) (start + n - 1)
        let (fc, fh) := s.specFree v
        if s.fld VAT_SPEC_BCFG.NBLK v * 2 ^ s.fld VAT_SPEC_BCFG.BLKLOG v ≤ start + n - 1 then s.specEnd v 3
        else if fc + fh < need.length then s.specFault v 2
        else
          let s := s.setSpec v { x with waits := rest, epochs := x.epochs ++ [{ e := e.toNat, s := start, n := n, ra := ra, g := g, toks := n }] }
          (((s.blkAllocAll v e.toNat false need).1).specSync v).specRun v
      | [], _ => s))

/-- `SPEC_PEER_TOKEN` (08 R268, R270, R287): the token enters the epoch that is `OPEN`. -/
def execSpecPeerToken (v : VatId) (data : Dword) (s : State) : Host.Outcome State Fault Refusal :=
  .next (if cmdOp data ≠ 2 then s
    else s.specArrive v (.token data) (s.specProv v && s.specNoRoom v 1) (fun s =>
    let x := s.spec v
    if s.specState v ≠ 1 then s.specLate v
    else if s.specRole v ≠ 1 ∨ !cmdWellFormed data then s.specBad v
    else match x.epochs.getLast? with
      | none => s.specLate v
      | some ep =>
        if ep.n ≤ ep.toks then s.specLate v
        else if cmdN data ≠ ep.toks then s.specBad v
        else
          let i := cmdN data
          let s := s.setSpec v { x with epochs := x.epochs.dropLast ++ [{ ep with toks := ep.toks + 1 }]
                                        posted := if s.specProv v then x.posted ++ [(ep.s + i, cmdTok data)] else x.posted }
          let s := s.bump VAT_SPEC_PC_DRAFT v
          let a := s.dbufVa v ep.e
          let s := s.specWrite v [⟨1, a + 0x10 + 4 * i, 4, cmdTok data⟩, ⟨1, a + 0x30 + 4 * i, 4, bvBits data 32 32⟩]
          let s := if s.specProv v then
              s.specPost v [{ type := 1, prov := true, tok := cmdTok data, pos := ep.s + i, epoch := ep.e }] else s
          s.specRun v))

/-- `SPEC_PEER_END` (08 R268, R280). -/
def execSpecPeerEnd (v : VatId) (data : Dword) (s : State) : Host.Outcome State Fault Refusal :=
  .next (if cmdOp data ≠ 4 then s
    else s.specArrive v (.fin data) (s.specNoRoom v (if (s.spec v).posted = [] then 0 else 1)) (fun s =>
    if s.specState v ≠ 1 then s.specLate v
    else if s.specRole v ≠ 1 ∨ !cmdWellFormed data ∨ 1 < cmdReason data then s.specBad v
    else s.specEnd v (cmdReason data)))

/-! ### Verdicts (08 R271 to R273) -/

/-- Steps 4 to 6 of a verdict, when every table write is acknowledged (08 R271). -/
def State.specVerdEnd (s : State) (v : Nat) : State :=
  let x := s.spec v
  match x.busy with
  | none => s
  | some b =>
    if x.writing 0 then s
    else
      let s := s.setSpec v { x with busy := none }
      let s := ((s.setFld VAT_SPEC_POS.L b.l v).setFld VAT_SPEC_EPOCH.DONE b.e v).specSync v
      let s := ((s.setFld VAT_SPEC_LASTV.Y b.y v).setFld VAT_SPEC_LASTV.A b.a v).setFld VAT_SPEC_LASTV.EPOCH b.e v
      let s := (s.bump VAT_SPEC_PC_PASS v).bumpN VAT_SPEC_PC_COMMIT (b.a + 1) v
      let s := s.specTally v VAT_SPEC_TALLY.FREE_EN VAT_SPEC_TALLY.FREE b.left
      let s := if b.drafter then s.specTally v VAT_SPEC_TALLY.VERD_EN VAT_SPEC_TALLY.VERD 1 else s
      let s := s.specPost v b.recs
      s.signClose v 128

/-- Steps 2 and 3 of a verdict on epoch `e` that starts at `st` with `n` drafts (08 R271, R276, R287). -/
def State.specVerdict (s : State) (v e st n a y : Nat) : State :=
  let x := s.spec v
  let rest := x.epochs.filter (fun k => k.e ≠ e)
  let keep := a = n && (match rest with | k :: _ => k.ra && k.g = y | [] => false)
  let gone := if keep then [] else rest
  let withdrawn := if keep then [] else x.posted.filter (fun p => st + a ≤ p.1)
  let standing := keep && x.posted.contains (st + a, y)
  let recs : List SpecRec :=
    (if withdrawn = [] then [] else [{ type := 3, pos := st + a, epoch := e }])
      ++ (if standing then [] else [{ type := 1, tok := y, pos := st + a, epoch := e }])
      ++ [{ type := 2, pos := st + a + 1, epoch := e }]
  let b : SpecVerd := { e := e, l := st + a + 1, a := a, y := y, left := x.epochs.length - (if keep then rest.length else 0)
                        drafter := s.specRole v = 2, recs := recs }
  let s := s.setSpec v { x with epochs := if keep then rest else [], busy := some b
                                posted := if keep then x.posted.filter (fun p => st + a ≤ p.1) else [] }
  let s := s.bumpN VAT_SPEC_PC_RETRACT withdrawn.length v
  let s := s.blkVerdict v (st + a) (fun q => gone.any (fun k => k.e % 2 ^ 16 = q))
  (s.specRun v).specVerdEnd v

/-- `SPEC_VERDICT` (08 R268, R271): written to the lead unit. -/
def execSpecVerdict (v : VatId) (data : Dword) (s : State) : Host.Outcome State Fault Refusal :=
  .next (if cmdOp data ≠ 3 then s
    else s.specCmd v data (fun s =>
      if !s.verdictGood v data then s.specBad v
      else match (s.spec v).epochs with
        | [] => s.specBad v
        | ep :: _ =>
          let m := SpecMsg.verdict data (BitVec.ofNat 32 ep.e) (BitVec.ofNat 32 ep.s) (BitVec.ofNat 3 ep.n)
          let s := (s.specFollowers v).foldl (fun s d => s.specSend v d 64 m) s
          (s.specToPeer v m).specVerdict v ep.e ep.s ep.n (verdA data) (verdY data)))

/-- `SPEC_FOLLOWER_VERDICT` (08 R272): taken only from `LEAD_DEV`. -/
def execSpecFollowerVerdict (v : VatId) (dev : BitVec 14) (data : Dword) (e st : Word) (n : BitVec 3) (s : State) :
    Host.Outcome State Fault Refusal :=
  .next (s.specArrive v (.verdict data e st n) false (fun s =>
    if s.specState v ≠ 1 then s.specLate v
    else if s.specRole v ≠ 1 ∨ s.specLead v ∨ dev.toNat ≠ s.fld VAT_SPEC_LEAD.LEAD_DEV v then s.specBad v
    else match (s.spec v).epochs with
      | [] => s.specFault v 5
      | ep :: _ =>
        if ep.e ≠ e.toNat ∨ ep.s ≠ st.toNat ∨ ep.n ≠ n.toNat then s.specFault v 5
        else (s.specToPeer v (.verdict data e st n)).specVerdict v ep.e ep.s ep.n (verdA data) (verdY data)))

/-- `SPEC_DRAFTER_VERDICT` (08 R271): the drafter unit applies steps 2 to 4 and increments `VERD`. -/
def execSpecDrafterVerdict (v : VatId) (data : Dword) (e st : Word) (n : BitVec 3) (s : State) :
    Host.Outcome State Fault Refusal :=
  .next (s.specArrive v (.verdict data e st n) false (fun s =>
    if s.specState v ≠ 1 then s.specLate v
    else if s.specRole v ≠ 2 then s.specBad v
    else s.specVerdict v e.toNat st.toNat n.toNat (verdA data) (verdY data)))

/-- `SPEC_PEER_LOST` (08 R281). -/
def execSpecPeerLost (v : VatId) (s : State) : Host.Outcome State Fault Refusal :=
  .next (if !s.vatLive v || !s.hasSpec v then s
    else
      let s := s.recvMsg (.spec s.devId v .lost)
      s.specFault v 6)

/-! ### Replies -/

/-- A write of the unit ends. -/
def State.specWriteEnd (s : State) (v tag : Nat) (err : Option Bool) : State :=
  let x := s.spec v
  match x.outs.find? (fun o => o.1 = tag) with
  | none => s
  | some o =>
    let s := (s.recvReply (.specUnit v) tag).setSpec v { x with outs := x.outs.erase o }
    match err with
    | some t => s.specMemFault v o.2.1 o.2.2.2 t
    | none => (s.specRun v).specVerdEnd v

/-- The read-back of the ring ends (08 R285): `PROD` is written and the ring source raised. -/
def State.specReadEnd (s : State) (v : Nat) (err : Option Bool) : State :=
  let x := s.spec v
  match x.rb with
  | none => s
  | some (tag, upto, ga) =>
    let s := (s.recvReply (.specUnit v) tag).setSpec v { x with rb := none }
    match err with
    | some t => s.specMemFault v 2 ga t
    | none =>
      let s := s.specIssue v 2 (s.hostGa (s.ringOff v 0)) false 4 (upto % 2 ^ 32)
      let s := (s.setFld VAT_SPEC_PROD.PROD upto v).raiseVat v 7
      match x.rbNext with
      | some m => s.specReadBack v m
      | none => s

/-- `SPEC_MEMORY_WRITE_ACK` (08 R270, R271, R281). -/
def execSpecMemoryWriteAck (v : VatId) (tag : Nat) (res : Ack) (s : State) : Host.Outcome State Fault Refusal :=
  .next (s.specWriteEnd v tag (if res = .err then some false else none))

/-- `SPEC_REQUEST_TIMEOUT` (08 R282). -/
def execSpecRequestTimeout (v : VatId) (tag : Nat) (s : State) : Host.Outcome State Fault Refusal :=
  .next (match (s.spec v).rb with
    | some (t, _, _) => if t = tag then s.specReadEnd v (some true) else s.specWriteEnd v tag (some true)
    | none => s.specWriteEnd v tag (some true))

/-- `SPEC_RING_READBACK` (08 R285). -/
def execSpecRingReadback (v : VatId) (res : Ack) (s : State) : Host.Outcome State Fault Refusal :=
  .next (s.specReadEnd v (if res = .err then some false else none))

/-- `SPEC_PRESENT` (08 R266, R270, R290): the oldest epoch, `SUBMITTED`, with its record's writes acknowledged. -/
def execSpecPresent (v : VatId) (s : State) : Host.Outcome State Fault Refusal :=
  .next (s.specTake v (fun s =>
    let x := s.spec v
    match x.epochs with
    | ep :: rest =>
      let va := s.dbufVa v ep.e
      let mine := fun (a : Nat) => va ≤ a && a < va + 128
      let sending := x.todo.any (fun w => w.kind = 1 && mine w.va) || x.outs.any (fun o => o.2.1 = 1)
      if s.specState v ≠ 1 ∨ s.specRole v ≠ 1 ∨ ep.presented ∨ ep.toks < ep.n ∨ sending ∨ 32 ≤ x.outq.length then s
      else (s.setSpec v { x with epochs := { ep with presented := true } :: rest }).specTally v VAT_SPEC_TALLY.SUB_EN
        VAT_SPEC_TALLY.SUBMIT 1
    | [] => s))

/-! ### Control and configuration (08 R278 to R280, R289, R295) -/

/-- Is a binary32 value +0 or positive and normal? -/
def tempOk (t : Nat) : Bool := t = 0 || (t < 2 ^ 31 && 1 ≤ t / 2 ^ 23 && t / 2 ^ 23 ≤ 254)

/-- The checks of `START` (08 R279). -/
def State.specCheck (s : State) (v : Nat) : Bool :=
  let f := fun (k : Fld) => s.fld k v
  let tally := fun (en t : Fld) => !s.bit en v || s.tallyOk v (f t)
  let peer := match s.partOf v with
    | some p => match s.part p with | some r => decide (r.verifyPeer ≠ 255) | none => false
    | none => false
  let span := f VAT_SPEC_BCFG.NBLK * 2 ^ f VAT_SPEC_BCFG.BLKLOG
  (f VAT_SPEC_CTL.ROLE = 1 || f VAT_SPEC_CTL.ROLE = 2) && peer
    && tally VAT_SPEC_TALLY.SUB_EN VAT_SPEC_TALLY.SUBMIT && tally VAT_SPEC_TALLY.FREE_EN VAT_SPEC_TALLY.FREE
    && tally VAT_SPEC_TALLY.VERD_EN VAT_SPEC_TALLY.VERD
    && f VAT_SPEC_DBUF.VA % 1024 = 0 && f VAT_SPEC_BTAB.VA % 8 = 0
    && f VAT_SPEC_POOLC.BASE % 65536 = 0 && f VAT_SPEC_POOLH.BASE % 65536 = 0
    && 1 ≤ f VAT_SPEC_BCFG.NSTREAM && 4 ≤ f VAT_SPEC_BCFG.BLKLOG && f VAT_SPEC_BCFG.BLKLOG ≤ 7 && 1 ≤ f VAT_SPEC_BCFG.NBLK
    && f VAT_SPEC_POOLN.NCROCK ≤ 16384 && f VAT_SPEC_POOLN.NCELLAR ≤ 131072
    && 1 ≤ f VAT_SPEC_SAMP.TOPK && f VAT_SPEC_SAMP.TOPK ≤ 64 && tempOk (f VAT_SPEC_SAMP.TEMP)
    && 1 ≤ f VAT_SPEC_PLEN.PLEN && f VAT_SPEC_PLEN.PLEN ≤ span
    && (f VAT_SPEC_CTL.LEAD = 0 || f VAT_SPEC_CTL.ROLE = 1)
    && (f VAT_SPEC_CTL.RING_EN = 0
      || (f VAT_SPEC_CTL.LEAD = 1 && 6 ≤ f VAT_SPEC_RING.RLOG && f VAT_SPEC_RING.RLOG ≤ 16 && f VAT_SPEC_CONS.CONS = 0))

/-- `SPEC_CTL_START` (08 R279). It waits until the writes of an earlier stream are acknowledged. -/
def execSpecCtlStart (v : VatId) (s : State) : Host.Outcome State Fault Refusal :=
  let x := s.spec v
  .next (if x.todo ≠ [] ∨ x.outs ≠ [] ∨ x.rb.isSome then s
    else s.specTake v (fun s =>
      if s.specState v ≠ 0 then (if s.specState v = 3 then s.specLate v else s)
      else if !s.specCheck v then s.specFault v 1
      else
        let plen := s.fld VAT_SPEC_PLEN.PLEN v
        let x := s.spec v
        let s := s.setSpec v { x with epochs := [], next := 1, waits := [], outq := [], wseq := 0, rbNext := none, posted := [] }
        let s := (s.setFld VAT_SPEC_POS.L plen v).specSync v
        let (s, ok) := if plen < 2 then (s, true) else s.blkAllocAll v 0 true (s.blkNeed v 0 (plen - 2))
        if !ok then s.specFault v 2
        else
          let s := if s.specRing v then
              (s.setFld VAT_SPEC_PROD.PROD 0 v).specIssue v 2 (s.hostGa (s.ringOff v 0)) false 64 0 else s
          ((s.setFld VAT_SPEC_STAT.STATE 1 v).setFld VAT_SPEC_STAT.FAULT 0 v).specRun v))

/-- `SPEC_CTL_STOP` (08 R280). -/
def execSpecCtlStop (v : VatId) (s : State) : Host.Outcome State Fault Refusal :=
  .next (s.specTake v (fun s =>
    if s.specState v = 1 then s.specEnd v 2 else if s.specState v = 3 then s.specLate v else s))

/-- `SPEC_CTL_CLEAR` (08 R278, R281, R295): while `IDLE` or `FAULTED`. -/
def execSpecCtlClear (v : VatId) (s : State) : Host.Outcome State Fault Refusal :=
  .next (if !s.accepts v || !s.hasSpec v || (s.specState v ≠ 0 && s.specState v ≠ 3) then s
    else s.signed v 128 (fun s =>
      let x := s.spec v
      let n := s.fld VAT_SPEC_BCFG.NSTREAM v * s.fld VAT_SPEC_BCFG.NBLK v * 8
      let zero : List SpecWr := if n = 0 then [] else [⟨0, s.fld VAT_SPEC_BTAB.VA v, n, 0⟩]
      let s := s.setSpec v { x with epochs := [], waits := [], blocks := [], usedC := [], usedH := [], todo := zero, busy := none
                                    outq := [], rb := none, rbNext := none, posted := [] }
      let s := ((s.setFld VAT_SPEC_STAT.STATE 0 v).setFld VAT_SPEC_STAT.FAULT 0 v).setFld VAT_SPEC_STAT.RING_HOLD 0 v
      (s.specSync v).specRun v))

/-- `SPEC_CONS_WRITE` (08 R289, R290): ignored where it moves backwards or past `PROD`; free while `IDLE`. -/
def execSpecConsWrite (v : VatId) (data : Word) (s : State) : Host.Outcome State Fault Refusal :=
  let c := s.fld VAT_SPEC_CONS.CONS v
  let dist := fun (a : Nat) => (a + 2 ^ 32 - c) % 2 ^ 32
  .next (if !s.vatLive v || !s.hasSpec v then s
    else if s.specState v ≠ 0 && dist (s.fld VAT_SPEC_PROD.PROD v) < dist data.toNat then s.bumpErr VAT_SPEC_ERR.BAD_CMD v
    else (s.setFld VAT_SPEC_CONS.CONS data.toNat v).ringRun v)

/-- Write fields of a register from the data of a write. -/
def State.putFields (s : State) (fs : List Fld) (data : Dword) (i : Nat := 0) (j : Nat := 0) (k : Nat := 0) : State :=
  fs.foldl (fun s f => s.setFld f (bvBits data f.lo f.width) i j k) s

/-- `SPEC_CONFIG_WRITE` (08 R295): takes effect only while `IDLE`. -/
def execSpecConfigWrite (v : VatId) (off : BitVec 16) (data : Dword) (s : State) : Host.Outcome State Fault Refusal :=
  .next (if !s.vatLive v || !s.hasSpec v then s
    else if s.specState v ≠ 0 then s.bumpErr VAT_SPEC_ERR.BAD_CMD v
    else
      let put := fun fs => s.putFields fs data v
      match off.toNat with
      | 0x00 =>
        let s := if bvBits data 0 2 = 3 then s else s.putFields [VAT_SPEC_CTL.ROLE] data v
        let s := if bvBits data 5 3 = 0 then s else s.putFields [VAT_SPEC_CTL.NMAX] data v
        s.putFields [VAT_SPEC_CTL.LEAD, VAT_SPEC_CTL.RING_EN, VAT_SPEC_CTL.POSTPROV] data v
      | 0x10 => put [VAT_SPEC_SEED.SEED]
      | 0x18 => put [VAT_SPEC_SAMP.TOPK, VAT_SPEC_SAMP.TOPP, VAT_SPEC_SAMP.TEMP]
      | 0x20 => put [VAT_SPEC_PLEN.PLEN]
      | 0x48 => put [VAT_SPEC_TALLY.SUBMIT, VAT_SPEC_TALLY.SUB_EN, VAT_SPEC_TALLY.FREE, VAT_SPEC_TALLY.FREE_EN,
          VAT_SPEC_TALLY.VERD, VAT_SPEC_TALLY.VERD_EN]
      | 0x50 => put [VAT_SPEC_DBUF.VA]
      | 0x58 => put [VAT_SPEC_BTAB.VA]
      | 0x60 => put [VAT_SPEC_BCFG.NSTREAM, VAT_SPEC_BCFG.BLKLOG, VAT_SPEC_BCFG.NBLK]
      | 0x68 => put [VAT_SPEC_POOLC.BASE]
      | 0x70 => put [VAT_SPEC_POOLH.BASE]
      | 0x78 => put [VAT_SPEC_POOLN.NCROCK, VAT_SPEC_POOLN.NCELLAR]
      | 0x88 => put [VAT_SPEC_RING.OFFSET, VAT_SPEC_RING.RLOG]
      | 0xA0 => put [VAT_SPEC_LEAD.LEAD_DEV]
      | o =>
        if 0xA8 ≤ o ∧ o ≤ 0xC0 ∧ o % 8 = 0 then
          s.putFields [VAT_SPEC_FOLLOW.DEV0, VAT_SPEC_FOLLOW.VALID0, VAT_SPEC_FOLLOW.DEV1, VAT_SPEC_FOLLOW.VALID1,
            VAT_SPEC_FOLLOW.DEV2, VAT_SPEC_FOLLOW.VALID2, VAT_SPEC_FOLLOW.DEV3, VAT_SPEC_FOLLOW.VALID3] data v ((o - 0xA8) / 8)
        else s)

/-- `SPEC_END_DRAINED` (08 R280): the output queue is empty; the lead writes its `END` record. -/
def execSpecEndDrained (v : VatId) (s : State) : Host.Outcome State Fault Refusal :=
  let x := s.spec v
  .next (if s.specState v ≠ 2 ∨ x.outq ≠ [] ∨ (s.specRing v ∧ s.specFull v) then s
    else s.specTake v (fun s =>
      (s.specPost v [{ type := 4, tok := x.reason, pos := s.fld VAT_SPEC_POS.L v }]).setFld VAT_SPEC_STAT.STATE 0 v))

/-- A reset of an anchor vat returns its unit to reset (08 R284): the registers, the free-page maps, what it was doing;
the other units of the group are told. -/
def State.specReset (s : State) (v : Nat) : State :=
  if !s.hasSpec v then s
  else
    let role := s.specRole v
    let lead := s.specLead v
    let st := s.specState v
    let fols := s.specFollowers v
    let ld := s.fld VAT_SPEC_LEAD.LEAD_DEV v
    let tag := (s.spec v).tag
    let s := s.setSpec v { tag := tag }
    let s := s.clearVatRegs v 0x60000 0x70000 (fun o => 0x60100 ≤ o && o < 0x60130)
    if role = 0 ∧ st = 0 then s
    else
      let s := s.specToPeer v .lost
      if lead then fols.foldl (fun s d => s.specSend v d 64 .lost) s
      else if role = 1 then s.specSend v ld 64 .lost
      else s

end Sys2Proof.Machine
end

