-- ==== Sys2Proof/Machine/VatReset.lean ====
section
/-! DEFINITION. The reset of a vat (06 R219). -/

namespace Sys2Proof.Machine

open Sys2Proof

/-- `VAT_RESET` (06 R219 phases 1 to 5): ignored during a reset. -/
def execVatReset (v : VatId) (s : State) : Host.Outcome State Fault Refusal :=
  .next (if !s.vatLive v then s
    else
      let s := (s.setFld VAT_STAT.RESETTING 1 v).setFld VAT_STAT.EPOCH ((s.fld VAT_STAT.EPOCH v + 1) % 256) v
      (s.specReset v).resetUnits v)

/-- `VAT_RESET_COMPLETE` (06 R219 phase 6, 04 R138). -/
def execVatResetComplete (v : VatId) (s : State) : Host.Outcome State Fault Refusal :=
  .next (if !s.bit VAT_STAT.RESETTING v then s
    else
      let s := (List.range 64).foldl (fun s k => s.setFld VAT_CORE_STAT.CC_INIT 0 v k) s
      (s.setFld VAT_STAT.RESETTING 0 v).readyStages v)

end Sys2Proof.Machine
end

