-- ==== Sys2Proof/Machine/Place.lean ====
section
/-! DEFINITION. Where an address lies: the device physical address map, the crock's unit map, the cellar's regions, the
host window, home slices, and the partition of a requester (01 R28, R32 to R39, 09 R299, 10 R320 to R323, 11 R350,
16 R505). -/

namespace Sys2Proof.Machine

open Sys2Proof

/-- The device channels near to a vat (01 R28). -/
def nearChans (v : Nat) : List Nat :=
  let vx := v % 8
  let vy := v / 8
  let k := vy / 4 * 4 + vx / 2
  let l := vy % 4 * 2 + vx % 2
  [16 * k + 2 * l, 16 * k + 2 * l + 1]

/-- The vat beneath a device channel (01 R28). -/
def chanVat (c : Nat) : Nat :=
  let k := c / 16
  let l := c % 16 / 2
  (k / 4 * 4 + l / 2) * 8 + k % 4 * 2 + l % 2

/-- Is a device channel a priority channel (10 R320)? -/
def State.prioChan (s : State) (c : Nat) : Bool := s.img.prioCh.getD (c / 16) 255 = c % 16

/-- The channel set of a region (10 R320). -/
def State.chanSet (s : State) (r : CrockRegion) : List Nat :=
  (List.range 128).filter (fun c => s.prioChan c = r.kv && (match r.imode with
    | 0 => true
    | 1 => c / 16 = r.crock
    | _ => (nearChans r.vat).contains c))

/-- The crock region that holds a unit of 32 MiB. -/
def State.crockRegion (s : State) (unit : Nat) : Option CrockRegion :=
  s.img.crock.find? (fun r => r.base ≤ unit && unit < r.base + r.size)

/-- The channel and the channel-local address of a crock address (10 R321); none where no region holds it. -/
def State.crockPlace (s : State) (a : Nat) : Option (Nat × Nat) :=
  match s.crockRegion (a / 2 ^ 25) with
  | none => none
  | some r =>
    let set := s.chanSet r
    let m := set.length
    if m = 0 then none
    else
      let g := a / 512
      (set[g % m]?).map (fun c => (c, g / m % 262144 * 512 + a % 512))

/-- The cellar region that holds an offset of a position. -/
def State.cellarRegion (s : State) (pos off : Nat) : Option CellarRegion :=
  s.img.cellar.find? (fun r => r.pos = pos && r.base ≤ off / 2 ^ 30 && off / 2 ^ 30 < r.base + r.size)

/-- Where a device physical address lies (01 R35 to R39). -/
inductive Place where
  | crock (ch loc : Nat)
  | cellar (pos off : Nat)
  | scratch (n off : Nat)
  | core (c off : Nat)
  | reg (off : Nat)
  | host (off : Nat)
  | none
  deriving DecidableEq, Repr

/-- The place of a device physical address (01 R35). -/
def State.place (s : State) (a : Nat) : Place :=
  if a < 0x400000000 then
    match s.crockPlace a with
    | some (c, l) => if a < 0x3FE000000 then .crock c l else .none
    | none => .none
  else if a < 0x420000000 then .scratch ((a - 0x400000000) / 2 ^ 23) (a % 2 ^ 23)
  else if a < 0x430000000 then .core ((a - 0x420000000) / 65536) (a % 65536)
  else if a < 0x440000000 then .reg (a - 0x430000000)
  else if 0x800000000 ≤ a ∧ a < 0x8800000000 then
    let o := a - 0x800000000
    let pos := o / 2 ^ 36
    (match s.cellarRegion pos (o % 2 ^ 36) with
      | some _ => .cellar pos (o % 2 ^ 36)
      | none => .none)
  else if 2 ^ 44 ≤ a ∧ a < 2 ^ 45 then .host (a - 2 ^ 44)
  else .none

/-- Where a global address leads (01 R32 to R34): a device physical address here, another device, or nowhere. -/
inductive Target where
  | here (dpa : Nat)
  | away (dev : Nat)
  | bad
  deriving DecidableEq, Repr

/-- The target of a global address. -/
def State.target (s : State) (ga : Dword) : Target :=
  let dev := bvBits ga 48 14
  let dpa := bvBits ga 0 48
  let away := fun (bad : Bool) =>
    if bad || !s.bit MC_FAB_RT.VALID dev then Target.bad else .away dev
  match bvBits ga 62 2 with
  | 0 => if dev = 0 then .here dpa else .bad
  | 1 => if dev = s.devId then .here dpa else away (2 ^ 44 ≤ dpa && dpa < 2 ^ 45)
  | 2 => if 2 ^ 44 ≤ dpa then .bad else if dev = s.devId then .here (2 ^ 44 + dpa) else away false
  | _ => .bad

/-! ### Requesters -/

/-- Is a requester outside the device: a guest die, a host or another device (12 R390)? -/
def agentOutside (a : Agent) : Bool :=
  match a with
  | .site _ | .host | .fabric .. => true
  | _ => false

/-! ### Home slices (09 R299) -/

/-- Is a slice usable (09 R299)? -/
def State.sliceUsable (s : State) (v : Nat) : Bool := s.bit VAT_CRM_CFG.USABLE v

/-- The home list of a place. -/
def homeList (p : Place) (a : Nat) : List Nat :=
  let b := a / 4096 % 2
  match p with
  | .crock ch _ =>
    let v := chanVat ch
    let k := ch / 16
    v :: ((List.range 64).filter (fun w => w ≠ v && w / 32 = k / 4 && w % 8 / 2 = k % 4))
  | .cellar pos _ =>
    let h := if pos < 4 then 2 * pos else 48 + 2 * pos
    [h + b, h + 1 - b]
  | .host _ => [24 + 8 * b, 32 - 8 * b]
  | .scratch n _ => [n]
  | .core c _ => [vatOf c]
  | _ => []

/-- The home slice of a place: the first usable vat of its list. -/
def State.homeOf (s : State) (p : Place) (a : Nat) : Option Nat := (homeList p a).find? (fun v => s.sliceUsable v)

/-! ### The host window (16 R505) -/

/-- The host address and Requester ID of an access to the host window by partition `part`: none is a bus error. The
entry must be assigned to the requester's partition; a requester without one uses entries of `OWNER` 0x40. -/
def State.hostMap (s : State) (off : Nat) (part : Option Nat) (write : Bool) : Option (Nat × Nat) :=
  match s.hostEntry off with
  | none => none
  | some w =>
    let own := s.fld HOST_WIN_CFG.OWNER w
    if !s.bit HOST_STAT.DL_UP ∨ own ≠ part.getD 64 ∨ (write ∧ !s.bit HOST_WIN_CFG.WR w) then none
    else
      let rid := match s.part own with
        | some r => if own < 64 then r.hostFn else 0
        | none => 0
      some (s.fld HOST_WIN_ADDR.HADDR w * 2 ^ 21 + (off - s.fld HOST_WIN_BASE.BASE w * 2 ^ 21), rid)

end Sys2Proof.Machine
end

