-- ==== Sys2Proof/Machine/Cream.lean ====
section
/-! DEFINITION. The Cream store: request slots, the cache, the atomic buffer, scratchpads, victims and regulators
(09 R297 to R315). -/

namespace Sys2Proof.Machine

open Sys2Proof

/-- A slice. -/
def State.slice (s : State) (v : Nat) : SliceSt := smGet {} s.slices v

/-- Show the slots and the atomic buffer of a slice in its status register (09 R314). -/
def State.sliceSync (s : State) (v : Nat) : State :=
  let x := s.slice v
  let n := fun (p : Nat → Bool) => (x.slots.filter (fun e => p e.2.kind)).length
  ((((s.setFld VAT_CRM_STAT.SHARE_USED (n (fun k => k = 0 || k = 2)) v).setFld VAT_CRM_STAT.COMMON_USED
    (n (fun k => k = 1)) v).setFld VAT_CRM_STAT.RT_USED (n (fun k => k = 3)) v).setFld VAT_CRM_STAT.ATOMB_VALID
    x.atomb.length v).setFld VAT_CRM_STAT.ATOMB_LOCK (x.atomb.filter (fun e => e.locked)).length v

/-- Replace a slice. -/
def State.setSlice (s : State) (v : Nat) (x : SliceSt) : State :=
  State.sliceSync { s with slices := smSet {} s.slices v x } v

/-! ### Slots (09 R308) -/

/-- The share of a partition at a slice. -/
def State.qshare (s : State) (v : Nat) (part : Option Nat) : Nat :=
  match part with
  | some p => s.fld VAT_CRM_SHARE.QSHARE v p
  | none => 0

/-- The kind of slot that a request takes (09 R308), if one is free. -/
def State.slotKind (s : State) (v : Nat) (part : Option Nat) (rt : Bool) : Option Nat :=
  let x := s.slice v
  let n := fun (p : SliceReq → Bool) => (x.slots.filter (fun e => p e.2)).length
  let sum := (List.range 64).foldl (fun a p => a + s.fld VAT_CRM_SHARE.QSHARE v p) 0
  if rt ∧ n (fun r => r.kind = 3) < 8 then some 3
  else if n (fun r => r.kind = 0 && r.part = part) < s.qshare v part then some 0
  else if n (fun r => r.kind = 1) < 8 then some 1
  else if n (fun r => r.kind = 2) < 64 - sum then some 2
  else none

/-- Is this the oldest request in flight of its source to its line (09 R310)? -/
def State.reqFirst (s : State) (src : Agent) (tag : Nat) (ga : Dword) (op : MemOp) : Bool :=
  match s.net.find? (fun m => match m with
    | .req a _ g _ => a = src && g.toNat / 64 = ga.toNat / 64
    | _ => false) with
  | some m => m = .req src tag ga op || !s.net.contains (.req src tag ga op)
  | none => true

/-- A request arrives at a slice and takes a slot (09 R308), or already holds one and waits to be granted. -/
def State.sliceArrive (s : State) (v : Nat) (src : Agent) (tag : Nat) (ga : Dword) (op : MemOp) (line : Nat) :
    Option (State × Nat × SliceReq) :=
  let x := s.slice v
  match x.slots.find? (fun e => e.2.src = src && e.2.tag = tag && e.2.ga = ga && e.2.op = op && !e.2.granted) with
  | some e => some (s, e.1, e.2)
  | none =>
    let part := s.agentPart src
    let rt := agentRt src
    if !s.reqFirst src tag ga op then none
    else (s.slotKind v part rt).map (fun k =>
      let r : SliceReq := { src := src, tag := tag, ga := ga, op := op, line := line, kind := k, part := part, rt := rt }
      ((s.recvMsg (.req src tag ga op)).setSlice v { x with slots := smPut x.slots x.next r, next := x.next + 1 }, x.next, r))

/-- The reply of a request, which frees its slot. -/
def State.sliceReply (s : State) (v id : Nat) (r : Reply) : State :=
  let x := s.slice v
  match smFind x.slots id with
  | some q => (s.setSlice v { x with slots := smDel x.slots id }).send (.reply q.src q.tag r)
  | none => s

/-- A request is granted and waits for memory or the host. -/
def State.sliceWait (s : State) (v id : Nat) : State :=
  let x := s.slice v
  match smFind x.slots id with
  | some q => s.setSlice v { x with slots := smPut x.slots id { q with granted := true } }
  | none => s

/-- The lowest enabled regulator of a partition (09 R312). -/
def State.crmReg (s : State) (v : Nat) (part : Option Nat) : Option Nat :=
  part.bind (fun p => (List.range 8).find? (fun j => s.bit VAT_CRM_REG.EN v j && s.fld VAT_CRM_REG.PART v j = p))

/-- The regulator's answer to a normal request of one line (09 R312): skipped and counted while the level is too low. -/
def State.crmRegulate (s : State) (v : Nat) (q : SliceReq) : State × Bool :=
  if q.rt then (s, true)
  else match s.crmReg v q.part with
    | none => (s, true)
    | some j =>
      let l := s.fld VAT_CRM_REG.LEVEL v j
      if l = 0 then (s.bump VAT_CRM_PC_REG_STALL v, false) else (s.setFld VAT_CRM_REG.LEVEL (l - 1) v j, true)

/-- Count a granted access: real-time accesses of every kind in one counter (09 R315). -/
def State.crmCount (s : State) (v : Nat) (rt : Bool) (r : Reg) : State := s.bump (if rt then VAT_CRM_PC_RT else r) v

/-! ### The cache (09 R297, R301, R302) -/

/-- The set of a line (09 R297). -/
def crmSet (line : Nat) : Nat := line % 8192 ^^^ line / 8192 % 8192 ^^^ line / 2 ^ 26 % 8192

/-- The key of the way that holds a line. -/
def SliceSt.find (x : SliceSt) (line : Nat) : Option Nat :=
  let k := crmSet line
  (List.range 16).findSome? (fun w => match smFind x.cache (16 * k + w) with
    | some l => if l.line = line then some (16 * k + w) else none
    | none => none)

/-- The ways that a partition may allocate (09 R301). -/
def State.wayMask (s : State) (v : Nat) (part : Option Nat) : Nat :=
  match part with
  | some p => s.fld VAT_CRM_SHARE.WAY_MASK v p
  | none => 0

/-- Allocate a line under a mask (09 R302); `evict` allows step 3. -/
def SliceSt.alloc (x : SliceSt) (mask : Nat) (l : CrmLine) (evict : Bool) : Option SliceSt :=
  let k := crmSet l.line
  let ways := ((List.range 16).filter (fun w => mask.testBit w)).map (fun w => 16 * k + w)
  match ways.find? (fun i => (smFind x.cache i).isNone) with
  | some i => some { x with cache := smPut x.cache i l }
  | none =>
    match ways.find? (fun i => (smFind x.cache i).any (fun o => !o.ref)) with
    | some i => some { x with cache := smPut x.cache i l }
    | none =>
      match ways, evict with
      | i :: _, true =>
        let c := ways.foldl (fun c i => match smFind c i with
          | some o => smPut c i { o with ref := false }
          | none => c) x.cache
        some { x with cache := smPut c i l }
      | _, _ => none

/-- Invalidate the lines that a test picks, in the ways and the atomic buffer, with their sets' last-write times
(09 R303). -/
def State.crmInvalidate (s : State) (v : Nat) (p : Nat → Bool) (touch : Bool) : State :=
  let x := s.slice v
  let gone := x.cache.filter (fun e => p e.2.line)
  s.setSlice v { x with
    cache := x.cache.filter (fun e => !p e.2.line)
    atomb := x.atomb.filter (fun e => e.locked || !p e.line)
    lastW := if touch then gone.foldl (fun m e => smSet 0 m (e.1 / 16) s.tsc32) x.lastW else x.lastW }

/-- Merge bytes into a line. -/
def mergeLine (m : Mask) (old new : Line) : Line :=
  let f := maskLine m (BitVec.allOnes 512)
  (old &&& ~~~f) ||| (new &&& f)

/-- The atomic buffer's entry of a line. -/
def SliceSt.atom (x : SliceSt) (line : Nat) : Option AtomEnt := x.atomb.find? (fun e => e.line = line)

/-- Put an entry at the most recently used end of the atomic buffer. -/
def SliceSt.atomPut (x : SliceSt) (e : AtomEnt) : SliceSt :=
  { x with atomb := x.atomb.filter (fun o => o.line ≠ e.line) ++ [e] }

/-- Is there room in the atomic buffer: an invalid entry, or one that is not locked (09 R305)? -/
def SliceSt.atomRoom (x : SliceSt) : Option SliceSt :=
  if x.atomb.length < 16 then some x
  else match x.atomb.find? (fun e => !e.locked) with
    | some e => some { x with atomb := x.atomb.erase e }
    | none => none

/-- Write into the copies of a line that the slice holds, and set its set's last-write time (09 R301). -/
def State.crmWrite (s : State) (v line : Nat) (m : Mask) (d : Line) : State :=
  let x := s.slice v
  let x : SliceSt := match x.find line with
    | some i => match smFind x.cache i with
      | some l => { x with cache := smPut x.cache i { l with data := mergeLine m l.data d } }
      | none => x
    | none => x
  let x := { x with atomb := x.atomb.map (fun (e : AtomEnt) => if e.line = line then { e with data := mergeLine m e.data d } else e) }
  s.setSlice v { x with lastW := smSet 0 x.lastW (crmSet line) s.tsc32 }

/-- Hand a request to a memory controller. -/
def State.memSend (s : State) (r : MemReq) : State := { s with memq := s.memq ++ [r] }

/-! ### Errors (09 R313, 12 R383) -/

/-- Combine what the arrays show with an armed injection into slice data or tags. -/
def State.sliceInj (s : State) (v : Nat) (err : HdrErr) : HdrErr × State :=
  if s.bit VAT_ECC_INJ.ARM v ∧ (s.fld VAT_ECC_INJ.TARGET v = 2 ∨ s.fld VAT_ECC_INJ.TARGET v = 3) then
    (if s.fld VAT_ECC_INJ.BITS v = 1 then .corrected else .uncorrectable, s.setFld VAT_ECC_INJ.ARM 0 v)
  else (err, s)

/-- Count and report an error of a slice array: the word it met is a free value (log 3). -/
def State.sliceErr (s : State) (v : Nat) (err : HdrErr) (part : Option Nat) (ga : Dword) (sub : Nat) : State :=
  match err with
  | .ok => s
  | .corrected => s.bumpErr VAT_CRM_ECC.CORR v
  | .uncorrectable =>
    let s1 := s.bumpErr VAT_CRM_ECC.UNCORR v
    s1.drawn.fault { cls := 4, sub := sub, part := part, unit := 2, inst := v, addr := ga, info := Config.freeNat s1.free }

/-- Look a line up in the slice: the data of the atomic buffer or a way, after the array's check. An uncorrectable
error removes the line, which is fetched again (09 R313). -/
def State.crmLook (s : State) (v : Nat) (q : SliceReq) (err : HdrErr) : Option Line × State :=
  let x := s.slice v
  let held : Option Line := match x.atom q.line with
    | some e => some e.data
    | none => (x.find q.line).bind (fun i => (smFind x.cache i).map (fun (l : CrmLine) => l.data))
  match held with
  | none => (none, s)
  | some d =>
    let (err, s) := s.sliceInj v err
    let s := s.sliceErr v err q.part q.ga 0
    if err = .uncorrectable then (none, s.crmInvalidate v (fun l => l = q.line) false)
    else
      let x := s.slice v
      (some d, match x.find q.line with
        | some i => match smFind x.cache i with
          | some l => s.setSlice v { x with cache := smPut x.cache i { l with ref := true } }
          | none => s
        | none => s)

/-! ### Requests -/

/-- A request completes at once with a bus error. -/
def State.reqFail (s : State) (src : Agent) (tag : Nat) (ga : Dword) (op : MemOp) : State :=
  (s.recvMsg (.req src tag ga op)).send (.reply src tag .busError)

/-- The line address and mask of a write; a zero-fill writes the whole line. -/
def writeParts (op : MemOp) : Option (Mask × Line) :=
  match op with
  | .write m d => some (m, d)
  | .zero => some (BitVec.allOnes 64, 0)
  | _ => none

/-- Does another granted request of the slice wait for memory to read this line? -/
def SliceSt.reading (x : SliceSt) (line id : Nat) : Bool :=
  x.slots.any (fun e => e.1 ≠ id && e.2.granted && e.2.line = line && (writeParts e.2.op).isNone)

/-- A read or write of a crock or cellar line is granted (09 R301). -/
def State.cachedAccess (s : State) (v id : Nat) (q : SliceReq) (err : HdrErr) : State :=
  if (s.slice v).reading q.line id then s
  else
    let (s, ok) := s.crmRegulate v q
    if !ok then s
    else match writeParts q.op with
      | some (m, d) =>
        let s := (s.crmCount v q.rt VAT_CRM_PC_WR).crmWrite v q.line m d
        (s.sliceWait v id).memSend { home := v, id := some id, line := q.line, write := some (m, d), part := q.part, rt := q.rt, ga := q.ga }
      | none =>
        match s.crmLook v q err with
        | (some d, s) => (s.crmCount v q.rt VAT_CRM_PC_RD_HIT).sliceReply v id (.data (d >>> (8 * bvBits q.ga 0 6)))
        | (none, s) => ((s.crmCount v q.rt VAT_CRM_PC_RD_MISS).sliceWait v id).memSend
            { home := v, id := some id, line := q.line, write := none, part := q.part, rt := q.rt, ga := q.ga }

/-- The device physical address of byte 0 of core `c`'s store (01 R37). -/
def coreDpa (c off : Nat) : Nat := csBase c + off

/-- Read the bytes of a request from the device's own memory map. -/
def State.readBytes (s : State) (a : Nat) (n : Nat) : Line := BitVec.ofNat 512 (Memory.read s.mem a n)

/-- An error of a core store that an external requester meets (12 R370 `CS_UE`). -/
def State.coreStoreErr (s : State) (c off : Nat) (err : HdrErr) (ga : Dword) (sub : Nat) : State :=
  match err with
  | .ok => s
  | .corrected => s.bumpErr VAT_ECC0.CORR_CS (vatOf c)
  | .uncorrectable => (s.bumpErr VAT_ECC1.UNCORR (vatOf c)).fault
      { cls := 0x0E, sub := sub, part := s.partOf (vatOf c), unit := 1, inst := s.physLoc c, addr := ga, info := off / 4 * 4 }

/-- What an access to a core store from outside meets: an armed injection, or the array's state. -/
def State.coreInj (s : State) (c : Nat) (err : HdrErr) : HdrErr × State :=
  let b := s.injBits c 0
  if b = 0 then (err, s)
  else (if b = 1 then .corrected else .uncorrectable, s.setFld VAT_ECC_INJ.ARM 0 (vatOf c))

/-- An access to a core store through its external port (04 R108, 09 R299). -/
def State.coreAccess (s : State) (v id : Nat) (q : SliceReq) (c off : Nat) (err : HdrErr) : State :=
  let (err, s) := s.coreInj c err
  let narrow := fun (m : Mask) => (List.range 16).any (fun k => bvBits m (4 * k) 4 ≠ 0 && bvBits m (4 * k) 4 ≠ 15)
  match writeParts q.op with
  | some (m, d) =>
    if err = .uncorrectable ∧ narrow m then (s.coreStoreErr c off err q.ga 1).sliceReply v id .busError
    else
      let s := if err = .corrected then s.coreStoreErr c off err q.ga 1 else s
      let a := coreDpa c (off / 64 * 64)
      State.sliceReply { s with mem := Memory.write s.mem a m.toNat d.toNat 64 } v id .done
  | none =>
    let s := s.coreStoreErr c off err q.ga 0
    if err = .uncorrectable then s.sliceReply v id .busError
    else s.sliceReply v id (.data (s.readBytes (coreDpa c off) (64 - off % 64)))

/-- The lowest PCIe tag that is free (16 R502). -/
def State.hostTag (s : State) : Option Nat :=
  if 4096 ≤ s.hostRds.length then none
  else (List.range 4097).find? (fun t => !s.hostRds.any (fun r => r.tag = t))

/-- An access to the host window (01 R39, 16 R505): a write is posted, a read or an atomic waits for its completion. -/
def State.hostAccess (s : State) (v id : Nat) (q : SliceReq) (off : Nat) : State :=
  match writeParts q.op with
  | some (m, d) =>
    match s.hostMap off q.part true with
    | some (h, rid) => ((s.bump HOST_PC_TXWR).send (.hostWr rid (h / 64 * 64) m d)).sliceReply v id .done
    | none => s.sliceReply v id .busError
  | none =>
    let wr := match q.op with | .atomic .. => true | _ => false
    match s.hostMap off q.part wr, s.hostTag with
    | some _, some t => { (s.bump HOST_PC_TXRD).sliceWait v id with
        hostRds := s.hostRds ++ [{ tag := t, home := v, id := id, off := off }] }
    | some _, none => s
    | none, _ => s.sliceReply v id .busError

/-- Does a read or an atomic of the host window wait for a free PCIe tag (16 R502)? -/
def State.hostStuck (s : State) (q : SliceReq) (off : Nat) : Bool :=
  let wr := match q.op with | .atomic .. => true | _ => false
  (writeParts q.op).isNone && (s.hostMap off q.part wr).isSome && s.hostTag.isNone

/-- A request to a class that is not cached passes the regulators, and counts where it is real-time (09 R312, R315). -/
def State.uncached (s : State) (v : Nat) (q : SliceReq) (act : State → State) : State :=
  let (s, ok) := s.crmRegulate v q
  if !ok then s else act (if q.rt then s.bump VAT_CRM_PC_RT v else s)

/-- Route a request to its home slice (09 R299): it fails where no place or no usable slice serves it; a request to
another device is not served here. -/
def State.atHome (s : State) (src : Agent) (tag : Nat) (ga : Dword) (op : MemOp)
    (serve : Nat → Nat → Place → State → State) : State :=
  match s.target ga with
  | .away _ => s
  | .bad => s.reqFail src tag ga op
  | .here a =>
    if s.fatal ∧ agentOutside src then s.reqFail src tag ga op
    else match s.place a with
      | .none => s.reqFail src tag ga op
      | .reg _ => s
      | p => match s.homeOf p a with
        | some v => serve v a p s
        | none => match homeList p a with
          | w :: _ => (s.bumpErr VAT_CRM_ERR.HOME_ERR w).reqFail src tag ga op
          | [] => s.reqFail src tag ga op

/-- Is an operation one that slices serve as a read or a write? -/
def plainOp (op : MemOp) : Bool :=
  match op with
  | .read _ | .write .. | .zero => true
  | _ => false

/-- `SLICE_REQUEST` (09 R299 to R301, R308 to R313). -/
def execSliceRequest (src : Agent) (tag : Nat) (ga : Dword) (op : MemOp) (err : HdrErr) (s : State) :
    Host.Outcome State Fault Refusal :=
  .next (if !plainOp op then s
    else s.atHome src tag ga op (fun v a p s =>
      match p with
      | .scratch .. => s
      | _ =>
        match s.sliceArrive v src tag ga op (a / 64) with
        | none => s
        | some (s, id, q) =>
          match p with
          | .core c off => s.uncached v q (fun s => s.coreAccess v id q c off err)
          | .host off => if s.hostStuck q off then s else s.uncached v q (fun s => s.hostAccess v id q off)
          | _ => s.cachedAccess v id q err))

/-- The size of a slice's scratchpad (03 R85). -/
def State.scrSize (s : State) (n : Nat) : Nat := (16 - s.fld VAT_CRM_CFG.CACHE_WAYS n) * 2 ^ 19

/-- May a requester reach a scratchpad offset (01 R36, 09 R298)? none where it may, else whether `SCR_DENY` counts. -/
def State.scrCheck (s : State) (src : Agent) (n off : Nat) : Option Bool :=
  let owner := s.fld VAT_CRM_CFG.SCR_PART n
  let exempt : Bool := match src with
    | .mgmt | .host => true
    | _ => false
  if s.scrSize n ≤ off then some false
  else if exempt then none
  else if owner = 255 ∨ s.agentPart src ≠ some owner then some true
  else none

/-- `SCRATCHPAD_ACCESS` (09 R298, R313). -/
def execScratchpadAccess (src : Agent) (tag : Nat) (ga : Dword) (op : MemOp) (err : HdrErr) (s : State) :
    Host.Outcome State Fault Refusal :=
  .next (if !plainOp op then s
    else s.atHome src tag ga op (fun v a p s =>
      match p with
      | .scratch n off =>
        (match s.sliceArrive v src tag ga op (a / 64) with
        | none => s
        | some (s, id, q) =>
          match s.scrCheck src n off with
          | some deny => (if deny then s.bumpErr VAT_CRM_ERR.SCR_DENY v else s).sliceReply v id .busError
          | none =>
            let (s, ok) := s.crmRegulate v q
            if !ok then s
            else
              let s := s.crmCount v q.rt VAT_CRM_PC_SCR
              let (err, s) := s.sliceInj v err
              match writeParts op with
              | some (m, d) =>
                let part := m ≠ BitVec.allOnes 64
                let s := s.sliceErr v (if part then err else .ok) q.part ga 1
                if err = .uncorrectable ∧ part then s.sliceReply v id .busError
                else State.sliceReply { s with mem := Memory.write s.mem (a / 64 * 64) m.toNat d.toNat 64 } v id .done
              | none =>
                let s := s.sliceErr v err q.part ga 0
                if err = .uncorrectable then s.sliceReply v id .busError
                else s.sliceReply v id (.data (s.readBytes a (64 - a % 64))))
      | _ => s))

/-! ### Atomics (09 R305, R306) -/

/-- The new value of an atomic (04 R115). -/
def amoResult (fn : Nat) (old x expected : Word) : Word :=
  match fn with
  | 0 => old + x
  | 1 => old &&& x
  | 2 => old ||| x
  | 3 => old ^^^ x
  | 4 => x
  | 5 => if old.slt x then old else x
  | 6 => if old.slt x then x else old
  | 7 => if old.toNat < x.toNat then old else x
  | 8 => if old.toNat < x.toNat then x else old
  | _ => if old = expected then x else old

/-- The word of a line that an address names, and the line with a new value there. -/
def lineWord (d : Line) (ga : Dword) : Word := BitVec.ofNat 32 (takeAt d (bvBits ga 2 4 * 4) 4)

/-- Step 2 of an atomic on a line of the atomic buffer: its new value, the write-through, the reply. -/
def State.atomApply (s : State) (v id : Nat) (q : SliceReq) (d : Line) : State :=
  match q.op with
  | .atomic fn x e =>
    let old := lineWord d q.ga
    let o := bvBits q.ga 2 4 * 4
    let m := byteMask o 4
    let new := mergeLine m d (placeAt o (amoResult fn old x e).toNat)
    let y := s.slice v
    let s := s.setSlice v (y.atomPut ⟨q.line, new, false⟩)
    let s := s.crmWrite v q.line (BitVec.allOnes 64) new
    let y := s.slice v
    let mask := s.wayMask v q.part
    let s := if mask = 0 ∨ (y.find q.line).isSome then s
      else match y.alloc mask ⟨q.line, new, true⟩ true with
        | some y => s.setSlice v y
        | none => s
    (s.memSend { home := v, id := none, line := q.line, write := some (BitVec.allOnes 64, new), part := q.part, rt := q.rt, ga := q.ga }).sliceReply
      v id (.word (old.setWidth 64))
  | _ => s

/-- Does an atomic wait in its slot: for an entry of the atomic buffer (09 R305), or for a PCIe tag? -/
def State.atomStuck (s : State) (v : Nat) (q : SliceReq) (p : Place) : Bool :=
  match p with
  | .host off => (s.slice v).atomRoom.isNone || s.hostStuck q off
  | .crock .. => ((s.slice v).atom q.line).isNone && (s.slice v).atomRoom.isNone
  | .cellar .. => ((s.slice v).atom q.line).isNone && (s.slice v).atomRoom.isNone
  | _ => false

/-- `ATOMIC_REQUEST` (09 R305 to R307): an atomic on a crock or cellar line that the slice holds is applied; one that
it does not hold waits for the line, its entry locked. -/
def execAtomicRequest (src : Agent) (tag : Nat) (ga : Dword) (fn : Fin 10) (operand expected : Word) (err : HdrErr)
    (s : State) : Host.Outcome State Fault Refusal :=
  let op := MemOp.atomic fn.val operand expected
  .next (match s.target ga with
    | .here a =>
      (match s.place a with
      | .reg _ => s.reqFail src tag ga op
      | _ => s.atHome src tag ga op (fun v a p s =>
        match s.sliceArrive v src tag ga op (a / 64) with
        | none => s
        | some (s, id, q) =>
          let word := fun (s : State) =>
            let old := BitVec.ofNat 32 (Memory.read s.mem a 4)
            let new := amoResult fn.val old operand expected
            State.sliceReply { s with mem := Memory.write s.mem a 15 new.toNat 4 } v id (.word (old.setWidth 64))
          if (s.slice v).reading q.line id ∨ s.atomStuck v q p then s
          else
            let (s, ok) := s.crmRegulate v q
            if !ok then s
            else
              let s := s.crmCount v q.rt VAT_CRM_PC_ATOM
              match p with
              | .scratch n off =>
                (match s.scrCheck src n off with
                | some deny => (if deny then s.bumpErr VAT_CRM_ERR.SCR_DENY v else s).sliceReply v id .busError
                | none =>
                  let (err, s) := s.sliceInj v err
                  let s := s.sliceErr v err q.part ga 1
                  if err = .uncorrectable then s.sliceReply v id .busError else word s)
              | .core c off =>
                let (err, s) := s.coreInj c err
                let s := s.coreStoreErr c off err ga 1
                if err = .uncorrectable then s.sliceReply v id .busError else word s
              | .host off =>
                (match (s.slice v).atomRoom with
                | none => s
                | some x => State.hostAccess (s.setSlice v (x.atomPut ⟨q.line, 0, true⟩)) v id q off)
              | _ =>
                match s.crmLook v q err with
                | (some d, s) =>
                  (match (s.slice v).atom q.line with
                  | some _ => s.atomApply v id q d
                  | none => match (s.slice v).atomRoom with
                    | some x => (s.setSlice v x).atomApply v id q d
                    | none => s)
                | (none, s) => match (s.slice v).atomRoom with
                  | none => s
                  | some x => ((s.setSlice v (x.atomPut ⟨q.line, 0, true⟩)).sliceWait v id).memSend
                      { home := v, id := some id, line := q.line, write := none, part := q.part, rt := q.rt, ga := q.ga }))
    | .bad => s.reqFail src tag ga op
    | .away _ => s)

/-- Release a locked entry of the atomic buffer. -/
def State.atomDrop (s : State) (v line : Nat) : State :=
  let x := s.slice v
  s.setSlice v { x with atomb := x.atomb.filter (fun e => e.line ≠ line) }

/-- `SLICE_FILL` (09 R301, R302, R305, R313): a line or an error returns from memory to the slot that waits for it. -/
def execSliceFill (v : VatId) (id : Nat) (res : Option Line) (s : State) : Host.Outcome State Fault Refusal :=
  .next (match smFind (s.slice v).slots id with
    | none => s
    | some q =>
      if !q.granted ∨ (writeParts q.op).isSome then s
      else
        let s := s.recvMsg (.fill v id res)
        let atomic : Bool := match q.op with | .atomic .. => true | _ => false
        match res with
        | none => (if atomic then s.atomDrop v q.line else s).sliceReply v id .busError
        | some d =>
          if atomic then s.atomApply v id q d
          else
            let x := s.slice v
            let mask := s.wayMask v q.part
            let s := if mask = 0 ∨ (x.find q.line).isSome then s
              else match x.alloc mask ⟨q.line, d, true⟩ true with
                | some x => s.setSlice v x
                | none => s
            s.sliceReply v id (.data (d >>> (8 * bvBits q.ga 0 6))))

/-! ### Victims (09 R304) -/

/-- Is a victim offer declined by a slice (09 R304)? -/
def State.victimDeclined (s : State) (v line : Nat) (part : Option Nat) (r : Nat) : Bool :=
  let x := s.slice v
  let mask := s.wayMask v part
  let set := crmSet line
  let dr := (s.tsc32 + 2 ^ 32 - r) % 2 ^ 32
  let dw := (s.tsc32 + 2 ^ 32 - smGet 0 x.lastW set) % 2 ^ 32
  !s.bit VAT_CRM_CTL.VICTIM_EN v || (x.find line).isSome || (x.atom line).isSome || mask = 0
    || (x.alloc mask ⟨line, 0, false⟩ false).isNone || 100000 < dr || dw ≤ dr + 5 || (s.slotKind v part false).isNone

/-- `VICTIM_OFFER` (09 R304, 04 R137). -/
def execVictimOffer (c : CoreId) (ga : Dword) (data : Line) (rtime : Nat) (s : State) : Host.Outcome State Fault Refusal :=
  let s := s.recvMsg (.victim c ga data rtime)
  let decl := fun (s : State) => s.bump VAT_CORE_PC_DECLINE (vatOf c) (idxOf c)
  let offer := fun (a : Nat) (p : Place) =>
    match s.homeOf p a with
    | none => decl s
    | some v =>
      let part := s.partOf (vatOf c)
      if s.victimDeclined v (a / 64) part rtime then (decl s).bump VAT_CRM_PC_VICT_DECL v
      else match (s.slice v).alloc (s.wayMask v part) ⟨a / 64, data, false⟩ false with
        | some x => (s.setSlice v x).bump VAT_CRM_PC_VICT_ACC v
        | none => s
  .next (match s.target ga with
    | .here a =>
      match s.place a with
      | .crock ch l => offer a (.crock ch l)
      | .cellar p o => offer a (.cellar p o)
      | .none => decl s
      | .reg _ => decl s
      | p => match s.homeOf p a with
        | some v => (decl s).bump VAT_CRM_PC_VICT_DECL v
        | none => decl s
    | _ => decl s)

/-! ### Regulators (09 R312) -/

/-- `CREAM_REGULATOR_TICK` (09 R312): the level rises by `RATE` up to `BURST`. -/
def execCreamRegulatorTick (v : VatId) (j : Fin 8) (s : State) : Host.Outcome State Fault Refusal :=
  .next (if s.bit VAT_CRM_REG.EN v j then
      s.setFld VAT_CRM_REG.LEVEL (min (s.fld VAT_CRM_REG.LEVEL v j + s.fld VAT_CRM_REG.RATE v j) (s.fld VAT_CRM_REG.BURST v j)) v j
    else s)

/-- `CREAM_REGULATOR_WRITE` (09 R312, R314): setting `EN` sets the level to `BURST`. -/
def execCreamRegulatorWrite (v : VatId) (j : Fin 8) (data : Dword) (s : State) : Host.Outcome State Fault Refusal :=
  let was := s.bit VAT_CRM_REG.EN v j
  let t := s.putFields [VAT_CRM_REG.PART, VAT_CRM_REG.EN, VAT_CRM_REG.RATE, VAT_CRM_REG.BURST] data v j
  .next (if !was ∧ t.bit VAT_CRM_REG.EN v j then t.setFld VAT_CRM_REG.LEVEL (t.fld VAT_CRM_REG.BURST v j) v j else t)

end Sys2Proof.Machine
end

