-- ==== Sys2Proof/Machine/Generator.lean ====
section
/-! DEFINITION. The traffic generators of the crock and the cellar: patterns and the line operations of each mode
(10 R338, 11 R365). -/

namespace Sys2Proof.Machine

open Sys2Proof

/-- A line's bytes made of 8-byte words. -/
def wordsNat (n : Nat) (f : Nat → Nat) : Nat :=
  (List.range n).foldl (fun a w => a + f w % 2 ^ 64 * 2 ^ (64 * w)) 0

/-- The pattern of a line: number `idx` in the stream, `bytes` wide (10 R338 `PAT`). -/
def TgRun.pattern (r : TgRun) (line idx bytes : Nat) : Nat :=
  match r.pat with
  | 0 => Config.prbsLine (if r.seed % 2 ^ 31 = 0 then 1 else r.seed % 2 ^ 31) bytes idx % 2 ^ (8 * bytes)
  | 1 => wordsNat (bytes / 8) (fun w => line * 64 + 8 * w)
  | 2 => wordsNat (bytes / 8) (fun _ => r.seed)
  | _ => wordsNat (bytes / 8) (fun w => 2 ^ ((line + w) % 64))

/-- One visit of a line: what a read compares with, what is written, or a decode alone (mode 6). -/
structure TgVisit where
  line : Nat
  read : Option Nat := none
  write : Option Nat := none
  scrub : Bool := false
  deriving DecidableEq, Repr

/-- The number of visits of a run. -/
def TgRun.total (r : TgRun) : Nat :=
  match r.mode with
  | 3 => 2 * r.len
  | 5 => 4 * r.len
  | _ => r.len

/-- Visit `i` of a run (10 R338 `MODE`). -/
def TgRun.visit (r : TgRun) (i bytes : Nat) : TgVisit :=
  let j := i % r.len
  let up := r.base + j
  let pat := fun (k : Nat) => r.pattern (r.base + k) k bytes
  let inv := fun (k : Nat) => 2 ^ (8 * bytes) - 1 - pat k
  let d := r.len - 1 - j
  match r.mode with
  | 1 => { line := up, write := some (pat j) }
  | 2 => { line := up, read := some (pat j) }
  | 3 => if i < r.len then { line := up, write := some (pat j) } else { line := up, read := some (pat j) }
  | 4 =>
    let line := r.base + Config.prbsAddr (r.seed % 2 ^ 31) i % r.len
    { line := line, read := some (r.pattern line i bytes) }
  | 5 =>
    (match i / r.len with
    | 0 => { line := up, write := some (pat j) }
    | 1 => { line := up, read := some (pat j), write := some (inv j) }
    | 2 => { line := r.base + d, read := some (inv d), write := some (pat d) }
    | _ => { line := r.base + d, read := some (pat d) })
  | _ => { line := up, scrub := true }

/-- The lines or reads that `done` visits complete: a line is complete with its last visit. -/
def TgRun.completed (r : TgRun) (done : Nat) : Nat := done + r.len - r.total

/-- The symbol errors that an environment gives for a visit. -/
def tgErrs {α : Type} (errs : List (Nat × List α)) (i : Nat) : List α :=
  match errs.find? (fun e => e.1 = i) with
  | some e => e.2
  | none => []

/-- What an array holds in a line: what the generator wrote, or what was there. -/
def TgSt.raw (t : TgSt) (key bytes : Nat) : Nat :=
  match smFind t.mem key with
  | some d => d
  | none => Config.arrayLine t.epoch key % 2 ^ (8 * bytes)

end Sys2Proof.Machine
end

