-- ==== Sys2Proof/Machine/Journal.lean ====
section
/-! DEFINITION. The defect journal (19 R573, R583, R584). -/

namespace Sys2Proof.Machine

open Sys2Proof

/-- Put an item into a list that rises by its first number. -/
def insertBy {α : Type} (e : Nat × α) : List (Nat × α) → List (Nat × α)
  | [] => [e]
  | x :: xs => if e.1 < x.1 then e :: x :: xs else x :: insertBy e xs

/-- The entries of the journal, oldest first, by their `SEQ`: slot and `KIND` (19 R583). -/
def State.jrnlEntries (s : State) : List (Nat × Nat × Nat) :=
  let lo := MC_JRNL.addr
  s.regs.foldl (fun l e =>
    if lo ≤ e.1 ∧ e.1 < lo + 0x10000 ∧ e.1 % 16 = 0 ∧ bvBits e.2 0 4 ≠ 0 then
      insertBy (bvBits e.2 32 32, (e.1 - lo) / 16, bvBits e.2 0 4) l
    else l) []

/-- The slots and payloads of the journal's entries of a kind, oldest first. -/
def State.jrnlKind (s : State) (kind : Nat) : List (Nat × Nat) :=
  (s.jrnlEntries.filter (fun e => e.2.2 = kind)).map (fun e => (e.2.1, (s.reg MC_JRNL e.2.1 1).toNat))

/-- The payloads of the journal's entries of a kind, oldest first. -/
def State.journalOf (s : State) (kind : Nat) : List Nat := (s.jrnlKind kind).map Prod.snd

/-- The slot that the next entry takes: the one after the entries, else the first that is empty. -/
def State.jrnlSlot (s : State) : Nat :=
  let es := s.jrnlEntries
  let n := es.length
  if es.any (fun e => e.2.1 = n) then ((List.range n).find? (fun i => !es.any (fun e => e.2.1 = i))).getD n else n

/-- The `SEQ` of the next entry: one more than the highest; the first entry has 0. -/
def State.jrnlSeq (s : State) : Nat :=
  match s.jrnlEntries.getLast? with
  | some e => e.1 + 1
  | none => 0

/-- Append an entry to the defect journal (19 R583); a full journal is reported (19 R584). -/
def State.journal (s : State) (kind payload : Nat) : State :=
  let n := s.fld MC_JRNL_STAT.USED
  if 4096 ≤ n then
    (s.setFld MC_BOOT_STAT.JFULL 1).fault { cls := 0x5C, unit := 9, info := 0xFFFFFFFF }
  else
    let i := s.jrnlSlot
    let w0 := kind % 16 + s.jrnlSeq * 2 ^ 32
    let w1 := payload + s.fld MC_BOOT_STAT.START_CNT % 65536 * (if kind = 3 then 2 ^ 48 else 2 ^ 32)
    let s := (s.setReg MC_JRNL (BitVec.ofNat 64 w0) i 0).setReg MC_JRNL (BitVec.ofNat 64 w1) i 1
    (s.setFld MC_JRNL_STAT.USED (n + 1)).setFld MC_JRNL_STAT.ADDED (s.fld MC_JRNL_STAT.ADDED + 1)

/-- A slot is treated as empty (19 R575). -/
def State.jrnlDrop (s : State) (i : Nat) : State :=
  if s.jrnlEntries.any (fun e => e.2.1 = i) then
    ((s.setReg MC_JRNL 0 i 0).setReg MC_JRNL 0 i 1).setFld MC_JRNL_STAT.USED (s.fld MC_JRNL_STAT.USED - 1)
  else s

end Sys2Proof.Machine
end

