-- ==== Sys2Proof/Machine/Crock.lean ====
section
/-! DEFINITION. The crock channels: reads and writes, decoding and its logs, valid bits, scrubbing, refresh, temperature,
self-refresh, `TEST` state and the traffic generator (10 R316 to R343, 12 R370 to R381). -/

namespace Sys2Proof.Machine

open Sys2Proof

/-- A channel. -/
def State.crk (s : State) (ch : Nat) : CrkCh := smGet {} s.crks ch

/-- Replace a channel, and show its poison list and `UNREP` rows (12 R381). -/
def State.setCrk (s : State) (ch : Nat) (x : CrkCh) : State :=
  (State.setFld { s with crks := smSet {} s.crks ch x } CRK_CH_ECCSTAT.POISON x.poison.length (ch / 16) (ch % 16)).setFld
    CRK_CH_ECCSTAT.UNREP_ROWS x.unrep.length (ch / 16) (ch % 16)

/-- The state of a channel (10 R331). -/
def State.crkState (s : State) (ch : Nat) : Nat := s.fld CRK_CH_STAT.STATE (ch / 16) (ch % 16)

/-- Move a channel to a state. -/
def State.setCrkState (s : State) (ch n : Nat) : State := s.setFld CRK_CH_STAT.STATE n (ch / 16) (ch % 16)

/-- The line of the crock range that a channel-local line holds (10 R321 read backwards). -/
def State.crockDpa (s : State) (ch line : Nat) : Option Nat :=
  s.img.crock.findSome? (fun r =>
    let set := s.chanSet r
    match set.findIdx? (fun c => c = ch) with
    | none => none
    | some i =>
      ((List.range 128).map (fun t => i + set.length * (line / 8 + 262144 * t))).findSome? (fun g =>
        if r.base * 65536 ≤ g ∧ g < (r.base + r.size) * 65536 then some (g * 8 + line % 8) else none))

/-! ### Valid bits (10 R319, 12 R375) -/

/-- The valid bit of a line of the crock range. -/
def State.validBit (s : State) (line : Nat) : Bool := (smGet 0 s.valid (line / 512)).getLsbD (line % 512)

/-- Set the valid bit of a line. -/
def State.setValid (s : State) (line : Nat) : State :=
  { s with valid := smSet 0 s.valid (line / 512) (smGet 0 s.valid (line / 512) ||| ((1 : Line) <<< (line % 512))) }

/-- The channel-local line that holds the valid bit of a channel-local line. -/
def shareLine (line : Nat) : Nat := 0x7FC0000 / 64 + line / 512

/-- Zeroise units of the crock range: their valid bits are cleared, their lines leave the slices, and the share lines
they cover leave the poison lists (12 R375, 09 R303). -/
def State.zeroCrock (s : State) (base size : Nat) : State :=
  let lo := base * 2 ^ 19
  let hi := (base + size) * 2 ^ 19
  let hit := fun (ch idx : Nat) => (List.range 64).any (fun g =>
    match s.crockDpa ch (512 * idx + 8 * g) with
    | some l => decide (lo ≤ l ∧ l < hi)
    | none => false)
  let s := (List.range 128).foldl (fun (s : State) ch =>
    let x := s.crk ch
    if x.poison = [] then s else s.setCrk ch { x with poison := x.poison.filter (fun p => !hit ch p) }) s
  let s : State := { s with valid := s.valid.filter (fun e => e.1 * 512 < lo || hi ≤ e.1 * 512) }
  (List.range 64).foldl (fun s v => s.crmInvalidate v (fun l => lo ≤ l && l < hi) true) s

/-! ### Decoding (12 R371, R372, R380) -/

/-- The symbols of a layer. -/
def layerSyms (j : Nat) : BitVec 20 := (0xF : BitVec 20) <<< (4 * j)

/-- The layers that hold a symbol of a mask. -/
def symLayers (m : BitVec 20) : Nat :=
  (List.range 5).foldl (fun a j => if m &&& layerSyms j = 0 then a else a + 2 ^ j) 0

/-- The number of symbols of a mask. -/
def symCount (m : BitVec 20) : Nat := (List.range 20).foldl (fun a k => if m.getLsbD k then a + 1 else a) 0

/-- Write the next entry of a channel's log (12 R381); the answer is `LOGA`[31:0]. -/
def State.crkLog (s : State) (ch line kind layers : Nat) (syms : BitVec 20) (cw : Nat) : State × Nat :=
  let k := ch / 16
  let j := ch % 16
  let i := s.fld CRK_CH_ECCSTAT.LOG_NEXT k j
  let a := line % 2 ^ 21 + kind * 2 ^ 21 + layers * 2 ^ 24
  let s := s.setReg CRK_CH_LOGA (BitVec.ofNat 64 (a + s.tsc32 * 2 ^ 32)) k j i
  let s := s.setReg CRK_CH_LOGB (BitVec.ofNat 64 (syms.toNat + cw * 2 ^ 20)) k j i
  (s.setFld CRK_CH_ECCSTAT.LOG_NEXT ((i + 1) % 8) k j, a)

/-- A line corrected within one layer: enough of them within one 1 ms period make the layer dead (12 R372). -/
def State.crkCountLayer (s : State) (ch layer : Nat) : State :=
  let k := ch / 16
  let j := ch % 16
  let x := s.crk ch
  let p := (s.reg MC_TSC).toNat / 100000
  let c := (if x.period = p then x.counts else [])
  let n := smGet 0 c layer + 1
  let s := s.setCrk ch { x with period := p, counts := smSet 0 c layer n }
  let lim := max 1 (s.fld CRK_CH_ECCCFG.DEAD_LIM k j)
  if n < lim ∨ s.fld CRK_CH_ECCSTAT.DEAD_LAYER k j ≠ 7 then s
  else
    let s := ((s.setFld CRK_CH_ECCSTAT.DEAD_LAYER layer k j).fault { cls := 2, unit := 4, inst := ch, info := layer }).dicLatch (195 + k)
    s.journal 2 (k + j * 8 + layer * 128)

/-- The layers that are marked for a line (12 R371). -/
def State.crkMarks (s : State) (ch line : Nat) (inj : Option Nat) : List Nat :=
  let x := s.crk ch
  let dead := s.fld CRK_CH_ECCSTAT.DEAD_LAYER (ch / 16) (ch % 16)
  (List.range 5).filter (fun l => dead = l || inj = some l
    || x.unrep.any (fun u => u.1 = l && u.2.1 = line / 16 % 64 && u.2.2 = line / 1024 % 2048))

/-- What a decode answers: the line's data as stored, wrong data that nothing detects in some codewords, or nothing. -/
inductive CrkDec where
  | good
  | wrong (cws : BitVec 4)
  | bad
  deriving DecidableEq, Repr

/-- The first codeword with a symbol in a mask. -/
def firstCw (es : List (BitVec 20)) : Nat × BitVec 20 :=
  match ([0, 1, 2, 3].find? (fun c => es.getD c 0 ≠ 0)) with
  | some c => (c, es.getD c 0)
  | none => (0, 0)

/-- Decode one line of a channel whose array shows the symbol errors `errs`: the injection, the marks, the counters and
the log (12 R371, R372, R381). `kind` is the log's kind of an uncorrectable line; the answer also holds its
`LOGA`[31:0]. -/
def State.crkDecode (s : State) (ch line : Nat) (errs : List (BitVec 20)) (kind : Nat) : State × CrkDec × Nat :=
  let k := ch / 16
  let j := ch % 16
  let arm := s.bit CRK_CH_INJ.ARM k j
  let es := [0, 1, 2, 3].map (fun c => errs.getD c 0 |||
    (if arm ∧ s.fld CRK_CH_INJ.CW k j = c then BitVec.ofNat 20 (s.fld CRK_CH_INJ.SYM k j) else 0))
  let inj := if arm ∧ s.bit CRK_CH_INJ.ERASE k j then some (s.fld CRK_CH_INJ.LAYER k j) else none
  let marks := s.crkMarks ch line inj
  let s := if arm then s.setFld CRK_CH_INJ.ARM 0 k j else s
  let all := es.foldl (fun a e => a ||| e) 0
  let (cw, syms) := firstCw es
  let uncorr := fun (s : State) =>
    let s := s.bumpErr CRK_CH_ECC1.UNCORR k j
    let (s, a) := s.crkLog ch line kind (symLayers all ||| marks.foldl (fun a l => a ||| 2 ^ l) 0) syms cw
    (s, CrkDec.bad, a)
  match marks with
  | [] =>
    if es.any (fun e => 2 < symCount e) then uncorr s
    else if all = 0 then (s, .good, 0)
    else
      let s := s.bumpErr CRK_CH_ECC0.CORR k j
      let (s, a) := s.crkLog ch line 0 (symLayers all) syms cw
      let s := match (List.range 5).find? (fun l => all &&& ~~~layerSyms l = 0) with
        | some l => s.crkCountLayer ch l
        | none => s
      (s, .good, a)
  | [l] =>
    let s := s.bumpErr CRK_CH_ECC0.ERASE k j
    let (cw, syms) := firstCw (es.map (fun e => e &&& layerSyms l))
    let (s, a) := s.crkLog ch line 1 (2 ^ l) syms cw
    let out := (List.range 4).foldl (fun (m : BitVec 4) c => if es.getD c 0 &&& ~~~layerSyms l = 0 then m else m ||| (1 <<< c)) 0
    (s, if out = 0 then .good else .wrong out, a)
  | _ => uncorr s

/-- Report an uncorrectable line by one record, not repeated for the address of the last one (12 R380). -/
def State.crkUe (s : State) (ch dpa sub : Nat) (part : Option Nat) (info : Nat) : State :=
  let x := s.crk ch
  if x.lastUe = some dpa then s
  else (s.setCrk ch { x with lastUe := some dpa }).fault
    { cls := 1, sub := sub, part := part, unit := 4, inst := ch, addr := BitVec.ofNat 64 dpa, info := info }

/-- The data that a decode returns: wrong codewords are free values (log 3). -/
def State.crkData (s : State) (d : CrkDec) (true_ : Line) : State × Line :=
  match d with
  | .wrong m =>
    let f := (List.range 4).foldl (fun (a : Line) c => if m.getLsbD c then a ||| ((BitVec.ofNat 512 (2 ^ 128 - 1)) <<< (128 * c)) else a) 0
    (s.drawn, (true_ &&& ~~~f) ||| (Config.freeLine s.free &&& f))
  | _ => (s, true_)

/-- An uncorrectable share line: the poison list, or `FAILED` when it is full (12 R375). -/
def State.crkPoison (s : State) (ch idx : Nat) (part : Option Nat) : State :=
  let x := s.crk ch
  if x.poison.contains idx then s
  else if 16 ≤ x.poison.length then (s.setFld CRK_CH_ECCSTAT.FAILED 1 (ch / 16) (ch % 16)).dicLatch (195 + ch / 16)
  else (s.setCrk ch { x with poison := x.poison ++ [idx] }).fault
    { cls := 0x0B, part := part, unit := 4, inst := ch, info := idx }

/-! ### Requests (10 R324 to R326, 12 R374, R375) -/

/-- The oldest request in the controller of a channel to a line. -/
def State.crkHead (s : State) (ch line : Nat) : Option MemReq :=
  s.memq.find? (fun r => match s.crockPlace (r.line * 64) with
    | some (c, l) => c = ch && l / 64 = line
    | none => false)

/-- Is a request queued at a channel? -/
def State.crkBusy (s : State) (ch : Nat) : Bool :=
  s.memq.any (fun r => match s.crockPlace (r.line * 64) with
    | some (c, _) => c = ch
    | none => false)

/-- A request meets its channel: a channel in `SR_VAT_OFF` wakes, one that serves takes the request. -/
def State.crkServe (s : State) (ch line : Nat) (write : Bool) (serve : MemReq → State → State) : State :=
  match s.crkHead ch line with
  | none => s
  | some r =>
    if r.write.isSome ≠ write then s
    else match s.crkState ch with
      | 0 => serve r { s with memq := s.memq.erase r }
      | 2 => s.setCrkState ch 3
      | _ => s

/-- The share line of a request, read from the array when `share` is present: is the request refused? -/
def State.crkShare (s : State) (ch line : Nat) (share : Option (List (BitVec 20))) (part : Option Nat) : State × Bool :=
  let idx := line / 512
  if s.bit CRK_CH_ECCSTAT.FAILED (ch / 16) (ch % 16) ∨ (s.crk ch).poison.contains idx then (s, true)
  else match share with
    | none => (s, false)
    | some e =>
      let (s, d, _) := s.crkDecode ch (shareLine line) e 4
      if d = .bad then (s.crkPoison ch idx part, true) else (s, false)

/-- A write completes: its slot is answered, a write-through has none. -/
def State.memAck (s : State) (r : MemReq) (ok : Bool) : State :=
  match r.id with
  | some id => s.sliceReply r.home id (if ok then .done else .busError)
  | none => s

/-- `CROCK_READ` (10 R324, R333, 12 R371, R375, R379, R380). -/
def execCrockRead (ch : ChanId) (line : BitVec 21) (errs : List (BitVec 20)) (share : Option (List (BitVec 20)))
    (acts : Nat) (s : State) : Host.Outcome State Fault Refusal :=
  .next (s.crkServe ch line.toNat false (fun r s =>
    let fill := fun (s : State) (d : Option Line) => match r.id with
      | some id => s.send (.fill r.home id d)
      | none => s
    let (s, refused) := s.crkShare ch line.toNat share r.part
    if refused then fill s none
    else if !s.validBit r.line then fill s (some 0)
    else
      let s := (s.bump CRK_CH_PC_RD (ch.val / 16) (ch.val % 16)).bumpN CRK_CH_PC_ACT acts (ch.val / 16) (ch.val % 16)
      let (s, d, info) := s.crkDecode ch line.toNat errs 2
      if d = .bad then fill (s.crkUe ch (r.line * 64) 0 r.part info) none
      else
        let (s, data) := s.crkData d (s.readBytes (r.line * 64) 64)
        fill s (some data)))

/-- Does a mask cover part of a 16-byte codeword? -/
def narrowMask (m : Mask) : Bool :=
  (List.range 4).any (fun c => bvBits m (16 * c) 16 ≠ 0 && bvBits m (16 * c) 16 ≠ 0xFFFF)

/-- The codewords that a mask touches, as bytes. -/
def touchedBytes (m : Mask) : Mask :=
  (List.range 4).foldl (fun (a : Mask) c => if bvBits m (16 * c) 16 = 0 then a else a ||| byteMask (16 * c) 16) 0

/-- `CROCK_WRITE` (10 R325, 12 R374, R375). -/
def execCrockWrite (ch : ChanId) (line : BitVec 21) (errs : List (BitVec 20)) (share : Option (List (BitVec 20)))
    (acts : Nat) (s : State) : Host.Outcome State Fault Refusal :=
  .next (s.crkServe ch line.toNat true (fun r s =>
    match r.write with
    | none => s
    | some (m, d) =>
      let k := ch.val / 16
      let j := ch.val % 16
      let (s, refused) := s.crkShare ch line.toNat share r.part
      if refused then s.memAck r false
      else
        let s := ((s.bump CRK_CH_PC_WR k j).bumpN CRK_CH_PC_ACT acts k j).when (narrowMask m) (fun s => s.bump CRK_CH_PC_RMW k j)
        let put := fun (s : State) (m : Mask) (d : Line) =>
          { s with mem := Memory.write s.mem (r.line * 64) m.toNat d.toNat 64 }
        if !s.validBit r.line then
          ((put s (BitVec.allOnes 64) (mergeLine m 0 d)).setValid r.line).memAck r true
        else if narrowMask m then
          let (s, dec, info) := s.crkDecode ch line.toNat errs 2
          if dec = .bad then
            let s := s.bumpErr CRK_CH_ECC1.RMW_FAIL k j
            let s := (s.crkLog ch line.toNat 3 0 0 0).1
            (s.crkUe ch (r.line * 64) 1 r.part info).memAck r false
          else
            let (s, old) := s.crkData dec (s.readBytes (r.line * 64) 64)
            (put s (touchedBytes m) (mergeLine m old d)).memAck r true
        else (put s m d).memAck r true))

/-! ### Refresh, temperature and self-refresh (10 R328 to R333) -/

/-- `CROCK_REFRESH` (10 R329): not in self-refresh. -/
def execCrockRefresh (ch : ChanId) (s : State) : Host.Outcome State Fault Refusal :=
  .next (if s.crkState ch = 0 ∨ s.crkState ch = 4 then s.bump CRK_CH_PC_REF (ch.val / 16) (ch.val % 16) else s)

/-- A level of two thresholds left 3 °C below (10 R328, 11 R361). -/
def thermLevel (cur : Nat) (temp t1 t2 : Int) : Nat :=
  if t2 ≤ temp then 2
  else if cur = 2 ∧ t2 - 3 < temp then 2
  else if t1 ≤ temp then 1
  else if 1 ≤ cur ∧ t1 - 3 < temp then 1
  else 0

/-- A temperature of a register as a signed number. -/
def degC (n : Nat) : Int := sextNat n 8

/-- The higher of two temperatures in two's complement. -/
def hotter (a b : Nat) : Nat := if degC a < degC b then b else a

/-- `CROCK_TEMP_SAMPLE` (10 R328, R330, R340, R341). -/
def execCrockTempSample (ch : ChanId) (t0 t1 t2 t3 t4 : BitVec 8) (s : State) : Host.Outcome State Fault Refusal :=
  let k := ch.val / 16
  let j := ch.val % 16
  let ts := [t0.toNat, t1.toNat, t2.toNat, t3.toNat, t4.toNat]
  let top := ts.foldl hotter t0.toNat
  let lvl := thermLevel (s.fld CRK_CH_STAT.REFX k j) (degC top) (degC (s.fld CRK_THR.T1 k)) (degC (s.fld CRK_THR.T2 k))
  let s := s.setFld CRK_CH_TEMP.LAYER (ts.foldr (fun t a => t + 256 * a) 0) k j
  let s := ((s.setFld CRK_CH_STAT.TEMP top k j).setFld CRK_CH_STAT.REFX lvl k j).setFld CRK_CH_STAT.TLVL
    (if s.bit CRK_CH_STAT.PRIO k j then 0 else lvl) k j
  let max := (List.range 16).foldl (fun a c => hotter a (s.fld CRK_CH_STAT.TEMP k c)) (s.fld CRK_CH_STAT.TEMP k 0)
  .next ((s.setFld CRK_TEMP.TMAX max k).setFld CRK_TEMP.PEAK (hotter (s.fld CRK_TEMP.PEAK k) max) k)

/-- Is the vat beneath a channel powered off (10 R332, 18 R541)? -/
def State.vatDark (s : State) (v : Nat) : Bool := s.fld PWR_DOM_STAT.STATE v = 0 || s.fld PWR_DOM_STAT.STATE v = 4

/-- `CROCK_SR_IDLE_TIMEOUT` (10 R332). -/
def execCrockSrIdleTimeout (ch : ChanId) (s : State) : Host.Outcome State Fault Refusal :=
  .next (if s.crkState ch = 0 ∧ s.vatDark (chanVat ch) ∧ !s.crkBusy ch then s.setCrkState ch 2 else s)

/-- `CROCK_SR_EXIT_DONE` (10 R332, R333, R342). -/
def execCrockSrExitDone (ch : ChanId) (s : State) : Host.Outcome State Fault Refusal :=
  .next (if s.crkState ch = 3 then (s.setCrkState ch 0).bump CRK_CH_PC_SR_EXIT (ch.val / 16) (ch.val % 16) else s)

/-! ### Scrubbing (12 R377, R378) -/

/-- The owner of a crock region that holds a line. -/
def State.crockOwner (s : State) (line : Nat) : Option Nat := (s.crockRegion (line / 2 ^ 19)).map (fun r => r.part)

/-- `CROCK_SCRUB_READ` (12 R377, R380): share lines, and lines whose valid bit is set, of a serving channel that holds a
unit. -/
def execCrockScrubRead (ch : ChanId) (line : BitVec 21) (errs : List (BitVec 20)) (s : State) :
    Host.Outcome State Fault Refusal :=
  let k := ch.val / 16
  let j := ch.val % 16
  let l := line.toNat
  .next (if s.fatal ∨ s.crkState ch ≠ 0 ∨ !s.bit CRK_CH_STAT.INUSE k j ∨ s.fld CRK_SCRUB.HOURS k = 0 then s
    else if 0x7FC0000 / 64 ≤ l then
      let idx := l - 0x7FC0000 / 64
      if (s.crk ch).poison.contains idx then s
      else
        let (s, d, _) := s.crkDecode ch l errs 4
        if d = .bad then s.crkPoison ch idx ((s.crockDpa ch (512 * idx)).bind s.crockOwner) else s
    else match s.crockDpa ch l with
      | none => s
      | some a =>
        if !s.validBit a then s
        else
          let (s, d, info) := s.crkDecode ch l errs 2
          if d = .bad then s.crkUe ch (a * 64) 2 (s.crockOwner a) info else s)

/-! ### Control and the traffic generator (10 R332, R338 to R343) -/

/-- `CRK_THR_WRITE` (10 R340). -/
def execCrkThrWrite (k : Fin 8) (data : Dword) (s : State) : Host.Outcome State Fault Refusal :=
  let t1 := min (bvBits data 0 8) 0x55
  let t2 := min (bvBits data 8 8) 0x5F
  .next (if t2 ≤ t1 then s else (s.setFld CRK_THR.T1 t1 k).setFld CRK_THR.T2 t2 k)

/-- One generator read of a line through the code: the data it decodes, none where the line is uncorrectable. -/
def State.tgDecode (s : State) (ch line : Nat) (errs : List (BitVec 20)) : State × Option Nat :=
  let raw := (s.crk ch).tg.raw line 80
  let d := raw % 2 ^ 512
  let chk := (List.range 4).foldl (fun a c => a + Config.checkBytes 16 (d / 2 ^ (128 * c) % 2 ^ 128) % 2 ^ 32 * 2 ^ (32 * c)) 0
  let (d, es) := if raw / 2 ^ 512 = chk then (d, errs)
    else (Config.rawData 16 raw % 2 ^ 512, [0, 1, 2, 3].map (fun c => errs.getD c 0 ||| BitVec.ofNat 20 (Config.rawErrs 16 raw / 2 ^ (20 * c))))
  let (s, dec, info) := s.crkDecode ch line es 2
  match dec with
  | .bad => (s.crkUe ch 0 0 none info, none)
  | dec =>
    let (s, x) := s.crkData dec (BitVec.ofNat 512 d)
    (s, some x.toNat)

/-- The layers in which two raw lines differ: data byte b lies in layer (b mod 16) / 4, check bytes in layer 4. -/
def rawLayers (a b : Nat) : Nat :=
  (List.range 80).foldl (fun m i =>
    if a / 2 ^ (8 * i) % 256 = b / 2 ^ (8 * i) % 256 then m else m ||| 2 ^ (if i < 64 then i % 16 / 4 else 4)) 0

/-- A line that failed: counted, and recorded when it is the run's first. -/
def State.crkTgBad (s : State) (ch : Nat) (first : Bool) (line layers : Nat) : State :=
  let k := ch / 16
  let j := ch % 16
  let s := if first then (s.setFld CRK_TG_FAIL.LINE line k j).setFld CRK_TG_FAIL.LAYERS layers k j else s
  (s.bumpErr CRK_TG_ERR.LINES_BAD k j).setFld CRK_TG_STAT.FAIL 1 k j

/-- One visit of a run. The flag says that a line of the run has failed. -/
def State.crkTgVisit (ch : Nat) (r : TgRun) (errs : List (Nat × List (BitVec 20))) (acc : State × Bool) (i : Nat) : State × Bool :=
  let (s, failed) := acc
  let bytes := if r.raw then 80 else 64
  let v := r.visit i bytes
  let es := tgErrs errs i
  let bad := fun (s : State) (layers : Nat) => (s.crkTgBad ch (!failed) v.line layers, true)
  let (s, failed) :=
    if v.scrub then
      let k := ch / 16
      let j := ch % 16
      let c := s.fld CRK_CH_ECCSTAT.LOG_NEXT k j
      let s := (s.tgDecode ch v.line es).1
      if s.fld CRK_CH_ECCSTAT.LOG_NEXT k j = c ∨ (s.fld CRK_CH_LOGA.KIND k j c = 1 ∧ s.fld CRK_CH_LOGB.SYMS k j c = 0) then
        (s, failed)
      else bad s (s.fld CRK_CH_LOGA.LAYERS k j c)
    else match v.read with
      | none => (s, failed)
      | some want =>
        if r.raw then
          let have_ := (s.crk ch).tg.raw v.line 80
          let m := rawLayers have_ want ||| symLayers (es.foldl (fun a e => a ||| e) 0)
          if m = 0 then (s, failed) else bad s m
        else
          let (s, d) := s.tgDecode ch v.line es
          if d = some want then (s, failed) else bad s 0
  match v.write with
  | none => (s, failed)
  | some d =>
    let chk := (List.range 4).foldl (fun a c => a + Config.checkBytes 16 (d / 2 ^ (128 * c) % 2 ^ 128) % 2 ^ 32 * 2 ^ (32 * c)) 0
    let raw := if r.raw then d else d + chk * 2 ^ 512
    let x := s.crk ch
    (s.setCrk ch { x with tg := { x.tg with mem := smPut x.tg.mem v.line raw } }, failed)

/-- A run ends after `done` visits (10 R339, R343). -/
def State.crkTgEnd (s : State) (ch done : Nat) (aborted : Bool) (errs : List (Nat × List (BitVec 20))) : State :=
  let k := ch / 16
  let j := ch % 16
  match (s.crk ch).tg.run with
  | none => s
  | some r =>
    let n := min done r.total
    let s := ((List.range n).foldl (State.crkTgVisit ch r errs) (s, false)).1
    let x := s.crk ch
    let s := s.setCrk ch { x with tg := { x.tg with run := none } }
    let s := (s.setFld CRK_TG_TIME.LINES (r.completed n) k j).setFld CRK_TG_TIME.PERIODS
      (min (((s.reg MC_TSC).toNat + 2 ^ 64 - r.t0) % 2 ^ 64) (2 ^ 32 - 1)) k j
    ((s.setFld CRK_TG_STAT.BUSY 0 k j).setFld CRK_TG_STAT.DONE 1 k j).when aborted (fun s => s.setFld CRK_TG_STAT.ABORTED 1 k j)

/-- The fields that every write of `CRK_TG_CTL` sets. -/
def State.crkTgFields (s : State) (ch : Nat) (data : Dword) : State :=
  s.putFields [CRK_TG_CTL.MODE, CRK_TG_CTL.PAT, CRK_TG_CTL.RAW] data (ch / 16) (ch % 16)

/-- `CRK_TG_GO` (10 R339). -/
def execCrkTgGo (ch : ChanId) (data : Dword) (s : State) : Host.Outcome State Fault Refusal :=
  let k := ch.val / 16
  let j := ch.val % 16
  let busy := s.bit CRK_TG_STAT.BUSY k j
  let s := s.crkTgFields ch data
  let r : TgRun :=
    { mode := s.fld CRK_TG_CTL.MODE k j, pat := s.fld CRK_TG_CTL.PAT k j, raw := s.bit CRK_TG_CTL.RAW k j
      base := s.fld CRK_TG_BASE.BASE k j, len := s.fld CRK_TG_LEN.LEN k j, seed := s.fld CRK_TG_SEED.SEED k j
      t0 := (s.reg MC_TSC).toNat }
  let st := s.crkState ch
  .next (if data.getLsbD 0 = false then s
    else if busy ∨ r.mode = 0 ∨ r.mode = 7 ∨ (r.mode ≠ 6 ∧ st ≠ 4) ∨ st = 1 ∨ st = 2 ∨ st = 3 ∨ r.len = 0 ∨ 2097152 < r.base + r.len then
      s.setFld CRK_TG_STAT.REJ 1 k j
    else
      let x := s.crk ch
      let s := s.setCrk ch { x with tg := { x.tg with run := some r } }
      let s := ((s.setReg CRK_TG_ERR 0 k j).setReg CRK_TG_FAIL 0 k j).setReg CRK_TG_TIME 0 k j
      let s := ((s.setFld CRK_TG_STAT.DONE 0 k j).setFld CRK_TG_STAT.FAIL 0 k j).setFld CRK_TG_STAT.ABORTED 0 k j
      s.setFld CRK_TG_STAT.BUSY 1 k j)

/-- `CRK_TG_ABORT` (10 R339): the run stops at the next line. -/
def execCrkTgAbort (ch : ChanId) (data : Dword) (done : Nat) (errs : List (Nat × List (BitVec 20))) (s : State) :
    Host.Outcome State Fault Refusal :=
  let s := s.crkTgFields ch data
  .next (if data.getLsbD 1 then s.crkTgEnd ch done true errs else s)

/-- `CRK_TG_RUN_END` (10 R338, R343). -/
def execCrkTgRunEnd (ch : ChanId) (errs : List (Nat × List (BitVec 20))) (s : State) : Host.Outcome State Fault Refusal :=
  .next (match (s.crk ch).tg.run with
    | some r => s.crkTgEnd ch r.total false errs
    | none => s)

/-- A channel leaves `TEST`: its run is aborted, its share is zeroed (10 R332, R343). -/
def State.crkLeaveTest (s : State) (ch dst : Nat) : State :=
  let s := s.crkTgEnd ch 0 true []
  let x := s.crk ch
  ((s.setCrk ch { x with tg := {}, poison := [] }).setCrkState ch dst).setFld CRK_CH_CTL.TEST 0 (ch / 16) (ch % 16)

/-- `CRK_CH_TEST_WRITE` (10 R332, R341): a write of `CRK_CH_CTL`. -/
def execCrkChTestWrite (ch : ChanId) (data : Dword) (s : State) : Host.Outcome State Fault Refusal :=
  let k := ch.val / 16
  let j := ch.val % 16
  let free : Bool := !s.bit CRK_CH_STAT.INUSE k j && !s.bit CRK_CH_STAT.KEPT k j
  let s := s.setFld CRK_CH_CTL.SR_IDLE (bvBits data 0 16) k j
  let st := s.crkState ch
  .next (if data.getLsbD 16 then
      if !free then s
      else
        let s := s.setFld CRK_CH_CTL.TEST 1 k j
        if st = 0 ∨ st = 1 then
          let x := s.crk ch
          (State.setCrk s.drawn ch { x with tg := { epoch := s.free } }).setCrkState ch 4
        else s
    else if st = 4 then s.crkLeaveTest ch 1
    else s.setFld CRK_CH_CTL.TEST 0 k j)

end Sys2Proof.Machine
end

