-- ==== Sys2Proof/Machine/Cellar.lean ====
section
/-! DEFINITION. The cellar: reads and writes, the line code and its logs, training, retraining, temperature, regulators,
scrubbing, `TEST` state and the traffic generators (11 R344 to R369, 12 R376 to R382); the scrubs of a vat's arrays
(12 R377) and the fault queue's head (12 R387). -/

namespace Sys2Proof.Machine

open Sys2Proof

/-- A position. -/
def State.cel (s : State) (p : Nat) : CelSt := smGet {} s.cels p

/-- Replace a position. -/
def State.setCel (s : State) (p : Nat) (x : CelSt) : State := { s with cels := smSet {} s.cels p x }

/-- The state of a position (11 R367). -/
def State.celState (s : State) (p : Nat) : Nat := s.fld CEL_STAT.STATE p

/-- The available list of a position (11 R350). -/
def State.celList (s : State) (p : Nat) : List Nat :=
  (List.range 64).filter (fun i => (s.fld CEL_PCMAP.AVAIL p).testBit i)

/-- The pseudo-channel and its local line for an offset of a position (11 R350). -/
def State.cellarPlace (s : State) (p off : Nat) : Option (Nat × Nat) :=
  let l := s.celList p
  if l = [] then none
  else
    let g := off / 256
    (l[g % l.length]?).map (fun pc => (pc, g / l.length * 4 + off % 256 / 64))

/-- The offset of a position that a pseudo-channel's local line holds. -/
def State.cellarOff (s : State) (p pc line : Nat) : Option Nat :=
  let l := s.celList p
  (l.findIdx? (fun c => c = pc)).map (fun i => (line / 4 * l.length + i) * 256 + line % 4 * 64)

/-- The first device physical address of a position (01 R38). -/
def celBase (p : Nat) : Nat := 0x800000000 + p * 2 ^ 36

/-- Is a device physical address, in lines, on a position? -/
def onCel (p line : Nat) : Bool := celBase p ≤ line * 64 && line * 64 < celBase (p + 1)

/-- Every line of a position leaves the slices (09 R303). -/
def State.celFlush (s : State) (p : Nat) : State :=
  (List.range 64).foldl (fun s v => s.crmInvalidate v (onCel p) false) s

/-! ### Retraining (11 R359, R360) -/

/-- A generator run of channel `c` ends with what it has done so far thrown away: `ABORTED` (11 R363). -/
def State.celTgStop (s : State) (p c : Nat) : State :=
  let x := s.cel p
  let t := smGet {} x.tgs c
  match t.run with
  | none => s
  | some _ =>
    let s := s.setCel p { x with tgs := smSet {} x.tgs c { t with run := none } }
    ((s.setFld CEL_TG_STAT.BUSY 0 p c).setFld CEL_TG_STAT.DONE 1 p c).setFld CEL_TG_STAT.ABORTED 1 p c

/-- Every generator run of a position ends. -/
def State.celTgStopAll (s : State) (p : Nat) : State := (List.range 32).foldl (fun s c => s.celTgStop p c) s

/-- A serving position is retrained (11 R360). -/
def State.celRetrain (s : State) (p : Nat) : State :=
  if s.celState p ≠ 3 then s
  else (((s.setFld CEL_STAT.STATE 4 p).celFlush p).celTgStopAll p).bump CEL_PC_RETRAIN p

/-- The half of `CEL_CH_LANE` that describes a pseudo-channel: its fields `SPARE0`, `SPARE1`, `ERASED` and `OUT`. -/
def celLaneFlds (pc : Nat) : Fld × Fld × Fld × Fld :=
  if pc % 2 = 0 then (CEL_CH_LANE.SPARE0_0, CEL_CH_LANE.SPARE1_0, CEL_CH_LANE.ERASED_0, CEL_CH_LANE.OUT_0)
  else (CEL_CH_LANE.SPARE0_1, CEL_CH_LANE.SPARE1_1, CEL_CH_LANE.ERASED_1, CEL_CH_LANE.OUT_1)

/-- The erased lane of a pseudo-channel. -/
def State.celErased (s : State) (p pc : Nat) : Option Nat :=
  let e := s.fld (celLaneFlds pc).2.2.1 p (pc / 2)
  if e < 36 then some e else none

/-- A failing lane (11 R359): a spare is switched in under a retrain, or the lane is marked erased and journaled. -/
def State.celLaneFails (s : State) (p pc lane : Nat) : State :=
  let (f0, f1, fe, _) := celLaneFlds pc
  if s.fld f0 p (pc / 2) = 0x3F then (s.setFld f0 lane p (pc / 2)).celRetrain p
  else if s.fld f1 p (pc / 2) = 0x3F then (s.setFld f1 lane p (pc / 2)).celRetrain p
  else if s.fld fe p (pc / 2) = 0x3F then
    let s := s.setFld fe lane p (pc / 2)
    let s := (s.setFld CEL_PCDEG.DEG (s.fld CEL_PCDEG.DEG p ||| 2 ^ pc) p).setFld CEL_STAT.DEGRADED 1 p
    s.journal 3 (p + pc * 8 + 512 + 2 ^ lane * 1024)
  else s

/-! ### The line code (11 R353, 12 R376, R380, R382) -/

/-- The lane of a symbol: data bytes 0 to 63, check symbols 64 to 71 (11 R353). -/
def symLane (i : Nat) : Nat := if i < 64 then i % 32 else 32 + (i - 64) % 4

/-- The lanes that a mask of symbols touches. -/
def symLanes (m : BitVec 72) : Nat :=
  (List.range 72).foldl (fun a i => if m.getLsbD i then a ||| 2 ^ symLane i else a) 0

/-- The symbols of a set of lanes. -/
def laneSyms (lanes : Nat) : BitVec 72 :=
  (List.range 72).foldl (fun (a : BitVec 72) i => if lanes.testBit (symLane i) then a ||| (1 <<< i) else a) 0

/-- Write the next entry of a position's log; the answer is `CEL_LOGA`[31:0]. -/
def State.celLog (s : State) (p pc line kind lanes : Nat) : State × Nat :=
  let i := s.fld CEL_ECCSTAT.LOG_NEXT p
  let a := line % 2 ^ 24 + pc * 2 ^ 24 + kind * 2 ^ 30
  let s := s.setReg CEL_LOGA (BitVec.ofNat 64 (a + s.tsc32 * 2 ^ 32)) p i
  let s := s.setReg CEL_LOGB (BitVec.ofNat 64 (lanes % 2 ^ 36)) p i
  (s.setFld CEL_ECCSTAT.LOG_NEXT ((i + 1) % 8) p, a)

/-- Attribute corrected symbols to their lanes (11 R359). -/
def State.celAttribute (s : State) (p pc : Nat) (m : BitVec 72) : State :=
  let x := s.cel p
  let sec := (s.reg MC_TSC).toNat / 100000000
  let c0 := if x.second = sec then x.counts else []
  let lim := max 1 (s.fld CEL_THR.LANE_LIM p)
  let c := (List.range 72).foldl (fun c i =>
    if m.getLsbD i then smSet 0 c (64 * pc + symLane i) (smGet 0 c (64 * pc + symLane i) + 1) else c) c0
  let bad := (List.range 36).filter (fun l => (symLanes m).testBit l && smGet 0 c0 (64 * pc + l) < lim && lim ≤ smGet 0 c (64 * pc + l))
  let s := s.setCel p { x with second := sec, counts := c }
  bad.foldl (fun s l => s.celLaneFails p pc l) s

/-- What a decode of a cellar line answers. -/
inductive CelDec where
  | good
  | wrong
  | bad
  deriving DecidableEq, Repr

/-- Decode one line of a pseudo-channel whose array shows the symbol errors `errs`; `odec` corrections of the stack are
reported with it. More symbols in error than the code corrects are found, or, as a free choice (12 R376, log 3), decode
to a wrong codeword. -/
def State.celDecode (s : State) (p pc line : Nat) (errs : BitVec 72) (odec : Nat) : State × CelDec × Nat :=
  let s := s.bumpErr CEL_ECC1.ODEC p (n := odec)
  let arm := s.bit CEL_INJ.ARM p ∧ s.fld CEL_INJ.PC p = pc
  let es := errs ||| (if arm then laneSyms (s.fld CEL_INJ.LANES p) else 0)
  let s := if arm then s.setFld CEL_INJ.ARM 0 p else s
  let er := s.celErased p pc
  let far := match er with
    | some l => es &&& ~~~laneSyms (2 ^ l)
    | none => es
  let n := (List.range 72).foldl (fun a i => if far.getLsbD i then a + 1 else a) 0
  if n = 0 then (s, .good, 0)
  else if n ≤ (if er.isSome then 3 else 4) then
    let s := s.bumpErr CEL_ECC0.CORR p
    let (s, a) := s.celLog p pc line 0 (symLanes far)
    (s.celAttribute p pc far, .good, a)
  else if Config.freeNat s.free % 2 = 0 then
    let s := s.drawn.bumpErr CEL_ECC0.CORR p
    let (s, a) := State.celLog s.drawn p pc line 0 (Config.freeNat s.free)
    (s, .wrong, a)
  else
    let s := s.drawn.bumpErr CEL_ECC0.UNCORR p
    let (s, a) := s.celLog p pc line 1 (symLanes far)
    (s, .bad, a)

/-- Report an uncorrectable line by one record (12 R380). -/
def State.celUe (s : State) (p pc dpa sub : Nat) (part : Option Nat) (info : Nat) : State :=
  let x := s.cel p
  if x.lastUe = some dpa then s
  else (s.setCel p { x with lastUe := some dpa }).fault
    { cls := 3, sub := sub, part := part, unit := 5, inst := p * 64 + pc, addr := BitVec.ofNat 64 dpa, info := info }

/-- The data of a decode: a wrong line is a free value. -/
def State.celData (s : State) (d : CelDec) (true_ : Line) : State × Line :=
  if d = .wrong then (s.drawn, Config.freeLine s.free) else (s, true_)

/-! ### Requests (11 R348, R351, R354, R364) -/

/-- Where a queued request lies on a position. -/
def State.celOf (s : State) (p : Nat) (r : MemReq) : Option (Nat × Nat) :=
  match s.place (r.line * 64) with
  | .cellar q off => if q = p then s.cellarPlace p off else none
  | _ => none

/-- The lowest enabled regulator of the partition that owns the region of a request (11 R364). -/
def State.celReg (s : State) (p : Nat) (r : MemReq) : Option Nat :=
  match s.place (r.line * 64) with
  | .cellar q off => (s.cellarRegion q off).bind (fun g => (List.range 8).find? (fun j => s.bit CEL_REG.EN p j && s.fld CEL_REG.PART p j = g.part))
  | _ => none

/-- The regulator's answer: `n` lines are taken, or the request is passed over and counted. -/
def State.celRegulate (s : State) (p n : Nat) (r : MemReq) : State × Bool :=
  if r.rt then (s, true)
  else match s.celReg p r with
    | none => (s, true)
    | some j =>
      let l := s.fld CEL_REG.LEVEL p j
      if l < n then (s.bump CEL_PC_REG_STALL p, false) else (s.setFld CEL_REG.LEVEL (l - n) p j, true)

/-- A request meets its position: one that serves takes it, one that is off or failed refuses it, else it waits. -/
def State.celServe (s : State) (p pc line : Nat) (write : Bool) (fail : MemReq → State → State)
    (serve : MemReq → State → State) : State :=
  match s.memq.find? (fun r => s.celOf p r = some (pc, line)) with
  | none => s
  | some r =>
    if r.write.isSome ≠ write then s
    else
      let n := match r.write with
        | some (m, _) => if m = BitVec.allOnes 64 then 1 else 2
        | none => 1
      match s.celState p with
      | 3 =>
        if s.fld CEL_STAT.TLVL p = 3 then s
        else
          let (s, ok) := s.celRegulate p n r
          if ok then serve r { s with memq := s.memq.erase r } else s
      | 0 => fail r { s with memq := s.memq.erase r }
      | 6 => fail r { s with memq := s.memq.erase r }
      | _ => s

/-- A read's answer to its slot. -/
def State.memFill (s : State) (r : MemReq) (d : Option Line) : State :=
  match r.id with
  | some id => s.send (.fill r.home id d)
  | none => s

/-- `CELLAR_READ` (11 R349, R351, 12 R376, R379, R380). -/
def execCellarRead (p : CelId) (pc : Fin 64) (line : BitVec 24) (errs : BitVec 72) (odec acts : Nat) (s : State) :
    Host.Outcome State Fault Refusal :=
  .next (s.celServe p pc line.toNat false (fun r s => s.memFill r none) (fun r s =>
    let s := (s.bump CEL_PC_RD p).bumpN CEL_PC_ACT acts p
    let (s, d, info) := s.celDecode p pc line.toNat errs odec
    if d = .bad then (s.celUe p pc (r.line * 64) 0 r.part info).memFill r none
    else
      let (s, data) := s.celData d (s.readBytes (r.line * 64) 64)
      s.memFill r (some data)))

/-- `CELLAR_WRITE` (11 R348, R354). -/
def execCellarWrite (p : CelId) (pc : Fin 64) (line : BitVec 24) (errs : BitVec 72) (odec acts : Nat) (s : State) :
    Host.Outcome State Fault Refusal :=
  .next (s.celServe p pc line.toNat true (fun r s => s.memAck r false) (fun r s =>
    match r.write with
    | none => s
    | some (m, d) =>
      let s := (s.bump CEL_PC_WR p).bumpN CEL_PC_ACT acts p
      let put := fun (s : State) (d : Line) =>
        { s with mem := Memory.write s.mem (r.line * 64) (2 ^ 64 - 1) d.toNat 64 }
      if m = BitVec.allOnes 64 then (put s d).memAck r true
      else
        let s := s.bump CEL_PC_RMW p
        let (s, dec, info) := s.celDecode p pc line.toNat errs odec
        if dec = .bad then
          let s := (s.bumpErr CEL_ECC1.RMW_FAIL p).celLog p pc line.toNat 2 0
          (s.1.celUe p pc (r.line * 64) 1 r.part info).memAck r false
        else
          let (s, old) := s.celData dec (s.readBytes (r.line * 64) 64)
          (put s (mergeLine m old d)).memAck r true))

/-- `CELLAR_REFRESH` (11 R345): the stack's array alone. -/
def execCellarRefresh (_ : CelId) (s : State) : Host.Outcome State Fault Refusal := .next s

/-- `CEL_REGULATOR_TICK` (11 R364, 09 R312). -/
def execCelRegulatorTick (p : CelId) (j : Fin 8) (s : State) : Host.Outcome State Fault Refusal :=
  .next (if s.bit CEL_REG.EN p j then
      s.setFld CEL_REG.LEVEL (min (s.fld CEL_REG.LEVEL p j + s.fld CEL_REG.RATE p j) (s.fld CEL_REG.BURST p j)) p j
    else s)

/-! ### Training (11 R344, R346, R351, R352, R357, R358) -/

/-- Is a configuration of stack and rating accepted (11 R344, R346)? -/
def celSupported (t : CelTrain) : Bool :=
  [(24, 8), (36, 12), (48, 12), (64, 16)].contains (t.cap.toNat, t.height.toNat) && 64 ≤ t.rating.toNat

/-- The rate of a training: the running image's, or until one is loaded the lower of the rating and the recorded rate
(11 R346). -/
def State.celTarget (s : State) (t : CelTrain) : Nat :=
  if s.img.configured then s.img.cellarRate
  else if s.mram.celRate = 0 then 64 else min t.rating.toNat s.mram.celRate

/-- Write zeros into every line of a position outside kept regions (11 R357 phase 7). -/
def State.celZero (s : State) (p : Nat) : State :=
  let kept := fun (a : Nat) => s.keep.any (fun (_, k) => k.cellar && !k.lost && k.pos = p &&
    decide (celBase p + k.base * 2 ^ 30 ≤ a ∧ a < celBase p + (k.base + k.size) * 2 ^ 30))
  { s with mem := s.mem.filter (fun c => c.1 < celBase p || celBase (p + 1) ≤ c.1 || kept c.1) }

/-- The failing lanes of a pseudo-channel at training. -/
def celFails (t : CelTrain) (pc : Nat) : List Nat :=
  match t.lanes.find? (fun e => e.1.val = pc) with
  | some e => (List.range 38).filter (fun l => e.2.getLsbD l)
  | none => []

/-- Training's map of one pseudo-channel (11 R358): its lanes in `CEL_CH_LANE`, and whether it is available. -/
def State.celMapPc (s : State) (p : Nat) (t : CelTrain) (pc : Nat) : State × Bool :=
  let fs := celFails t pc
  let jr := (s.journalOf 3).any (fun w => w % 8 = p && w / 8 % 64 = pc && w / 512 % 2 = 1)
  let out := 2 < fs.length || t.ca.any (fun c => c.val = pc / 2) || jr
  let (f0, f1, fe, fo) := celLaneFlds pc
  let data := fs.filter (fun l => l < 36)
  let spares := [36, 37].filter (fun l => !fs.contains l)
  let use := if out then [] else data.zip spares
  let at_ := fun (sp : Nat) => match use.find? (fun e => e.2 = sp) with
    | some e => e.1
    | none => 0x3F
  let s := (((s.setFld f0 (at_ 36) p (pc / 2)).setFld f1 (at_ 37) p (pc / 2)).setFld fe 0x3F p (pc / 2)).setFld fo (if out then 1 else 0) p (pc / 2)
  let s := if out ∧ !jr then
      s.journal 3 (p + pc * 8 + data.foldl (fun a l => a + 2 ^ l) 0 * 1024)
    else s
  (s, !out)

/-- A position becomes `FAILED` (11 R362): no capacity, every access is refused. -/
def State.celFail (s : State) (p : Nat) : State :=
  (((((s.setCel p { s.cel p with stack := none }).setFld CEL_STAT.STATE 6 p).setReg CEL_CAP 0 p).setReg CEL_PCMAP 0 p).setReg CEL_PCDEG 0 p).setFld CEL_STAT.DEGRADED 0 p

/-- `CELLAR_TRAINING_COMPLETE` (11 R357, R358, R351, R352, R362): phases 2 to 7, or a retraining at a new rate. -/
def execCellarTrainingComplete (p : CelId) (t : CelTrain) (s : State) : Host.Outcome State Fault Refusal :=
  .next (if s.celState p ≠ 1 then s
    else if !t.answer then (s.setReg CEL_INFO 0 p).celFail p
    else
      let s := s.setReg CEL_INFO (BitVec.ofNat 64 (1 + (if celSupported t then 2 else 0) + t.cap.toNat * 2 ^ 8
        + t.height.toNat * 2 ^ 16 + t.rating.toNat * 2 ^ 24)) p
      if !celSupported t then s.celFail p
      else
        let s := s.setFld CEL_STAT.RATE (s.celTarget t) p
        if !(s.cel p).bringUp then s.setFld CEL_STAT.STATE 3 p
        else
          let (s, m) := (List.range 64).foldl (fun (acc : State × Nat) pc =>
            let (s, ok) := acc.1.celMapPc p t pc
            (s, if ok then acc.2 + 2 ^ pc else acc.2)) (s, 0)
          let n := (List.range 64).foldl (fun a i => if m.testBit i then a + 1 else a) 0
          let x := s.cel p
          let changed := x.prev ≠ none ∧ x.prev ≠ some m
          let stack := some (t.rating.toNat, n * t.cap.toNat * 16 / 1024)
          let s := s.setCel p { x with prev := some m, counts := [], lastUe := none, stack := stack }
          let s := if changed then
              State.setFld { s with keep := s.keep.filter (fun (_, k) => !(k.cellar && k.pos = p)) } CEL_STAT.KEEP_LOST 1 p
            else s
          if n < 32 then s.celFail p
          else
            let mib := n * t.cap.toNat * 16
            let s := s.setReg CEL_CAP (BitVec.ofNat 64 (n + mib * 2 ^ 16 + mib / 1024 * 2 ^ 48)) p
            let s := ((s.setReg CEL_PCMAP (BitVec.ofNat 64 m) p).setReg CEL_PCDEG 0 p).setFld CEL_STAT.DEGRADED 0 p
            (s.celZero p).setFld CEL_STAT.STATE 3 p)

/-- `CELLAR_RETRAIN` (11 R360, R367): a write of `CEL_CTL.RETRAIN`. -/
def execCellarRetrain (p : CelId) (s : State) : Host.Outcome State Fault Refusal := .next (s.celRetrain p)

/-- `CELLAR_RETRAIN_COMPLETE` (11 R360 phase 4). -/
def execCellarRetrainComplete (p : CelId) (s : State) : Host.Outcome State Fault Refusal :=
  .next (if s.celState p = 4 then s.setFld CEL_STAT.STATE 3 p else s)

/-- `CELLAR_CA_PARITY` (11 R362): the command is reissued once; a second error on it retrains the position. -/
def execCellarCaParity (p : CelId) (cmd : Nat) (s : State) : Host.Outcome State Fault Refusal :=
  let x := s.cel p
  .next (if x.reissue = some cmd then (s.setCel p { x with reissue := none }).celRetrain p
    else s.setCel p { x with reissue := some cmd })

/-! ### Temperature (11 R361, R362) -/

/-- `CELLAR_TEMP_READ` (11 R361): `over` is the stack's report of its own maximum rating exceeded. -/
def execCellarTempRead (p : CelId) (temp : BitVec 8) (hot : Bool) (s : State) : Host.Outcome State Fault Refusal :=
  .next (if s.celState p = 0 ∨ s.celState p = 6 then s
    else
      let cur := min 2 (s.fld CEL_STAT.TLVL p)
      let lvl := if hot then 3 else thermLevel cur (degC temp.toNat) (degC (s.fld CEL_THR.T1 p)) (degC (s.fld CEL_THR.T2 p))
      let s := (s.setFld CEL_TEMP.TSTACK temp.toNat p).setFld CEL_TEMP.PEAK (hotter (s.fld CEL_TEMP.PEAK p) temp.toNat) p
      State.setCel (s.setFld CEL_STAT.TLVL lvl p) p { s.cel p with noTemp := false })

/-- `CELLAR_TEMP_TIMEOUT` (11 R362): level 2 until a valid reading returns. -/
def execCellarTempTimeout (p : CelId) (s : State) : Host.Outcome State Fault Refusal :=
  .next (if s.celState p = 0 ∨ s.celState p = 6 then s
    else State.setCel (s.setFld CEL_STAT.TLVL (max 2 (s.fld CEL_STAT.TLVL p)) p) p { s.cel p with noTemp := true })

/-- `CEL_THR_WRITE` (11 R367). -/
def execCelThrWrite (p : CelId) (data : Dword) (s : State) : Host.Outcome State Fault Refusal :=
  let t1 := min (bvBits data 0 8) 0x5A
  let t2 := min (bvBits data 8 8) 0x64
  .next (if t2 ≤ t1 then s
    else ((s.setFld CEL_THR.T1 t1 p).setFld CEL_THR.T2 t2 p).putFields [CEL_THR.LANE_LIM] data p)

/-! ### Scrubbing (12 R377, R378) -/

/-- `CELLAR_SCRUB_READ` (12 R377, R380). -/
def execCellarScrubRead (p : CelId) (pc : Fin 64) (line : BitVec 24) (errs : BitVec 72) (odec : Nat) (s : State) :
    Host.Outcome State Fault Refusal :=
  .next (if s.fatal ∨ s.celState p ≠ 3 ∨ s.fld CEL_SCRUB.HOURS p = 0 then s
    else match s.cellarOff p pc line.toNat with
      | none => s
      | some off =>
        if s.fld CEL_CAP.AVAIL_MIB p * 2 ^ 20 ≤ off then s
        else
          let (s, d, info) := s.celDecode p pc line.toNat errs odec
          if d = .bad then s.celUe p pc (celBase p + off) 2 ((s.cellarRegion p off).map (fun r => r.part)) info else s)

/-! ### `TEST` state and the traffic generators (11 R365, R366) -/

/-- Does any region of the running image lie on a position? -/
def State.celInUse (s : State) (p : Nat) : Bool := s.img.cellar.any (fun r => r.pos = p)

/-- A position leaves `TEST` for its initialisation (11 R365). -/
def State.celLeaveTest (s : State) (p : Nat) : State :=
  let s := s.celTgStopAll p
  State.setFld ((s.setCel p { s.cel p with tgs := [] }).setFld CEL_CTL.TEST 0 p) CEL_STAT.STATE 2 p

/-- `CEL_TEST_WRITE` (11 R365, R367): a write of `CEL_CTL.TEST`. -/
def execCelTestWrite (p : CelId) (data : Dword) (s : State) : Host.Outcome State Fault Refusal :=
  .next (if data.getLsbD 0 then
      if s.celInUse p ∨ s.bit CEL_STAT.KEPT p then s
      else
        let s := s.setFld CEL_CTL.TEST 1 p
        if s.celState p = 3 then
          let s := (s.celTgStopAll p).celFlush p
          let tgs := (List.range 32).foldl (fun m c => smSet {} m c ({ epoch := s.free } : TgSt)) []
          (State.setCel s.drawn p { s.cel p with tgs := tgs }).setFld CEL_STAT.STATE 5 p
        else s
    else if s.celState p = 5 then s.celLeaveTest p
    else s.setFld CEL_CTL.TEST 0 p)

/-- `CELLAR_INIT_COMPLETE` (11 R365): the initialisation after `TEST` ends. -/
def execCellarInitComplete (p : CelId) (s : State) : Host.Outcome State Fault Refusal :=
  .next (if s.celState p = 2 then (s.celZero p).setFld CEL_STAT.STATE 3 p else s)

/-- The key of a line in a generator's memory. -/
def celKey (pc line : Nat) : Nat := pc * 2 ^ 24 + line

/-- One generator read through the code: the data, none where the line is uncorrectable. -/
def State.celTgDecode (s : State) (p c pc line : Nat) (errs : BitVec 72) : State × Option Nat :=
  let raw := (smGet {} (s.cel p).tgs c).raw (celKey pc line) 72
  let d := raw % 2 ^ 512
  let (d, es) := if raw / 2 ^ 512 = Config.checkBytes 64 d % 2 ^ 64 then (d, errs)
    else (Config.rawData 64 raw % 2 ^ 512, errs ||| BitVec.ofNat 72 (Config.rawErrs 64 raw))
  let (s, dec, info) := s.celDecode p (2 * c + pc) line es 0
  match dec with
  | .bad => (s.celUe p (2 * c + pc) 0 0 none info, none)
  | dec =>
    let (s, x) := s.celData dec (BitVec.ofNat 512 d)
    (s, some x.toNat)

/-- The lanes in which two raw lines differ: data byte i is carried on lane i mod 32, check byte c on lane 32 + c mod 4. -/
def rawLanes (a b : Nat) : Nat :=
  (List.range 72).foldl (fun m i =>
    if a / 2 ^ (8 * i) % 256 = b / 2 ^ (8 * i) % 256 then m else m ||| 2 ^ symLane i) 0

/-- A line that failed: counted, and recorded when it is the run's first. -/
def State.celTgBad (s : State) (p c : Nat) (first : Bool) (line lanes : Nat) : State :=
  let s := if first then (s.setFld CEL_TG_FAIL.LINE line p c).setFld CEL_TG_FAIL.LANES lanes p c else s
  (s.bumpErr CEL_TG_ERR.LINES_BAD p c).setFld CEL_TG_STAT.FAIL 1 p c

/-- One visit of a run. The flag says that a line of the run has failed. -/
def State.celTgVisit (p c : Nat) (r : TgRun) (errs : List (Nat × List (BitVec 72))) (acc : State × Bool) (i : Nat) : State × Bool :=
  let (s, failed) := acc
  let v := r.visit i (if r.raw then 72 else 64)
  let es := (tgErrs errs i).headD 0
  let bad := fun (s : State) (lanes : Nat) => (s.celTgBad p c (!failed) v.line lanes, true)
  let (s, failed) :=
    if v.scrub then
      let n := s.fld CEL_ECCSTAT.LOG_NEXT p
      let s := (s.celTgDecode p c r.pc v.line es).1
      if s.fld CEL_ECCSTAT.LOG_NEXT p = n then (s, failed) else bad s (s.fld CEL_LOGB.LANES p n)
    else match v.read with
      | none => (s, failed)
      | some want =>
        if r.raw then
          let m := rawLanes ((smGet {} (s.cel p).tgs c).raw (celKey r.pc v.line) 72) want ||| symLanes es
          if m = 0 then (s, failed) else bad s m
        else
          let (s, d) := s.celTgDecode p c r.pc v.line es
          if d = some want then (s, failed) else bad s 0
  match v.write with
  | none => (s, failed)
  | some d =>
    let raw := if r.raw then d else d + Config.checkBytes 64 d % 2 ^ 64 * 2 ^ 512
    let x := s.cel p
    let t := smGet {} x.tgs c
    (s.setCel p { x with tgs := smSet {} x.tgs c { t with mem := smPut t.mem (celKey r.pc v.line) raw } }, failed)

/-- A run ends after `done` visits. -/
def State.celTgEnd (s : State) (p c done : Nat) (aborted : Bool) (errs : List (Nat × List (BitVec 72))) : State :=
  match (smGet {} (s.cel p).tgs c).run with
  | none => s
  | some r =>
    let n := min done r.total
    let s := ((List.range n).foldl (State.celTgVisit p c r errs) (s, false)).1
    let x := s.cel p
    let t := smGet {} x.tgs c
    let s := s.setCel p { x with tgs := smSet {} x.tgs c { t with run := none } }
    let s := (s.setFld CEL_TG_TIME.LINES (r.completed n) p c).setFld CEL_TG_TIME.PERIODS
      (min (((s.reg MC_TSC).toNat + 2 ^ 64 - r.t0) % 2 ^ 64) (2 ^ 32 - 1)) p c
    ((s.setFld CEL_TG_STAT.BUSY 0 p c).setFld CEL_TG_STAT.DONE 1 p c).when aborted (fun s => s.setFld CEL_TG_STAT.ABORTED 1 p c)

/-- The fields that every write of `CEL_TG_CTL` sets. -/
def State.celTgFields (s : State) (p c : Nat) (data : Dword) : State :=
  s.putFields [CEL_TG_CTL.MODE, CEL_TG_CTL.PAT, CEL_TG_CTL.RAW, CEL_TG_CTL.PC] data p c

/-- `CEL_TG_GO` (11 R366). -/
def execCelTgGo (p : CelId) (c : Fin 32) (data : Dword) (s : State) : Host.Outcome State Fault Refusal :=
  let busy := s.bit CEL_TG_STAT.BUSY p c
  let s := s.celTgFields p c data
  let r : TgRun :=
    { mode := s.fld CEL_TG_CTL.MODE p c, pat := s.fld CEL_TG_CTL.PAT p c, raw := s.bit CEL_TG_CTL.RAW p c
      base := s.fld CEL_TG_BASE.BASE p c, len := s.fld CEL_TG_LEN.LEN p c, seed := s.fld CEL_TG_SEED.SEED p c
      t0 := (s.reg MC_TSC).toNat, pc := s.fld CEL_TG_CTL.PC p c }
  let st := s.celState p
  .next (if data.getLsbD 0 = false then s
    else if busy ∨ r.mode = 0 ∨ r.mode = 7 ∨ (r.mode ≠ 6 ∧ st ≠ 5) ∨ (st ≠ 3 ∧ st ≠ 5) ∨ r.len = 0
        ∨ s.fld CEL_INFO.CAP_GB p * 2 ^ 18 < r.base + r.len then s.setFld CEL_TG_STAT.REJ 1 p c
    else
      let x := s.cel p
      let s := s.setCel p { x with tgs := smSet {} x.tgs c { smGet {} x.tgs c with run := some r } }
      let s := ((s.setReg CEL_TG_ERR 0 p c).setReg CEL_TG_FAIL 0 p c).setReg CEL_TG_TIME 0 p c
      let s := ((s.setFld CEL_TG_STAT.DONE 0 p c).setFld CEL_TG_STAT.FAIL 0 p c).setFld CEL_TG_STAT.ABORTED 0 p c
      s.setFld CEL_TG_STAT.BUSY 1 p c)

/-- `CEL_TG_ABORT` (11 R365, 10 R339). -/
def execCelTgAbort (p : CelId) (c : Fin 32) (data : Dword) (done : Nat) (errs : List (Nat × List (BitVec 72))) (s : State) :
    Host.Outcome State Fault Refusal :=
  let s := s.celTgFields p c data
  .next (if data.getLsbD 1 then s.celTgEnd p c done true errs else s)

/-- `CEL_TG_RUN_END` (11 R365). -/
def execCelTgRunEnd (p : CelId) (c : Fin 32) (errs : List (Nat × List (BitVec 72))) (s : State) :
    Host.Outcome State Fault Refusal :=
  .next (match (smGet {} (s.cel p).tgs c).run with
    | some r => s.celTgEnd p c r.total false errs
    | none => s)

/-! ### The scrubs of a vat's arrays and the fault queue (12 R377, R378, R387) -/

/-- `VAT_SCRUB_READ` (12 R377, R378, R374): target 0 the slice word of the line at address `a`, 1 the core-store word at
`a` (core index × 65,536 + offset), 2 tally `a`. Nothing is scrubbed during a vat reset. -/
def execVatScrubRead (v : VatId) (target : Fin 3) (a : Nat) (err : HdrErr) (s : State) : Host.Outcome State Fault Refusal :=
  .next (if !s.vatLive v ∨ s.fld VAT_ECC_CTL.SECONDS v = 0 then s
    else match target.val with
      | 0 =>
        let (err, s) := s.sliceInj v err
        s.sliceErr v err (s.partOf v) (BitVec.ofNat 64 a) 2
      | 1 =>
        let c := 64 * v.val + a / 65536 % 64
        let (err, s) := s.coreInj c err
        s.coreStoreErr c (a % 65536) err (BitVec.ofNat 64 (csBase c + a % 65536 / 4 * 4)) 2
      | _ =>
        let t := 256 * v.val + a % 256
        let b := s.injBits (64 * v.val) 4
        let s := s.setFld VAT_ECC_INJ.ARM (if b = 0 then s.fld VAT_ECC_INJ.ARM v else 0) v
        let err := if b = 0 then err else if b = 1 then .corrected else .uncorrectable
        match err with
        | .ok => s
        | .corrected => s.bumpErr VAT_ECC1.CORR_HUB v
        | .uncorrectable => (s.bumpErr VAT_ECC1.UNCORR v).tallyUe t 2)

/-- `FQ_HEAD_WRITE` (12 R387): ignored where it would move `HEAD` backwards or past `TAIL`. -/
def execFqHeadWrite (data : Dword) (s : State) : Host.Outcome State Fault Refusal :=
  let x := bvBits data 0 9
  let n := (x + 512 - s.fld MC_FQ_HEAD.HEAD) % 512
  let c := s.fld MC_FQ_STAT.COUNT
  .next (if c < n then s
    else ((s.setFld MC_FQ_HEAD.HEAD x).setFld MC_FQ_STAT.COUNT (c - n)).setFld MC_FQ_STAT.FULL (if c - n = 256 then 1 else 0))

end Sys2Proof.Machine
end

