-- ==== Sys2Proof/Machine/Translation.lean ====
section
/-! DEFINITION. Address translation: walks and their results, page faults, fault rings, migration, shootdowns and
resumption (13 R392 to R414). -/

namespace Sys2Proof.Machine

open Sys2Proof

/-! ### What a partition may reach (13 R396) -/

/-- Is a region's owner `p`, or does it share the region with `p` through `VERIFY_PEER`? -/
def State.mayReach (s : State) (p owner : Nat) (shared : Bool) : Bool :=
  owner = p || (shared && (s.part owner).any (fun r => r.verifyPeer = p))

/-- May a partition reach 32 MiB at a device physical address through its tables (13 R396)? -/
def State.reachUnit (s : State) (p a : Nat) : Bool :=
  if a < 0x400000000 then (s.crockRegion (a / 2 ^ 25)).any (fun r => s.mayReach p r.part r.shared)
  else if a < 0x430000000 then true
  else if 0x800000000 ≤ a ∧ a < 0x8800000000 then
    (s.cellarRegion ((a - 0x800000000) / 2 ^ 36) ((a - 0x800000000) % 2 ^ 36)).any (fun r => s.mayReach p r.part r.shared)
  else false

/-- May a partition map a page (13 R396)? -/
def State.mayMap (s : State) (p : Nat) (big : Bool) (tgt dev addr : Nat) : Bool :=
  let window := fun (off : Nat) => (s.hostEntry off).any (fun w => s.fld HOST_WIN_CFG.OWNER w = p)
  let here := fun (a : Nat) =>
    if 2 ^ 44 ≤ a ∧ a < 2 ^ 45 then window (a - 2 ^ 44)
    else (List.range (if big then 32 else 1)).all (fun i => s.reachUnit p (a + i * 2 ^ 25))
  match tgt with
  | 0 => here addr
  | 1 => if dev = s.devId then here addr else s.bit MC_FAB_RT.VALID dev
  | _ => if dev = s.devId then window addr else s.bit MC_FAB_RT.VALID dev

/-- May the walker read a table of a partition at a device physical address (13 R393)? -/
def State.mayWalk (s : State) (p a : Nat) : Bool :=
  if a < 0x400000000 ∨ (0x800000000 ≤ a ∧ a < 0x8800000000) then s.reachUnit p a
  else match s.place a with
    | .scratch n off => decide (off < s.scrSize n) && decide (s.fld VAT_CRM_CFG.SCR_PART n = p)
    | _ => false

/-! ### Entries (13 R394, R395) -/

/-- What a table entry says. -/
inductive Pte where
  | invalid
  | bad
  | table (a : Nat)
  | page (ga : Dword) (w : Bool) (tgt dev addr : Nat) (m : Bool)
  deriving DecidableEq, Repr

/-- Read an entry: of level 1, or of level 2. -/
def pte (e : Dword) (l1 : Bool) : Pte :=
  let tgt := bvBits e 4 2
  let dev := bvBits e 50 14
  let addr := bvBits e 8 40 * 256
  if !e.getLsbD 0 then .invalid
  else if e.getLsbD 1 then
    if l1 ∧ !e.getLsbD 2 ∧ bvBits e 3 5 = 0 ∧ bvBits e 48 16 = 0 then .table addr else .bad
  else if e.getLsbD 3 ∨ e.getLsbD 7 ∨ bvBits e 48 2 ≠ 0 ∨ tgt = 3 ∨ (e.getLsbD 6 ∧ (l1 ∨ tgt ≠ 2)) ∨ (tgt = 0 ∧ dev ≠ 0)
      ∨ addr % (if l1 then 2 ^ 30 else 2 ^ 25) ≠ 0 ∨ (tgt = 2 ∧ 2 ^ 44 ≤ addr) then .bad
  else .page (BitVec.ofNat 64 (tgt * 2 ^ 62 + dev * 2 ^ 48 + addr)) (e.getLsbD 2) tgt dev addr (e.getLsbD 6)

/-! ### Walks (13 R400, R401) -/

/-- Replace the walks that a test picks. -/
def State.updWalk (s : State) (p : Walk → Bool) (f : Walk → Walk) : State :=
  { s with walks := s.walks.map (fun w => if p w then f w else w) }

/-- Does walker `k` read a table for this walk? -/
def Walk.onWalker (w : Walk) (k : Nat) : Bool :=
  w.walker = k && (match w.stage with
    | .readL1 => true
    | .readL2 _ => true
    | _ => false)

/-- A walk ends (13 R396, R400, R412, R414): it is counted once. -/
def State.walkEnd (s : State) (p : Walk → Bool) (r : WalkRes) : State :=
  let s := (s.updWalk p (fun w => { w with stage := .done r })).bump XLT_PC_WALK
  match r with
  | .deny _ => s.bumpErr XLT_ERR.DENY
  | .ue _ => s.bumpErr XLT_ERR.WALK_UE
  | _ => s

/-- A walker reads a table entry, or the walk ends where the table is not the partition's (13 R393). -/
def State.walkRead (s : State) (k part a : Nat) (test : Walk → Bool) (stage : WalkStage) (l2 : Nat) : State :=
  if !s.mayWalk part a then s.walkEnd test (.deny 1)
  else
    let s := s.updWalk test (fun w => { w with stage := stage, walker := k, tag := s.xtag, l2 := l2 })
    State.send { s with xtag := s.xtag + 1 } (.req (.walker k) s.xtag (BitVec.ofNat 64 a) (.read 8))

/-- Requesters that found the walk queue full ask again (13 R400). -/
def State.xltWake (s : State) : State :=
  s.xltRetry.foldl (fun s a => match a with
    | .ladle v l => State.ladlePump pumpFuel s v l
    | .redEntry v e l => s.redSend v e l
    | .specUnit v => s.specRun v
    | _ => s) { s with xltRetry := [] }

/-- `WALK_START` (13 R393, R400, R413): a free walker takes a queued walk. -/
def execWalkStart (p : PartId) (vpage : BitVec 23) (s : State) : Host.Outcome State Fault Refusal :=
  let test := fun (w : Walk) => w.part = p && w.vpage = vpage.toNat && w.stage = .queued
  .next (if !s.walks.any test then s
    else match (List.range 16).find? (fun k => !s.walks.any (fun w => w.onWalker k)) with
      | none => s
      | some k =>
        let va := vpage.toNat * 2 ^ 25
        let s := if !s.bit XLT_PT_BASE.EN p then s.walkEnd test (.fault 0)
          else s.walkRead k p (s.fld XLT_PT_BASE.BASE p * 2 ^ 21 + va / 2 ^ 30 * 8) test .readL1 0
        s.xltWake)

/-- A page that a walk found (13 R396, R403, R408): refused, to migrate, or the result. none where the migration queue
is full and the walker waits. -/
def State.walkPage (s : State) (w : Walk) (test : Walk → Bool) (big : Bool) (e : Dword) : Option State :=
  match pte e big with
  | .invalid => some (s.walkEnd test (.fault 0))
  | .bad => some (s.walkEnd test (.fault 2))
  | .table _ => some (s.walkEnd test (.fault 2))
  | .page ga wr tgt dev addr m =>
    if !s.mayMap w.part big tgt dev addr then some (s.walkEnd test (.deny 0))
    else if !m then some (s.walkEnd test (.page big ga wr tgt))
    else
      let known := s.migq.any (fun g => g.part = w.part && g.vpage = w.vpage)
        || s.mig.any (fun g => g.1.part = w.part && g.1.vpage = w.vpage)
      if known then some (s.walkEnd test (.fault 3))
      else if 64 ≤ s.migq.length then none
      else some (State.walkEnd { s with migq := s.migq ++ [⟨w.part, w.vpage, w.l2, e⟩] } test (.fault 3))

/-- `WALK_TABLE_READ_REPLY` (13 R393 to R396, R400): `ue` says that a bus error comes from an uncorrectable entry. -/
def execWalkTableReadReply (k : Fin 16) (res : Reply) (ue : Bool) (s : State) : Host.Outcome State Fault Refusal :=
  .next (match s.walks.find? (fun w => w.onWalker k) with
    | none => s
    | some w =>
      let test := fun (x : Walk) => x.onWalker k
      let s1 := s.recvMsg (.reply (.walker k) w.tag res)
      match res with
      | .data d =>
        let e : Dword := d.setWidth 64
        (match w.stage with
        | .readL1 =>
          (match pte e true with
          | .table a =>
            let t := a + w.vpage % 32 * 8
            s1.walkRead k w.part t test (.readL2 a) t
          | _ => (s1.walkPage w test true e).getD s)
        | _ => (s1.walkPage w test false e).getD s)
      | _ => s1.walkEnd test (.ue (if ue then 0 else 2)))

/-- `WALK_READ_TIMEOUT` (13 R401). -/
def execWalkReadTimeout (k : Fin 16) (s : State) : Host.Outcome State Fault Refusal :=
  .next (if s.walks.any (fun w => w.onWalker k) then s.walkEnd (fun w => w.onWalker k) (.ue 1) else s)

/-! ### Results (13 R396, R400, R402 to R404) -/

/-- `UNIT`, `INST` and `INFO` of a requester's record (13 R403). -/
def State.xltWho (s : State) (r : WalkReq) : Nat × Nat × Nat :=
  match r.src with
  | .core c => (1, s.physLoc c, s.coreXltInfo c r.write)
  | .ladle v l => (2, v, ladleXltInfo v l r.write)
  | .specUnit v => (2, v, specXltInfo v)
  | .churn v => (2, v, churnXltInfo v r.write)
  | .redEntry v _ _ => (2, v, churnXltInfo v r.write)
  | _ => (2, 0, 0)

/-- The record of a refused page or of a table error (13 R404). -/
def State.xltRecord (s : State) (cls sub part : Nat) (r : WalkReq) : State :=
  let (u, i, n) := s.xltWho r
  s.fault { cls := cls, sub := sub, part := some part, unit := u, inst := i, addr := BitVec.ofNat 64 r.va, info := n }

/-- The vat of a requester that translates. -/
def reqVat : Agent → Nat
  | .core c => vatOf c
  | .ladle v _ => v
  | .churn v => v
  | .redEntry v _ _ => v
  | .specUnit v => v
  | _ => 0

/-- The waiting piece of a result that starts at an address fails. -/
def State.redPieceFail (s : State) (v e l va : Nat) : State :=
  let x := s.redLane v e l
  (s.setRedLane v e l { x with todo := x.todo.filter (fun p => p.va ≠ va) }).redFail v e l (BitVec.ofNat 64 va) true

/-- A posted store whose translation ended with a bus error completes with it (13 R400, 04 R126). -/
def State.storeFailed (s : State) (c va m : Nat) (zero : Bool) : State :=
  (s.updCore c (fun x => { x with storeErrs := x.storeErrs ++ [⟨if zero then 1 else 0, va / 64 * 64, m⟩] })).retire c

/-- Give a requester its result. -/
def State.walkDeliver (s : State) (part : Nat) (res : WalkRes) (r : WalkReq) : State :=
  let s := match res with
    | .deny sub => s.xltRecord 0x21 sub part r
    | .ue sub => s.xltRecord 0x22 sub part r
    | _ => s
  match r.src with
  | .core c =>
    if r.pref then
      match res with
      | .page .. =>
        if (s.core c).wantsPref (r.va / 64) then
          match s.xlate (vatOf c) r.va false with
          | .ga ga s => s.sendPrefetch c (r.va / 64) ga
          | _ => s
        else s
      | _ => s
    else match (s.core c).walk with
      | some (va, wr, m, w) =>
        if va ≠ r.va then s
        else
          let s := s.updCore c (fun x => { x with walk := none })
          let op := bvBits w 26 6
          (match res with
          | .page .. => s
          | .fault reason => s.corePageFault c w va reason wr m
          | .deny _ => s.trapOn c w causeAccess 0 va m
          | .ue _ =>
            if op = 0x0C ∨ op = 0x13 then s.storeFailed c va m false
            else if op = 0x14 then s.storeFailed c va m true
            else s.trapOn c w causeBusError 0 va m)
      | none => s
  | .ladle v l =>
    (match res with
    | .page .. => State.ladlePump pumpFuel s v l
    | .fault reason =>
      let s := s.xltFault part 2 v r.va reason (ladleXltInfo v l r.write)
      let x := s.ladle v l
      s.setLadle v l { x with act := x.act.map (fun t => { t with hold := some r.va }) }
    | _ => s.ladleStop v l (if r.write then 2 else 1) none)
  | .churn v =>
    (match (s.churn v).run with
    | none => s
    | some x =>
      if x.wait ≠ some .walk then s
      else match res with
        | .page .. => s.setRun v (some { x with wait := none })
        | .fault reason => s.churnPageFault v r.va reason r.write
        | _ => s.progFault v x.pc)
  | .redEntry v e l =>
    (match res with
    | .page .. => s.redSend v e l
    | .fault reason => (s.xltFault part 2 v r.va reason (churnXltInfo v true)).redPieceFail v e l r.va
    | _ => s.redPieceFail v e l r.va)
  | .specUnit v =>
    (match res with
    | .page .. => s.specRun v
    | .fault reason => (s.xltFault part 2 v r.va reason (specXltInfo v)).specFault v 4
    | _ => s.specFault v 4)
  | _ => s

/-- `WALK_RESULT` (13 R397, R400, R402): the entry is installed in each vat that waits, then each waiter has its
outcome. -/
def execWalkResult (p : PartId) (vpage : BitVec 23) (s : State) : Host.Outcome State Fault Refusal :=
  .next (match s.walks.find? (fun w => w.part = p.val && w.vpage = vpage.toNat && (match w.stage with
      | .done _ => true
      | _ => false)) with
    | none => s
    | some w =>
      match w.stage with
      | .done res =>
        let s : State := { s with walks := s.walks.erase w }
        let vats := (w.reqs.map (fun r => reqVat r.src)).eraseDups
        let s := match res with
          | .page big ga wr tgt => vats.foldl (fun (s : State) v =>
              s.tlbFill v { vpage := if big then w.vpage / 32 * 32 else w.vpage, big := big, ga := ga, w := wr, tgt := tgt, ref := true }) s
          | _ => s
        w.reqs.foldl (fun s r => s.walkDeliver w.part res r) s
      | _ => s)

/-! ### Resumption (13 R405) -/

/-- The vats of a partition. -/
def State.vatsOf (s : State) (p : Nat) : List Nat := (List.range 64).filter (fun v => s.partOf v = some p)

/-- Resume the suspended tasks and held ladles of a partition whose faulting address a test picks (13 R405). -/
def State.xltResume (s : State) (p : Nat) (hit : Nat → Bool) : State :=
  (s.vatsOf p).foldl (fun s v =>
    let s := (List.range 64).foldl (fun (s : State) k =>
      match (s.core (64 * v + k)).wait with
      | some (.page va) => if hit va then s.resumeTask (64 * v + k) else s
      | _ => s) s
    (List.range 4).foldl (fun (s : State) l =>
      match (s.ladle v l).act with
      | some a => (match a.hold with
        | some va => if hit va then State.ladlePump pumpFuel (s.setAct v l { a with hold := none }) v l else s
        | none => s)
      | none => s) s) s

/-- `XLT_RESUME` (13 R405, R412). -/
def execXltResume (data : Dword) (s : State) : Host.Outcome State Fault Refusal :=
  .next (s.xltResume (bvBits data 48 6) (fun va => data.getLsbD 54 || va / 2 ^ 25 = bvBits data 25 23))

/-! ### Fault rings (13 R406, R407) -/

/-- The write of the oldest record of a partition ends: `PROD` advances, or the record is lost to the ring and goes to
the device fault queue. -/
def State.ringEnd (s : State) (p : Nat) (ok : Bool) : State :=
  match s.ringFirst p with
  | none => s
  | some r =>
    let s : State := { s with ringWrites := ringHead p (fun _ => none) s.ringWrites }
    let s := if ok then s.setFld XLT_FR_PROD.PROD ((s.fld XLT_FR_PROD.PROD p + 1) % 2 ^ 32) p
      else
        let s := s.bumpErr XLT_FR_LOST.COUNT p
        if r.both then s
        else
          let ws := r.words.take 3 ++ [(r.words.getD 3 0 &&& 0xFFFFFFFF) ||| (BitVec.ofNat 64 s.fqSeq <<< 32)]
          State.fqPut { s with fqSeq := (s.fqSeq + 1) % 2 ^ 32 } ws
    s.ringSend p

/-- `FAULT_RING_WRITE_ACK` (13 R406, R407): a ring in host memory is read back before `PROD` advances. -/
def execFaultRingWriteAck (p : PartId) (res : Reply) (s : State) : Host.Outcome State Fault Refusal :=
  .next (match s.ringFirst p with
    | none => s
    | some r =>
      match r.tag with
      | none => s
      | some t =>
        let s := s.recvMsg (.reply (.faultRing p) t res)
        if res = .busError then s.ringEnd p false
        else
          let ga := s.ringGa p (s.fld XLT_FR_PROD.PROD p)
          if !r.back ∧ (s.hostPath ga).isSome then
            State.send { s with xtag := s.xtag + 1, ringWrites := ringHead p (fun r => some { r with tag := some s.xtag, back := true }) s.ringWrites }
              (.req (.faultRing p) s.xtag (ga + 28) (.read 4))
          else s.ringEnd p true)

/-- `FAULT_RING_WRITE_TIMEOUT` (13 R407). -/
def execFaultRingWriteTimeout (p : PartId) (s : State) : Host.Outcome State Fault Refusal :=
  .next (match s.ringFirst p with
    | some r => if r.tag.isSome then s.ringEnd p false else s
    | none => s)

/-- `XLT_FR_CONS_WRITE` (13 R406): ignored backwards or past `PROD`. -/
def execXltFrConsWrite (p : PartId) (data : Dword) (s : State) : Host.Outcome State Fault Refusal :=
  let x := bvBits data 0 32
  let c := s.fld XLT_FR_CONS.CONS p
  .next (if (s.fld XLT_FR_PROD.PROD p + 2 ^ 32 - c) % 2 ^ 32 < (x + 2 ^ 32 - c) % 2 ^ 32 then s else s.setFld XLT_FR_CONS.CONS x p)

/-! ### Migration (13 R408) -/

/-- `XLT_MIG_TAIL_WRITE` (13 R413): ignored backwards or more than the ring past `HEAD`. -/
def execXltMigTailWrite (p : PartId) (data : Dword) (s : State) : Host.Outcome State Fault Refusal :=
  let x := bvBits data 0 32
  let h := s.fld XLT_MIG_HEAD.HEAD p
  let n := (x + 2 ^ 32 - h) % 2 ^ 32
  .next (if n < (s.fld XLT_MIG_TAIL.TAIL p + 2 ^ 32 - h) % 2 ^ 32 ∨ 2 ^ s.fld XLT_MIG_CFG.MLOG p < n then s
    else s.setFld XLT_MIG_TAIL.TAIL x p)

/-- A line of memory as a device requester sees it: what the memory holds, under the writes that its controller has
accepted. -/
def State.peekLine (s : State) (line : Nat) : Line :=
  let base := if line * 64 < 0x400000000 ∧ !s.validBit line then 0 else s.readBytes (line * 64) 64
  s.memq.foldl (fun d r => if r.line = line then (match r.write with
    | some (m, x) => mergeLine m d x
    | none => d) else d) base

/-- The 8 bytes at an aligned device physical address, as a device requester sees them. -/
def State.peek8 (s : State) (a : Nat) : Dword := BitVec.ofNat 64 (takeAt (s.peekLine (a / 64)) (a % 64 / 8 * 8) 8)

/-- Write bytes of a line through its home slice. -/
def State.pokeLine (s : State) (line : Nat) (m : Mask) (d : Line) (part : Option Nat) : State :=
  match s.place (line * 64) with
  | .scratch .. => { s with mem := Memory.write s.mem (line * 64) m.toNat d.toNat 64 }
  | p => match s.homeOf p (line * 64) with
    | some v => (s.crmWrite v line m d).memSend { home := v, id := none, line := line, write := some (m, d), part := part, rt := false
                                                  ga := BitVec.ofNat 64 (line * 64) }
    | none => s

/-- A migration ends (13 R408 step 6): the record, and on `SUB` 0 and 1 the waiters resume. The spec gives the record no
`UNIT` and `INST`, and no `INFO` where the ring held no frame: free values (log 3). -/
def State.migEnd (s : State) (g : MigPage) (sub : Nat) (frame : Option Nat) : State :=
  let s := State.fault { s with mig := none, free := s.free + 3 }
    { cls := 0x23, sub := sub, part := some g.part, unit := Config.freeNat s.free, inst := Config.freeNat (s.free + 2)
      addr := BitVec.ofNat 64 (g.vpage * 2 ^ 25)
      info := (frame.map (fun f => f / 2 ^ 25)).getD (Config.freeNat (s.free + 1)) }
  if sub = 0 ∨ sub = 1 then s.xltResume g.part (fun va => va / 2 ^ 25 = g.vpage) else s

/-- `MIGRATION_START` (13 R408 steps 2 and 3). -/
def execMigrationStart (s : State) : Host.Outcome State Fault Refusal :=
  .next (match s.mig, s.migq with
    | none, g :: rest =>
      let p := g.part
      let s : State := { s with migq := rest }
      let h := s.fld XLT_MIG_HEAD.HEAD p
      if h = s.fld XLT_MIG_TAIL.TAIL p then s.migEnd g 4 none
      else
        let frame := bvBits (s.peek8 (s.fld XLT_MIG_BASE.ADDR p * 8 + h % 2 ^ s.fld XLT_MIG_CFG.MLOG p * 8)) 25 23 * 2 ^ 25
        if !s.mayMap p false 0 0 frame then s.migEnd g 3 (some frame)
        else { s with mig := some (g, frame) }
    | _, _ => s)

/-- Fill a frame of 32 MiB with the lines that the host gave: `lines` lists those that are not zero. -/
def State.fillFrame (s : State) (frame : Nat) (lines : List (BitVec 19 × Line)) : State :=
  let lo := frame / 64
  let s : State := { s with
    mem := s.mem.filter (fun c => c.1 < frame || frame + 2 ^ 25 ≤ c.1)
    valid := if frame < 0x400000000 then
      (List.range 1024).foldl (fun m i => smSet 0 m (lo / 512 + i) (BitVec.allOnes 512)) s.valid else s.valid }
  let s := (List.range 64).foldl (fun (s : State) v => s.crmInvalidate v (fun l => lo ≤ l && l < lo + 2 ^ 19) true) s
  lines.foldl (fun (s : State) e => { s with mem := Memory.write s.mem ((lo + e.1.toNat) * 64) (2 ^ 64 - 1) e.2.toNat 64 }) s

/-- `MIGRATION_COPY_COMPLETE` (13 R408 steps 4 to 6, R414): `lines` holds the page's lines that are not zero, none a host
read that failed. -/
def execMigrationCopyComplete (lines : Option (List (BitVec 19 × Line))) (s : State) : Host.Outcome State Fault Refusal :=
  .next (match s.mig with
    | none => s
    | some (g, frame) =>
      match lines with
      | none => s.migEnd g 2 (some frame)
      | some ls =>
        let s := s.fillFrame frame ls
        if s.peek8 g.l2 ≠ g.entry then s.migEnd g 1 (some frame)
        else
          let e : Dword := (g.entry &&& 5) ||| BitVec.ofNat 64 frame
          let o := g.l2 % 64 / 8 * 8
          let s := s.pokeLine (g.l2 / 64) (byteMask o 8) (placeAt o e.toNat) (some g.part)
          let s := s.setFld XLT_MIG_HEAD.HEAD ((s.fld XLT_MIG_HEAD.HEAD g.part + 1) % 2 ^ 32) g.part
          (s.bump XLT_PC_MIG).migEnd g 0 (some frame))

/-! ### Shootdowns (13 R410, R411) -/

/-- The requests of a vat that have no reply yet. -/
def State.outstanding (s : State) (v : Nat) : List ReqId :=
  let cores := (List.range 64).flatMap (fun k =>
    let c := 64 * v + k
    let x := s.core c
    let far := (x.sb.filter (fun e => e.far)).length
    x.outst.map (fun o => .store c o.tag) ++ (List.range far).map (fun i => .store c (x.nextTag + i))
      ++ (match x.blk with
        | some b => [.load c b.fa b.rtime]
        | none => [])
      ++ x.pref.map (fun e => .pref c e.1 e.2))
  let ladles := (List.range 4).flatMap (fun l => match (s.ladle v l).queue, (s.ladle v l).act with
    | d :: _, some a => if d.isGlobal then [] else
        (match a.rd with
          | some (t, _) => [ReqId.ladle v l t]
          | none => []) ++ a.wrs.map (fun w => .ladle v l w.1)
    | _, _ => [])
  let churn := match (s.churn v).run with
    | some r => (match r.wait with
      | some (.ld _) => [ReqId.churn v r.count]
      | some .st => [.churn v r.count]
      | _ => [])
    | none => []
  let red := (List.range 1024).flatMap (fun i => (s.redLane v (i / 16) (i % 16)).out.map (fun o => ReqId.red v (i / 16) (i % 16) o.1))
  let spec := (s.spec v).outs.map (fun o => ReqId.spec v o.1) ++ (match (s.spec v).rb with
    | some (t, _) => [.spec v t]
    | none => [])
  cores ++ ladles ++ churn ++ red ++ spec

/-- `XLT_SHOOT` (13 R410 phases 1 to 3, R411): walks of the range start again, the vats drop their translations and their
cores' lines in the range, and each vat marks its cut. -/
def execXltShoot (data : Dword) (s : State) : Host.Outcome State Fault Refusal :=
  let p := bvBits data 48 6
  let scope := bvBits data 54 2
  let page := bvBits data 25 23
  let inPage := fun (x : Nat) => match scope with
    | 0 => x = page
    | 1 => x / 32 = page / 32
    | _ => true
  let inLine := fun (l : Nat) => inPage (l / 2 ^ 19)
  .next (if s.bit XLT_SHOOT_STAT.BUSY ∨ scope = 3 then s.setFld XLT_SHOOT_STAT.REJ 1
    else
      let s := s.setFld XLT_SHOOT_STAT.BUSY 1
      let s := s.updWalk (fun w => w.part = p && (inPage w.vpage || scope = 0 && w.vpage / 32 = page / 32)) (fun w => { w with stage := .queued })
      let vats := s.vatsOf p
      let s := vats.foldl (fun (s : State) v =>
        let s := s.tlbRemove v (fun e => inPage e.vpage || (e.big && scope = 0 && e.vpage / 32 = page / 32))
        (List.range 64).foldl (fun (s : State) k =>
          let c := 64 * v + k
          if (smFind s.cores c).isNone then s
          else s.updCore c (fun x =>
            let x := (x.invalidate (fun e => inLine e.line) true).clearSide inLine
            { x with blk := x.blk.map (fun b => { b with noFill := b.noFill || inPage (b.fa / 2 ^ 25) }) })) s) s
      { s with shoot := vats.map (fun v => (v, s.outstanding v)) })

/-- `SHOOTDOWN_VAT_DRAINED` (13 R410 phase 4): none of the requests from before the vat's cut is outstanding. -/
def execShootdownVatDrained (v : VatId) (s : State) : Host.Outcome State Fault Refusal :=
  .next (match s.shoot.find? (fun e => e.1 = v.val) with
    | some e =>
      let now := s.outstanding v
      if e.2.any (fun r => now.contains r) then s else { s with shoot := s.shoot.erase e }
    | none => s)

/-- `SHOOTDOWN_COMPLETE` (13 R410 phase 5, R414). -/
def execShootdownComplete (s : State) : Host.Outcome State Fault Refusal :=
  .next (if s.bit XLT_SHOOT_STAT.BUSY ∧ s.shoot = [] then
      ((s.setFld XLT_SHOOT_STAT.BUSY 0).setFld XLT_SHOOT_STAT.DONE 1).bump XLT_PC_SHOOT
    else s)

end Sys2Proof.Machine
end

