-- ==== Sys2Proof/Machine/Fabric.lean ====
section
/-! DEFINITION. Decyth fabric: the link layer of a port, width changes, delivery and transit of packets, and requests from
other devices (15 R449 to R482). -/

namespace Sys2Proof.Machine

open Sys2Proof

/-! ### Violations (15 R478) -/

/-- A violation that counts toward quarantine. -/
def State.quarantine (s : State) (p : Nat) : State :=
  let x := s.port p
  let c := countIn x.viol (s.fld MC_TSC.COUNT / 100000)
  let s := s.setPort p { x with viol := c }
  if c.2 = max 1 (s.fld MC_FAB_CTL.VIOL_LIM) then s.portHold p 2 else s

/-- A sequence error: units are discarded until a correct `REPLAY`; four in 1 ms force a retrain. -/
def State.seqViolation (s : State) (p : Nat) : State :=
  let x := s.port p
  let c := countIn x.seqErr (s.fld MC_TSC.COUNT / 100000)
  let s := s.setPort p { x with seqErr := c, discard := true }
  let s := s.bumpErr LNK_FAB_ERR1.SEQ_ERR p
  (if c.2 = 4 then s.askRetrain p else s).quarantine p

/-! ### The unit stream of a port (15 R449, R454) -/

/-- The next unit that a port takes from its lanes, with its mark *bad*. -/
def State.nextUnit (s : State) (p : Nat) : Option (BitVec 257 × Bool) := (s.ln p (s.port p).rxLane).rxq.head?

/-- Take that unit. -/
def State.takeUnit (s : State) (p : Nat) : State :=
  let x := s.port p
  let y := s.ln p x.rxLane
  (s.setLn p x.rxLane { y with rxq := y.rxq.drop 1 }).setPort p { x with rxLane := nextLane x.rxMask x.rxLane }

/-- A control unit is the next unit of a port in `ACTIVE`: its bits meet the condition (log 7). -/
def State.onControl (s : State) (p : Nat) (is : BitVec 257 → Bool) (act : State → State) : State :=
  match s.nextUnit p with
  | some (u, false) => if s.portState p = 6 ∧ u.getLsbD 256 ∧ is u then act (s.takeUnit p) else s
  | _ => s

/-- A control unit of a type with a 16-bit field. -/
def isControl (ctype : Nat) (x : Nat) (u : BitVec 257) : Bool := bvBits u 0 4 = ctype && bvBits u 4 16 = x

/-! ### Sequence numbers, replay and credits (15 R455, R456) -/

/-- The number of the oldest unit in the replay buffer. -/
def PortSt.oldest (x : PortSt) : Nat := (x.txSeq + 65536 - x.replay.length) % 65536

/-- Does a number name a unit never sent? -/
def PortSt.neverSent (x : PortSt) (n : Nat) : Bool :=
  x.replay.length < (n + 65536 - x.oldest) % 65536 && (n + 65536 - x.txSeq) % 65536 < 32768

/-- The packets whose last unit is acknowledged leave their link. -/
def State.acked (s : State) (p : Nat) (ds : List DUnit) : State :=
  let g := s.portGrp p
  let x := s.link g
  let ends := ds.filterMap (fun d => d.last)
  let drop := fun (l : List (Nat × Pkt)) (d : Nat × Nat) =>
    match l.find? (fun e => e.1 = p && e.2.vc = d.1 && e.2.lseq = d.2) with
    | some e => l.erase e
    | none => l
  (s.setLink g { x with unacked := ends.foldl drop x.unacked }).linkPump g

/-- `ACK` (15 R455, R478). -/
def execAck (p : PortId) (seq : BitVec 16) (s : State) : Host.Outcome State Fault Refusal :=
  .next (s.onControl p (isControl 2 seq.toNat) (fun s =>
    let x := s.port p
    let d := (seq.toNat + 65536 - x.oldest) % 65536
    if x.neverSent seq.toNat then s.seqViolation p
    else if d = 0 ∨ x.replay.length < d then s
    else
      let s := s.setPort p { x with replay := x.replay.drop d, stalls := 0 }
      (s.acked p (x.replay.take d)).portPump p))

/-- `NACK` (15 R455, R478). -/
def execNack (p : PortId) (seq : BitVec 16) (s : State) : Host.Outcome State Fault Refusal :=
  .next (s.onControl p (isControl 3 seq.toNat) (fun s =>
    let x := s.port p
    let d := (seq.toNat + 65536 - x.oldest) % 65536
    if x.neverSent seq.toNat then s.seqViolation p
    else if x.replay.length < d then s
    else s.setPort p (x.replayFrom d)))

/-- `REPLAY` (15 R455, R478): a number from the last 8,192 is expected (log 18). -/
def execReplay (p : PortId) (seq : BitVec 16) (s : State) : Host.Outcome State Fault Refusal :=
  .next (s.onControl p (isControl 4 seq.toNat) (fun s =>
    let x := s.port p
    if (x.rxNext + 65536 - seq.toNat) % 65536 ≤ 8192 then s.setPort p { x with rxSeq := seq.toNat, discard := false }
    else s.seqViolation p))

/-- `CREDIT` (15 R454, R456, R478). -/
def execCredit (p : PortId) (pool : BitVec 3) (count : BitVec 13) (s : State) : Host.Outcome State Fault Refusal :=
  .next (s.onControl p (isControl 5 (pool.toNat + count.toNat * 8)) (fun s =>
    if 6 ≤ pool.toNat then (s.bumpErr LNK_FAB_ERR0.BAD_CU p).quarantine p
    else
      let x := s.port p
      (s.setPort p { x with credit := x.credit.set pool.toNat count.toNat }).portPump p))

/-- `IDLE` (15 R454). -/
def execIdle (p : PortId) (s : State) : Host.Outcome State Fault Refusal :=
  .next (s.onControl p (fun u => bvBits u 0 4 = 1) id)

/-- `CONTROL_UNIT_RESERVED` (15 R454, R478). -/
def execControlUnitReserved (p : PortId) (bits : BitVec 256) (s : State) : Host.Outcome State Fault Refusal :=
  .next (s.onControl p (fun u => u.setWidth 256 = bits && (bvBits u 0 4 = 0 || 9 ≤ bvBits u 0 4)) (fun s =>
    (s.bumpErr LNK_FAB_ERR0.BAD_CU p).quarantine p))

/-- `LINK_REPLAY_TIMEOUT` (15 R455): the fourth without progress asks for a retrain. -/
def execLinkReplayTimeout (p : PortId) (s : State) : Host.Outcome State Fault Refusal :=
  let x := s.port p
  .next (if s.portState p ≠ 6 ∨ x.replay = [] then s
    else
      let s := s.setPort p { x.replayFrom 0 with stalls := x.stalls + 1 }
      if 4 ≤ x.stalls + 1 then s.askRetrain p else s)

/-- Queue the latest of a kind of control unit: one not yet sent is replaced. -/
def PortSt.latest (x : PortSt) (same : BitVec 257 → Bool) (u : BitVec 257) : PortSt :=
  { x with txq := x.txq.filter (fun e => !(e.1.getLsbD 256 && same e.1)) ++ [(u, false)] }

/-- Units of a pool are freed, which a `CREDIT` says (15 R456). -/
def State.freeUnits (s : State) (p pool n : Nat) : State :=
  let x := s.port p
  if 6 ≤ pool then s
  else
    let f := (x.freed.getD pool 0 + n) % 8192
    let x := { x with held := x.held.set pool (x.held.getD pool 0 - n), freed := x.freed.set pool f }
    s.setPort p (x.latest (fun u => bvBits u 0 4 = 5 && bvBits u 4 3 = pool) (controlUnit 5 (pool + f * 8)))

/-- A packet is complete at a port (15 R463, R478): its link keeps it until its turn. -/
def State.packetIn (s : State) (p : Nat) (us : List (BitVec 256)) : State :=
  let k := { pktOf (us.headD 0) with pay := us.drop 1 }
  if k.vc = 3 then (s.bumpErr LNK_FAB_ERR0.BAD_PKT p).quarantine p
  else
    let g := s.portGrp p
    let x := s.link g
    let d := (k.lseq + 4096 - x.exp.getD k.vc 0) % 4096
    if d < 1024 ∧ !x.rx.any (fun e => e.2.vc = k.vc && e.2.lseq = k.lseq) then s.setLink g { x with rx := x.rx ++ [(p, k)] }
    else
      let s := s.freeUnits p k.pool us.length
      if d < 1024 ∨ 3072 ≤ d then s
      else ((s.bumpErr LNK_FAB_ERR1.SEQ_ERR p).askRetrain p).quarantine p

/-- Discard units until a `REPLAY`, and ask for one. -/
def State.sendNack (s : State) (p : Nat) : State :=
  let s := s.setPort p { s.port p with discard := true }
  s.sendControl p (controlUnit 3 (s.port p).rxNext)

/-- `LINK_DATA_UNIT_RECEIVE` (15 R450, R455, R456, R478). -/
def execLinkDataUnitReceive (p : PortId) (bits : BitVec 256) (bad : Bool) (s : State) : Host.Outcome State Fault Refusal :=
  .next (match s.nextUnit p with
    | none => s
    | some (u, b) =>
      if s.portState p ≠ 6 ∨ b ≠ bad ∨ (!bad ∧ u ≠ bits.setWidth 257) then s
      else
        let s := s.takeUnit p
        let x := s.port p
        if x.discard then s
        else if bad then s.sendNack p
        else if x.rxSeq ≠ x.rxNext then s.setPort p { x with rxSeq := (x.rxSeq + 1) % 65536 }
        else
          let us := x.asm ++ [bits]
          let k := pktOf (us.headD 0)
          if k.vc < 3 ∧ 1024 ≤ x.held.getD k.pool 0 then
            ((s.bumpErr LNK_FAB_ERR1.CREDIT_VIOL p).sendNack p).quarantine p
          else
            let n := (x.rxNext + 1) % 65536
            let whole := us.length = 1 + k.npay
            let x := { x with
              rxNext := n, rxSeq := n, asm := if whole then [] else us
              held := if k.vc < 3 then x.held.set k.pool (x.held.getD k.pool 0 + 1) else x.held }
            let s := s.setPort p (x.latest (fun u => bvBits u 0 4 = 2) (controlUnit 2 n))
            let s := s.bump LNK_FAB_PC_RXU p
            if whole then s.packetIn p us else s)

/-! ### Width (15 R460, R461) -/

/-- May a mask be proposed? -/
def State.maskOk (s : State) (p : Nat) (m : BitVec 8) : Bool :=
  let x := s.port p
  m ≠ 0 && m &&& x.txMask = m && s.fld LNK_FAB_CTL.MIN_W p ≤ laneCount m

/-- An end that holds a `WACK` for a mask sends `WSW`. -/
def State.switchTo (s : State) (p : Nat) (m : BitVec 8) : State :=
  let x := s.port p
  if x.agreed = some m then s
  else (s.setPort p { x with agreed := some m, prop := none, wswSent := false, wswTaken := false }).sendControl p (controlUnit 8 0)

/-- Does this end's proposal stand against its partner's? The higher device ID's, with equal ones the lower port's. -/
def State.propStands (s : State) (p : Nat) : Bool :=
  let r := s.portRec p
  r.peerDev < s.devId || (r.peerDev = s.devId && p < r.peerPort)

/-- `WREQ` (15 R460, R461, R478). -/
def execWreq (p : PortId) (mask : BitVec 8) (s : State) : Host.Outcome State Fault Refusal :=
  .next (s.onControl p (fun u => bvBits u 0 4 = 6 && bvBits u 4 8 = mask.toNat) (fun s =>
    let x := s.port p
    let answer := fun (s : State) (m : BitVec 8) => s.sendControl p (controlUnit 7 m.toNat)
    match x.agreed with
    | some m => answer s m
    | none =>
      if !s.maskOk p mask then answer (s.bumpErr LNK_FAB_ERR0.BAD_CU p) x.txMask
      else if x.prop.any (fun m => m ≠ mask) ∧ s.propStands p then s
      else (answer s mask).switchTo p mask))

/-- `WACK` (15 R460). -/
def execWack (p : PortId) (mask : BitVec 8) (s : State) : Host.Outcome State Fault Refusal :=
  .next (s.onControl p (fun u => bvBits u 0 4 = 7 && bvBits u 4 8 = mask.toNat) (fun s =>
    let x := s.port p
    if x.prop = some mask then s.switchTo p mask else s.setPort p { x with prop := none }))

/-- `WSW` (15 R460). -/
def execWsw (p : PortId) (s : State) : Host.Outcome State Fault Refusal :=
  .next (s.onControl p (fun u => bvBits u 0 4 = 8) (fun s =>
    let x := s.port p
    match x.agreed with
    | none => s
    | some m => s.setPort p ({ x with rxMask := m, rxLane := lowLane m, wswTaken := true }).narrowEnd))

/-- `WREQ_RESEND_TIMEOUT` (15 R460). -/
def execWreqResendTimeout (p : PortId) (s : State) : Host.Outcome State Fault Refusal :=
  .next (match (s.port p).prop with
    | some m => if s.portState p = 6 then s.sendControl p (controlUnit 6 m.toNat) else s
    | none => s)

/-- `LNK_FAB_WMASK` (15 R460, R461): ignored for a mask that breaks the rule, and while a narrowing runs. -/
def execLnkFabWmask (p : PortId) (mask : BitVec 8) (s : State) : Host.Outcome State Fault Refusal :=
  let x := s.port p
  .next (if s.portState p ≠ 6 ∨ x.prop.isSome ∨ x.agreed.isSome ∨ !s.maskOk p mask then s
    else (s.setPort p { x with prop := some mask }).sendControl p (controlUnit 6 mask.toNat))

/-! ### Hold and retrain (15 R458, R459) -/

/-- `HELD_RETRAIN_TIMER` (15 R458). -/
def execHeldRetrainTimer (p : PortId) (s : State) : Host.Outcome State Fault Refusal :=
  let h := s.fld LNK_FAB_STAT.HOLD p
  .next (if s.portState p = 11 ∧ (h = 1 ∨ h = 4) then s.sendRetrain p else s)

/-- `LNK_FAB_RELEASE` (15 R458). -/
def execLnkFabRelease (p : PortId) (s : State) : Host.Outcome State Fault Refusal :=
  .next (if s.portState p = 11 then (s.setFld LNK_FAB_STAT.HOLD 0 p).sendRetrain p else s)

/-- `LNK_FAB_HOLD` (15 R458). -/
def execLnkFabHold (p : PortId) (s : State) : Host.Outcome State Fault Refusal := .next (s.portHold p 5)

/-- `LNK_FAB_RETRAIN` (15 R459). -/
def execLnkFabRetrain (p : PortId) (s : State) : Host.Outcome State Fault Refusal := .next (s.askRetrain p)

/-! ### Delivery, transit and answers (15 R453, R463 to R468, R474) -/

/-- Is a header malformed (15 R478)? -/
def Pkt.malformed (k : Pkt) : Bool :=
  k.res ≠ 0 || !(match k.type with
    | 1 => k.vc = 0 && k.npay = 0
    | 2 => k.vc = 0 && (k.npay = 2 || k.npay = 4 || k.npay = 6 || k.npay = 8)
    | 3 => k.vc = 0 && k.npay = 0
    | 4 => k.vc = 1 && k.npay = 2
    | 5 => k.vc = 1 && k.npay = 0
    | 6 => k.vc = 1 && k.npay = 0
    | 7 => k.vc = 1 && k.npay = 0
    | 8 => k.vc = 2 && 1 ≤ k.npay && k.npay ≤ 4
    | 9 => k.vc = 0 && k.npay = 1
    | _ => false)

/-- The payload of a packet as a number. -/
def Pkt.data (k : Pkt) : Nat := k.pay.foldr (fun u a => u.toNat + a * 2 ^ 256) 0

/-- A response without data to a request. -/
def State.respond (s : State) (k : Pkt) (type : Nat) (arg : Dword) : State :=
  s.linkSendOr { type := type, vc := 1, rt := k.rt, dst := k.src, src := s.devId, spart := k.spart, txn := k.txn, arg := arg } none

/-- An error response to a request (15 R453). -/
def State.respondErr (s : State) (k : Pkt) (reason : Nat) : State :=
  if k.isReq then s.respond k 7 (BitVec.ofNat 64 reason) else s

/-- A packet for another device is routed on (15 R468). -/
def State.transit (s : State) (p : Nat) (k : Pkt) : State :=
  if max 1 (s.fld MC_FAB_CTL.HOP_LIM) ≤ k.hops then (s.bumpErr LNK_FAB_ERR2.HOPS p).respondErr k 6
  else match s.linkSend { k with hops := k.hops + 1 } (some p) with
    | some s => s.bump LNK_FAB_PC_TRANSIT p
    | none => (s.bumpErr LNK_FAB_ERR3.NOROUTE p).respondErr k 1

/-- A response meets its slot (15 R465). -/
def State.fabAnswer (s : State) (p : Nat) (k : Pkt) : State :=
  match s.fabSlots.find? (fun e => e.txn = k.txn) with
  | none => s.bumpErr LNK_FAB_ERR2.LATE_RSP p
  | some e =>
    let d := k.data / 2 ^ (8 * bvBits e.ga 0 6)
    let r : Reply := match k.type with
      | 4 => if e.reg then .word (BitVec.ofNat 64 d) else .data (BitVec.ofNat 512 d)
      | 5 => .done
      | 6 => .word (k.arg &&& 0xFFFFFFFF)
      | _ => .busError
    let s := { s with fabSlots := s.fabSlots.erase e }
    (match e.src with
      | some (a, t) => if r = Reply.busError then
          s.failReply a t (if 1 ≤ k.arg.toNat ∧ k.arg.toNat ≤ 7 then k.arg.toNat else 3)
        else s.put (.reply a t r)
      | none => s).fabPump

/-- A partial arrives for the home vat of its tag in the partition of its sender (15 R474, R478, 05 R183). -/
def State.partialIn (s : State) (p : Nat) (k : Pkt) : State :=
  let (q, bad) := partialOfBytes (32 * k.npay) k.data
  let s := if bad then (s.bumpErr LNK_FAB_ERR3.BAD_PART p).quarantine p else s
  let q := if bad then partialSanitised q else q
  if s.partOf (tagVat q.tag) = some k.spart then s.put (.part (65536 + k.src) q) else s

/-! ### Packets of a twin (20 R609, R610) -/

/-- A breach of the partner's that counts toward quarantine. -/
def State.twinBad (s : State) (p : Nat) : State := (s.bumpErr TWIN_ERR1.BAD_PKT).quarantine p

/-- Is a packet on a twin port malformed (20 R609, R610)? -/
def Pkt.twinMalformed (k : Pkt) : Bool :=
  let plain := k.addr = 0 && k.arg = 0 && k.txn = 0
  k.res ≠ 0 || k.spart ≠ 0x40 || k.aop ≠ 0 || k.hops ≠ 0 || k.rt || !(match k.type with
    | 2 => k.vc = 0 && (k.npay = 2 || k.npay = 4 || k.npay = 6 || k.npay = 8)
    | 5 => k.vc = 1 && k.npay = 0 && k.addr = 0 && k.arg = 0
    | 7 => k.vc = 1 && k.npay = 0 && k.addr = 0
    | 0xA => k.vc = 0 && k.npay = 1 && plain && bvBits (k.pay.headD 0) 2 6 = 0
    | 0xB => k.vc = 0 && k.npay = 0 && k.addr = 0 && k.txn = 0 && 1 ≤ k.arg.toNat && k.arg.toNat ≤ 6
    | _ => false)

/-- The records of a signature packet that are valid. -/
def Pkt.twinRecs (k : Pkt) : List (BitVec 124) :=
  let u := k.pay.headD 0
  (if u.getLsbD 0 then [(u >>> 8).setWidth 124] else []) ++ (if u.getLsbD 1 then [(u >>> 132).setWidth 124] else [])

/-- Does a record keep the rules of 20 R598? -/
def twinRecOk (r : BitVec 124) : Bool := !r.getLsbD 123 && bvBits r 6 8 ≤ 128 && bvBits r 46 13 ≠ 0

/-- A sync write is answered; one that failed will fail the synchronisation (20 R607). -/
def State.twinAck (s : State) (ok : Bool) : State :=
  match s.twinSync with
  | some x => if ok then { s with twinSync := some { x with left := x.left - 1 } }
    else { s with twinSync := some { x with bad := true } }
  | none => s

/-- A packet on a twin port (20 R599, R609, R610). Records and sync writes hold their units until they are taken. -/
def State.twinReceive (s : State) (p : Nat) (k : Pkt) : State :=
  let free := fun (s : State) => if s.usable p then s.freeUnits p k.pool (1 + k.pay.length) else s
  if k.twinMalformed ∨ k.dst ≠ s.devId ∨ k.src ≠ s.twinPartner ∨ s.img.twin.isNone then (free s).twinBad p
  else match k.type with
    | 0xA =>
      let rs := k.twinRecs
      let good := rs.filter twinRecOk
      let s := if good = [] then free s
        else { s with twinIn := s.twinIn ++ (good.zip (List.range good.length)).map (fun (r, i) => (p, r, i + 1 = good.length)) }
      (rs.filter (fun r => !twinRecOk r)).foldl (fun s _ => s.twinBad p) s
    | 0xB => let s := free s; { s with twinNotes := s.twinNotes ++ [(p, k.arg.toNat)] }
    | 2 =>
      if s.fld TWIN_STAT.STATE = 2 ∧ s.twinSync.any (fun x => x.sink && !x.nocopy) then { s with twinWr := s.twinWr ++ [(p, k)] }
      else ((free s).twinSend { s.twinPkt 7 1 with txn := k.txn, arg := 2 }).bumpErr TWIN_ERR1.BAD_PKT
    | t => (free s).twinAck (t = 5)

/-- `FABRIC_PACKET_RECEIVE` (15 R463, R467, R468, R478): the link of port `p` delivers the next packet of a `VC`. -/
def execFabricPacketReceive (p : PortId) (vc : Fin 3) (s : State) : Host.Outcome State Fault Refusal :=
  let g := s.portGrp p
  let x := s.link g
  let n := x.exp.getD vc 0
  .next (match x.rx.find? (fun e => e.2.vc = vc.val && e.2.lseq = n) with
    | none => s
    | some (q, k) =>
      let s := s.setLink g { x with rx := x.rx.erase (q, k), exp := x.exp.set vc ((n + 1) % 4096) }
      if (s.portRec q).use = 2 then s.twinReceive q k
      else
      let s := if s.usable q then s.freeUnits q k.pool (1 + k.pay.length) else s
      if k.malformed then (s.bumpErr LNK_FAB_ERR0.BAD_PKT q).quarantine q
      else if k.dst ≠ s.devId then s.transit q k
      else if k.isReq then { s with remq := s.remq ++ [(q, k)] }
      else if k.type = 8 then s.partialIn q k
      else s.fabAnswer q k)

/-- `LINK_REQUEST_SLOT_TIMEOUT` (15 R465). -/
def execLinkRequestSlotTimeout (txn : BitVec 16) (s : State) : Host.Outcome State Fault Refusal :=
  .next (match s.fabSlots.find? (fun e => e.txn = txn.toNat) with
    | none => s
    | some e =>
      let s := { s with fabSlots := s.fabSlots.erase e }
      (match e.src with
        | some (a, t) => s.failReply a t 3
        | none => s).fabPump)

/-- `FAB_ROUTE_WRITE` (15 R467, R480): the device's own entry cannot be made valid. -/
def execFabRouteWrite (dev : BitVec 14) (data : Dword) (s : State) : Host.Outcome State Fault Refusal :=
  let d := data &&& 0x1FFFFFFFFFFFF
  .next (s.setReg MC_FAB_RT (if dev.toNat = s.devId then d &&& 0xFFFFFFFFFFFF else d) dev.toNat)

/-! ### Requests from other devices (15 R471, R472) -/

/-- The partition that a device physical address belongs to. -/
def State.ownerOf (s : State) (a : Nat) : Option Nat :=
  match s.place a with
  | .crock .. => (s.crockRegion (a / 2 ^ 25)).map (fun r => r.part)
  | .cellar pos off => (s.cellarRegion pos off).map (fun r => r.part)
  | .scratch n _ => if s.fld VAT_CRM_CFG.SCR_PART n < 64 then some (s.fld VAT_CRM_CFG.SCR_PART n) else none
  | .core c _ => s.partOf (vatOf c)
  | .host off => (s.hostEntry off).map (fun w => s.fld HOST_WIN_CFG.OWNER w)
  | _ => none

/-- Is a request of a partition, or of a device's management core or host (64), admitted to an address (15 R471)? -/
def State.remAdmit (s : State) (spart : Nat) (ga : Dword) : Bool :=
  match s.target ga with
  | .here a =>
    (match s.place a with
    | .crock .. => spart = 64 || s.reachUnit spart a
    | .cellar .. => spart = 64 || s.reachUnit spart a
    | .scratch n _ => spart = 64 || s.fld VAT_CRM_CFG.SCR_PART n = spart
    | .core c _ => spart = 64 || s.partOf (vatOf c) = some spart
    | .host off => bvBits ga 62 2 = 2 && (s.hostEntry off).any (fun w => s.fld HOST_WIN_CFG.OWNER w = spart)
    | _ => false)
  | _ => false

/-- The speculation unit that a message reaches: the partition has one with `ROLE` 1 or 2. -/
def State.remUnit (s : State) (spart : Nat) : Option Nat :=
  (s.anchor spart).bind (fun v => if s.specRole v = 1 ∨ s.specRole v = 2 then some v else none)

/-- The lines of a request: address and operation of each. -/
def Pkt.lines (k : Pkt) : List (Dword × MemOp) :=
  match k.type with
  | 1 => [(k.addr, .read 64)]
  | 2 => (List.range (k.npay / 2)).map (fun i =>
    (k.addr + BitVec.ofNat 64 (64 * i),
      .write (if k.npay = 2 then k.arg else BitVec.allOnes 64) (BitVec.ofNat 512 (k.data / 2 ^ (512 * i)))))
  | _ => [(k.addr, .atomic k.aop (k.arg.setWidth 32) ((k.arg >>> 32).setWidth 32))]

/-- An admitted request goes to its home (15 R471). -/
def State.remServe (s : State) (k : Pkt) : State :=
  let ls := k.lines
  let tags := (List.range ls.length).map (fun i => s.remTag + i)
  let s := { s with remote := s.remote ++ [{ pkt := k, tags := tags }], remTag := s.remTag + ls.length }
  (ls.zip tags).foldl (fun s (e : (Dword × MemOp) × Nat) => s.send (.req (.fabric k.src k.spart) e.2 e.1.1 e.1.2)) s

/-- `REMOTE_REQUEST` (15 R453, R471, R472, R478): the oldest request of a device. -/
def execRemoteRequest (src : BitVec 14) (txn : BitVec 16) (s : State) : Host.Outcome State Fault Refusal :=
  .next (match s.remq.find? (fun e => e.2.src = src.toNat) with
    | none => s
    | some (p, k) =>
      if k.txn ≠ txn.toNat then s
      else
        let s := { s with remq := s.remq.erase (p, k) }
        let owner := match s.target k.addr with
          | .here a => if k.type = 9 then none else s.ownerOf a
          | _ => none
        let deny := fun (s : State) => (s.lnkRecord 0x39 p (k.src + k.spart * 2 ^ 14)).respondErr k 2
        if s.fatal then s.respondErr k 5
        else if 64 < k.spart then ((s.bumpErr LNK_FAB_ERR0.BAD_PKT p).respondErr k 2).quarantine p
        else if s.reloading.isSome ∧ (s.reloading = some k.spart ∨ s.reloading = owner) then s.respondErr k 4
        else if k.type = 9 then
          (match s.remUnit k.spart with
          | some v => (s.put (.spec s.devId v (specOfCode (Config.specWordsOf (k.pay.headD 0))))).respond k 5 0
          | none => deny s)
        else if !k.lines.all (fun l => s.remAdmit k.spart l.1) then deny s
        else if k.type = 3 ∧ 9 < k.aop then s.respondErr k 3
        else s.remServe k)

end Sys2Proof.Machine
end

