-- ==== Sys2Proof/Machine/RegSpace.lean ====
section
/-! DEFINITION. Register space (00 R12, R16, 01 R40): which register, instance and field an offset names. -/

namespace Sys2Proof.Machine

open Sys2Proof

/-- The indices that an offset within an array of registers names, with what is left of it. -/
def splitDims : List (Nat × Nat) → Nat → Option (List Nat × Nat)
  | [], o => some ([], o)
  | (stride, count) :: ds, o =>
    if o / stride < count then (splitDims ds (o % stride)).map (fun r => (o / stride :: r.1, r.2)) else none

/-- A register that an offset lies in: its fields, its indices and the byte within it. -/
structure RegAt where
  reg : Reg
  flds : List Fld
  i : Nat
  j : Nat
  k : Nat
  byte : Nat
  deriving DecidableEq, Repr

/-- Does an offset lie in a register of this entry of the table? -/
def regMatch (off : Nat) (e : Reg × List Fld) : Option RegAt :=
  if off < e.1.base then none
  else match splitDims e.1.dims (off - e.1.base) with
    | none => none
    | some (ix, b) => if b < e.1.width / 8 then some ⟨e.1, e.2, ix.getD 0 0, ix.getD 1 0, ix.getD 2 0, b⟩ else none

/-- The window of face site s's interrupt target, 9 + s, also appears in the site's block (17 R538). -/
def regAlias (off : Nat) : Nat :=
  let o := off % 0x10000
  if 0xC00000 ≤ off ∧ off < 0xC60000 ∧ 0x1000 ≤ o ∧ o < 0x3000 then
    0x210000 + (9 + (off - 0xC00000) / 0x10000) * 0x2000 + (o - 0x1000)
  else off

/-- The register that an offset lies in, if any. -/
def regFind (off : Nat) : Option RegAt := regTable.findSome? (regMatch (regAlias off))

/-- Is an offset inside a block (01 R40)? -/
def inBlock (off : Nat) : Bool :=
  off < 0x700000 || (0x800000 ≤ off && off < 0xC60000) || (0xD00000 ≤ off && off < 0x5000000)

/-- The instances of vats and cellar positions (01 R41): the vat or position that an offset belongs to. -/
def State.regGone (s : State) (off : Nat) : Bool :=
  if 0x1000000 ≤ off then s.bit MC_DEF_VAT.WITHDRAWN ((off - 0x1000000) / 0x100000)
  else if 0x800000 ≤ off ∧ off < 0xA00000 then s.img.configured && !s.img.cellarPop.getLsbD ((off - 0x800000) / 0x40000)
  else false

/-- What an access of `size` bytes at an offset finds (00 R12, R16, 01 R41). -/
inductive RegHit where
  | error
  | empty
  | at (r : RegAt)
  deriving DecidableEq, Repr

/-- Check an access to register space. -/
def State.regHit (s : State) (off size : Nat) : RegHit :=
  if !inBlock off ∨ !(size = 4 ∨ size = 8) ∨ off % size ≠ 0 then .error
  else if s.regGone off then .empty
  else match regFind off with
    | none => if size = 8 ∧ (regFind (off + 4)).isSome then .error else .empty
    | some r => if r.byte = 0 ∧ r.reg.width = 8 * size then .at r else .error

/-- May a partition reach a register-space page (03 R91, 16 R492)? -/
def State.mapped (s : State) (p off : Nat) (write : Bool) : Bool :=
  s.img.regmap.any (fun e => e.part = p && e.offset / 65536 = off / 65536 && (e.rw || !write))

end Sys2Proof.Machine
end

