-- ==== Sys2Proof/Machine/Face.lean ====
section
/-! DEFINITION. Face sites: beats and slices, flow control, guest requests and their rights, and the states of a site
(16 R483 to R501, 18 R543). -/

namespace Sys2Proof.Machine

open Sys2Proof

/-! ### Beats (16 R484, R487, R489) -/

/-- One bit of the check code: x^8 + x^2 + x + 1. -/
def crc8Bit (c : BitVec 8) (b : Bool) : BitVec 8 := if c.getLsbD 7 != b then (c <<< 1) ^^^ 7#8 else c <<< 1

/-- The check bits of a beat (16 R484): over the data, then `FR`, bit 0 first. -/
def crc8 (d : BitVec 128) (fr : BitVec 2) : BitVec 8 :=
  [fr.getLsbD 0, fr.getLsbD 1].foldl crc8Bit ((List.range 128).foldl (fun c i => crc8Bit c (d.getLsbD i)) 0#8)

/-- A beat as Bodra sends it. -/
def mkBeat (d : BitVec 128) (fr : BitVec 2) : Beat := ⟨d, fr, crc8 d fr⟩

/-- The beats of a packet: the first is marked. -/
def packetBeats (k : List (BitVec 128)) : List Beat :=
  match k with
  | [] => []
  | h :: ds => mkBeat h 1 :: ds.map (fun d => mkBeat d 0)

/-- A control beat. -/
def controlBeat (ctype fields : Nat) : Beat := mkBeat (BitVec.ofNat 128 (ctype + fields * 16)) 2

/-- The fields of a header (16 R489). -/
def hType (h : BitVec 128) : Nat := bvBits h 0 4
def hVc (h : BitVec 128) : Nat := bvBits h 4 2
def hOrd (h : BitVec 128) : Bool := h.getLsbD 6
def hTag (h : BitVec 128) : Nat := bvBits h 8 12
def hNl (h : BitVec 128) : Nat := bvBits h 20 2
def hAop (h : BitVec 128) : Nat := bvBits h 22 4
def hValue (h : BitVec 128) : Nat := bvBits h 32 32
def hAddr (h : BitVec 128) : Dword := BitVec.ofNat 64 (bvBits h 64 64)

/-- The header of a packet. -/
def pktHdr (k : List (BitVec 128)) : BitVec 128 := k.headD 0

/-- The beats after the header as one number. -/
def pktData (k : List (BitVec 128)) : Nat := (k.drop 1).foldr (fun d a => d.toNat + a * 2 ^ 128) 0

/-- Is a packet of a guest malformed (16 R490, R500)? -/
def malformedF (k : List (BitVec 128)) : Bool :=
  let h := pktHdr k
  h.getLsbD 7 || bvBits h 26 6 ≠ 0 || (hOrd h && hType h ≠ 1) || (hAop h ≠ 0 && hType h ≠ 4)
  || !(match hType h with
    | 1 => hVc h = 0 && k.length = 1
    | 2 => hVc h = 0 && k.length = 1 + 4 * (hNl h + 1)
    | 3 => hVc h = 0 && hNl h = 0 && k.length = 6
    | 4 => hVc h = 0 && hNl h = 0 && hAop h ≤ 9 && k.length = (if hAop h = 9 then 2 else 1)
    | 5 => hVc h = 2 && hNl h = 0 && k.length = 1
    | _ => false)

/-! ### Sites and slices -/

/-- A site, and one of its slices. -/
def State.site (s : State) (n : Nat) : SiteSt := smGet {} s.sites n
def State.setSite (s : State) (n : Nat) (x : SiteSt) : State := { s with sites := smSet {} s.sites n x }
def State.fsl (s : State) (n sl : Nat) : SliceF := smGet {} (s.site n).slices sl
def State.setFsl (s : State) (n sl : Nat) (y : SliceF) : State :=
  s.setSite n { s.site n with slices := smSet {} (s.site n).slices sl y }

/-- The state of a site (16 R494). -/
def State.siteState (s : State) (n : Nat) : Nat := s.fld FACE_STAT.STATE n

/-- Does a site's image record name a guest die: otherwise it ignores every input (16 R483)? -/
def State.siteOcc (s : State) (n : Nat) : Bool := ((smFind s.img.faces n).getD {}).occ = 2

/-- A fault record of the face (16 R501). -/
def State.faceRecord (s : State) (cls n info : Nat) (part : Option Nat := none) : State :=
  s.fault { cls := cls, part := part, unit := 7, inst := n, info := info }

/-- Drive beats on a slice. -/
def State.faceDrive (s : State) (n sl : Nat) (bs : List Beat) : State :=
  (s.setFsl n sl { s.fsl n sl with wire := bs }).bumpN FACE_PC_TXB bs.length n

/-- The guest supply goes on at `VSET` with its limit, or off (18 R543). -/
def State.guestOn (s : State) (n : Nat) : State :=
  let c := s.fld PWR_G_CFG.VSET n
  let s := (s.setFld PWR_G_MEAS.V c n).setFld PWR_G_MEAS.ILIM (((smFind s.img.faces n).getD {}).budget * 10000 / (500 + 5 * c)) n
  s.setFld PWR_G_MEAS.P ((500 + 5 * c) * s.fld PWR_G_MEAS.I n / 1000) n
/-- A guest supply carries a current of `amps` tenths of an ampere: `PWR_G_MEAS` shows it and the power it gives at the voltage
in tenths of a watt (18 R564, log 44). -/
def State.guestAmps (s : State) (n amps : Nat) : State :=
  let s := s.setFld PWR_G_MEAS.I amps n
  s.setFld PWR_G_MEAS.P ((500 + 5 * s.fld PWR_G_MEAS.V n) * amps / 1000) n
def State.guestOff (s : State) (n : Nat) : State := s.setReg PWR_G_MEAS 0 n

/-- What a site holds of its slices and requests is gone, and its pool is re-based (16 R494). -/
def State.siteClear (s : State) (n : Nat) : State :=
  (s.setSite n { s.site n with reqs := [], slices := [] }).rebase 12 n

/-- A site enters a state other than `ACTIVE` and `HELD`. -/
def State.siteTo (s : State) (n st : Nat) : State :=
  let s := (s.setFld FACE_STAT.STATE st n).setFld FACE_STAT.SLICES 0 n
  ((s.setFld FACE_STAT.HOLD 0 n).setReg FACE_CAP 0 n).siteClear n

/-- A site with a guest die leaves `OFF` for `POWER` when its domain is on (16 R494). -/
def State.siteStart (s : State) (n : Nat) : State :=
  if s.siteState n ≠ 0 ∨ !s.siteOcc n ∨ !s.domOn 76 then s
  else
    let s := (s.siteTo n 1).guestOn n
    s.setSite n { s.site n with tries := 0 }

/-- A site goes to `OFF`, and its supply with it. -/
def State.siteOff (s : State) (n : Nat) : State := if s.siteState n = 0 then s else (s.siteTo n 0).guestOff n

/-- A site is held with a reason (16 R494, R500). -/
def State.siteHold (s : State) (n reason : Nat) : State :=
  if s.siteState n ≠ 4 then s
  else (((s.setFld FACE_STAT.STATE 5 n).setFld FACE_STAT.HOLD reason n).rebase 12 n).faceRecord 0x41 n reason

/-- The supply is switched off and the site held with reason `POWER` (16 R496, 18 R543). -/
def State.powerHold (s : State) (n : Nat) : State :=
  let st := s.siteState n
  let s := s.guestOff n
  if st = 5 then s.setFld FACE_STAT.HOLD 4 n
  else if st = 0 ∨ st = 6 then s
  else (s.setFld FACE_STAT.STATE 4 n).siteHold n 4

/-- A violation that counts toward quarantine (16 R500). -/
def State.siteViol (s : State) (n : Nat) : State :=
  let c := countIn (s.site n).viol (s.fld MC_TSC.COUNT / 100000)
  let s := s.setSite n { s.site n with viol := c }
  if c.2 = max 1 (s.fld FACE_CTL.VIOL_LIM n) then s.siteHold n 1 else s

/-! ### Sending (16 R486, R488) -/

/-- Beats of credit that Bodra holds for responses of a slice. -/
def SliceF.room (y : SliceF) : Nat := y.depth - (y.used + 16384 - y.credit) % 16384

/-- Send the responses of a slice that have credit and room in the replay buffer, in order. -/
def State.facePumpGo (n sl : Nat) : List (List (BitVec 128)) → State → State
  | [], s => s
  | k :: ks, s =>
    let y := s.fsl n sl
    if y.room < k.length ∨ 64 ≤ y.replay.length then s
    else
      let s := s.setFsl n sl { y with
        resp := ks, replay := y.replay ++ [k], txSeq := (y.txSeq + 1) % 4096, used := (y.used + k.length) % 16384 }
      State.facePumpGo n sl ks (s.faceDrive n sl (packetBeats k))

/-- Send what a slice can. -/
def State.facePump (s : State) (n sl : Nat) : State :=
  if s.siteState n = 4 ∨ s.siteState n = 5 then State.facePumpGo n sl (s.fsl n sl).resp s else s

/-- Answer a request: type, reason or value, data beats. -/
def State.faceRespond (s : State) (n sl : Nat) (h : BitVec 128) (type value addr : Nat) (data : List (BitVec 128)) : State :=
  let r : BitVec 128 := BitVec.ofNat 128 (type + 16 + hTag h * 2 ^ 8 + hNl h * 2 ^ 20 + value % 2 ^ 32 * 2 ^ 32 + addr * 2 ^ 64)
  let y := s.fsl n sl
  (s.setFsl n sl { y with resp := y.resp ++ [r :: data] }).facePump n sl

/-- An error response with a reason of R453. -/
def State.faceErr (s : State) (n sl : Nat) (h : BitVec 128) (reason : Nat) : State := s.faceRespond n sl h 9 0 reason []

/-- Free the beats of a received packet, which a `CREDIT` beat says (16 R487, R488). -/
def State.faceFree (s : State) (n sl vc beats : Nat) : State :=
  let y := s.fsl n sl
  if vc = 0 then
    let f := (y.freed0 + beats) % 16384
    (s.setFsl n sl { y with held0 := y.held0 - beats, freed0 := f }).faceDrive n sl [controlBeat 4 (f * 4)]
  else
    let f := (y.freed2 + beats) % 16384
    (s.setFsl n sl { y with held2 := y.held2 - beats, freed2 := f }).faceDrive n sl [controlBeat 4 (2 + f * 4)]

/-! ### Receiving packets (16 R486, R488, R493, R500) -/

/-- Are the beats of a packet without error in check and frame? -/
def beatsOk (bs : List Beat) : Bool :=
  bs.all (fun b => b.crc = crc8 b.data b.fr && b.fr ≠ 3)
  && (bs.headD ⟨0, 3, 0⟩).fr = 1 && (bs.drop 1).all (fun b => b.fr = 0)

/-- Discard packets until the matching `REPLAY`, and ask for it. -/
def State.faceNack (s : State) (n sl : Nat) : State :=
  let y := s.fsl n sl
  (s.setFsl n sl { y with discard := true }).faceDrive n sl [controlBeat 2 y.rxNext]

/-- Is a tag outstanding at a site: accepted and not answered? -/
def State.tagUsed (s : State) (n tag : Nat) : Bool :=
  (s.site n).reqs.any (fun e => hTag e.hdr = tag)
  || (s.site n).slices.any (fun e => e.2.q0.any (fun k => hTag (pktHdr k) = tag) || e.2.resp.any (fun k => hTag (pktHdr k) = tag))

/-- A packet is accepted in sequence. -/
def State.faceAccept (s : State) (n sl : Nat) (k : List (BitVec 128)) : State :=
  let y := s.fsl n sl
  let vc := hVc (pktHdr k)
  let q := (y.rxNext + 1) % 4096
  let y := { y with
    rxNext := q, rxSeq := q
    held0 := if vc = 0 then y.held0 + k.length else y.held0
    held2 := if vc = 2 then y.held2 + k.length else y.held2 }
  let s := (s.setFsl n sl y).faceDrive n sl [controlBeat 1 q]
  let free := fun (s : State) => if vc = 0 ∨ vc = 2 then s.faceFree n sl vc k.length else s
  if malformedF k then ((free s).bumpErr FACE_ERR1.BAD_PKT n).siteViol n
  else if vc = 0 then
    if s.tagUsed n (hTag (pktHdr k)) then ((free s).bumpErr FACE_ERR2.TAG_DUP n).siteViol n
    else (s.setFsl n sl { s.fsl n sl with q0 := (s.fsl n sl).q0 ++ [k] }).bump FACE_PC_REQ n
  else s.setFsl n sl { s.fsl n sl with q2 := (s.fsl n sl).q2 ++ [k] }

/-- Intervals below 120 ps, each a violation (16 R500). -/
def State.faceShort (n : Nat) : Nat → State → State
  | 0, s => s
  | m + 1, s => State.faceShort n m ((s.bumpErr FACE_ERR4.SPACING n).siteViol n)

/-- `FACE_DATA_PACKET_RECEIVE` (16 R484 to R488, R493, R500). -/
def execFaceDataPacketReceive (n : SiteId) (sl : Fin 20) (beats : List Beat) (short : Nat) (s : State) :
    Host.Outcome State Fault Refusal :=
  .next (if s.siteState n ≠ 4 then s
    else if s.fld FACE_CAP.TRAINED n / 2 ^ sl.val % 2 = 0 then s
    else
      let s := State.faceShort n short (s.bumpN FACE_PC_RXB beats.length n)
      let y := s.fsl n sl
      if s.siteState n ≠ 4 ∨ y.discard then s
      else if !beatsOk beats then (s.bumpErr FACE_ERR0.CRC n).faceNack n sl
      else if y.rxSeq ≠ y.rxNext then s.setFsl n sl { y with rxSeq := (y.rxSeq + 1) % 4096 }
      else
        let k := beats.map (fun b => b.data)
        let vc := hVc (pktHdr k)
        if (vc = 0 ∧ 256 < y.held0 + k.length) ∨ (vc = 2 ∧ 16 < y.held2 + k.length) then
          ((s.bumpErr FACE_ERR1.CREDIT_VIOL n).faceNack n sl).siteViol n
        else s.faceAccept n sl k)

/-! ### Requests (16 R490 to R492) -/

/-- The owner of a site's guest: the partition it acts for. -/
def State.guestPart (s : State) (n : Nat) : Option Nat := s.siteOwner n

/-- A request is refused (16 R492, R501). -/
def State.faceDeny (s : State) (n sl : Nat) (h : BitVec 128) : State :=
  ((s.bumpErr FACE_ERR3.DENY n).faceRecord 0x40 n (hTag h + hType h * 2 ^ 12) (s.guestPart n)).faceErr n sl h 2

/-- Take the head of the request queue of a slice, if it is of a type, and free its beats. -/
def State.faceTake (s : State) (n sl type : Nat) : Option (List (BitVec 128) × State) :=
  if s.siteState n ≠ 4 ∧ s.siteState n ≠ 5 then none
  else
    let y := s.fsl n sl
    match y.q0 with
    | k :: ks => if hType (pktHdr k) = type then some (k, (s.setFsl n sl { y with q0 := ks }).faceFree n sl 0 k.length)
      else none
    | [] => none

/-- What becomes of a guest's access (16 R492): it is refused, reaches register space at an offset, or goes to its home. -/
inductive FaceWay where
  | deny
  | reload
  | fatal
  | reg (off : Nat)
  | go
  deriving DecidableEq, Repr

/-- The partition that an address belongs to is being reloaded, or the guest's own is (03 R100). -/
def State.faceReload (s : State) (p : Nat) (ga : Dword) : Bool :=
  s.reloading.isSome && (s.reloading = some p || (match s.target ga with
    | .here a => s.reloading = s.ownerOf a
    | _ => false))

/-- The rights of a guest at an address (16 R492). -/
def State.faceWay (s : State) (n : Nat) (ga : Dword) (write : Bool) : FaceWay :=
  let dpa := bvBits ga 0 48
  let dev := bvBits ga 48 14
  match s.guestPart n with
  | none => .deny
  | some p =>
    match bvBits ga 62 2 with
    | 0 =>
      if dev = 0 ∧ 0x430000000 ≤ dpa ∧ dpa < 0x440000000 then
        (if s.mapped p (dpa - 0x430000000) write then .reg (dpa - 0x430000000) else .deny)
      else if s.fatal then .fatal
      else if s.faceReload p ga then .reload
      else if s.remAdmit p ga then .go
      else .deny
    | 3 => .deny
    | _ =>
      if dev ≠ s.devId then .go
      else if s.fatal then .fatal
      else if s.faceReload p ga then .reload
      else if s.remAdmit p ga then .go
      else .deny

/-- Send the lines of a request to their homes. -/
def State.faceServe (s : State) (n sl : Nat) (h : BitVec 128) (ls : List (Dword × MemOp)) : State :=
  let x := s.site n
  let tags := (List.range ls.length).map (fun i => x.next + i)
  let s := s.setSite n { x with
    reqs := x.reqs ++ [{ hdr := h, sl := sl, base := x.next, left := tags }], next := x.next + ls.length }
  (ls.zip tags).foldl (fun s (e : (Dword × MemOp) × Nat) => s.send (.req (.site n) e.2 e.1.1 e.1.2)) s

/-- Judge the lines of a request and serve them; register space goes its own way. -/
def State.faceGo (s : State) (n sl : Nat) (h : BitVec 128) (ls : List (Dword × MemOp)) (write : Bool)
    (reg : Nat → State → State) : State :=
  let ways := ls.map (fun l => s.faceWay n l.1 write)
  if ways.contains .deny then s.faceDeny n sl h
  else if ways.contains .fatal then s.faceErr n sl h 5
  else if ways.contains .reload then (s.faceRecord 0x40 n (hTag h + hType h * 2 ^ 12) (s.guestPart n)).faceErr n sl h 4
  else match ways with
    | [.reg off] => reg off s
    | _ => if ways.all (fun w => w = .go) then s.faceServe n sl h ls else s.faceErr n sl h 3

/-- The lines of a request from its address. -/
def faceLines (h : BitVec 128) (op : Nat → MemOp) : List (Dword × MemOp) :=
  (List.range (hNl h + 1)).map (fun i => ((hAddr h &&& ~~~63) + BitVec.ofNat 64 (64 * i), op i))

/-- `FACE_READ` (16 R489, R491): with `ORD` it waits until the slice's writes are acknowledged. -/
def execFaceRead (n : SiteId) (sl : Fin 20) (s : State) : Host.Outcome State Fault Refusal :=
  .next (match s.faceTake n sl 1 with
    | none => s
    | some (k, t) =>
      let h := pktHdr k
      if hOrd h ∧ (s.site n).reqs.any (fun e => e.sl = sl.val && hType e.hdr ≠ 1) then s
      else t.faceGo n sl h (faceLines h (fun _ => .read 64)) false (fun off s =>
        let o := off / 64 * 64 + bvBits (hAddr h) 0 6
        let size := match regFind o with
          | some r => r.reg.width / 8
          | none => 4
        if hNl h ≠ 0 ∨ o % 4 ≠ 0 then s.faceErr n sl h 3
        else match s.regHit o size with
          | .error => s.faceErr n sl h 3
          | .empty => s.faceRespond n sl h 6 0 0 [0, 0, 0, 0]
          | .at _ => s.faceServe n sl h [(hAddr h, .regRead size)]))

/-- `FACE_WRITE` (16 R491): register space takes no whole lines. -/
def execFaceWrite (n : SiteId) (sl : Fin 20) (s : State) : Host.Outcome State Fault Refusal :=
  .next (match s.faceTake n sl 2 with
    | none => s
    | some (k, t) =>
      let h := pktHdr k
      let d := pktData k
      t.faceGo n sl h (faceLines h (fun i => .write (BitVec.allOnes 64) (BitVec.ofNat 512 (d / 2 ^ (512 * i))))) true
        (fun _ s => s.faceErr n sl h 3))

/-- The one naturally aligned field of 4 or 8 bytes that a mask selects: its first byte and its size. -/
def maskField (m : Mask) : Option (Nat × Nat) :=
  ((List.range 8).map (fun i => (8 * i, 8)) ++ (List.range 16).map (fun i => (4 * i, 4))).find?
    (fun e => m = BitVec.ofNat 64 ((2 ^ e.2 - 1) * 2 ^ e.1))

/-- `FACE_WRITE_MASKED` (16 R490, R491). -/
def execFaceWriteMasked (n : SiteId) (sl : Fin 20) (s : State) : Host.Outcome State Fault Refusal :=
  .next (match s.faceTake n sl 3 with
    | none => s
    | some (k, t) =>
      let h := pktHdr k
      let m : Mask := BitVec.ofNat 64 (bvBits (k.getD 1 0) 0 64)
      let d := pktData (k.drop 1)
      t.faceGo n sl h (faceLines h (fun _ => .write m (BitVec.ofNat 512 d))) true (fun off s =>
        match maskField m with
        | none => s.faceErr n sl h 3
        | some (o, size) => match s.regHit (off / 64 * 64 + o) size with
          | .error => s.faceErr n sl h 3
          | .empty => s.faceRespond n sl h 7 0 0 []
          | .at _ => s.faceServe n sl h
              [((hAddr h &&& ~~~63) + BitVec.ofNat 64 o, .regWrite size (BitVec.ofNat 64 (d / 2 ^ (8 * o) % 2 ^ (8 * size))))]))

/-- `FACE_ATOMIC` (16 R490, R491). -/
def execFaceAtomic (n : SiteId) (sl : Fin 20) (s : State) : Host.Outcome State Fault Refusal :=
  .next (match s.faceTake n sl 4 with
    | none => s
    | some (k, t) =>
      let h := pktHdr k
      let op := MemOp.atomic (hAop h) (BitVec.ofNat 32 (hValue h)) (BitVec.ofNat 32 (bvBits (k.getD 1 0) 0 32))
      t.faceGo n sl h [(hAddr h, op)] true (fun _ s => s.faceErr n sl h 3))

/-- `FACE_DOORBELL` (16 R490, R492): a doorbell to a vat outside `OWNER` is dropped. -/
def execFaceDoorbell (n : SiteId) (sl : Fin 20) (s : State) : Host.Outcome State Fault Refusal :=
  let y := s.fsl n sl
  .next (match y.q2 with
    | [] => s
    | k :: ks =>
      if s.siteState n ≠ 4 ∧ s.siteState n ≠ 5 then s
      else
        let s := (s.setFsl n sl { y with q2 := ks }).faceFree n sl 2 k.length
        let x := hValue (pktHdr k)
        let v := x / 256 % 64
        if (s.guestPart n).isSome ∧ s.partOf v = s.guestPart n then s.send (.doorbell v (x % 256))
        else s.bumpErr FACE_ERR3.DENY n)

/-! ### Answers (16 R491) -/

/-- A line of data as four beats. -/
def lineBeats (d : Line) : List (BitVec 128) := (List.range 4).map (fun i => BitVec.ofNat 128 (bvBits d (128 * i) 128))

/-- The response to a request whose lines are all answered. -/
def State.faceDone (s : State) (n : Nat) (e : SiteReq) (r : Reply) : State :=
  if e.err ≠ 0 then s.faceErr n e.sl e.hdr e.err
  else match hType e.hdr with
    | 1 => s.faceRespond n e.sl e.hdr 6 0 0
        ((List.range (hNl e.hdr + 1)).flatMap (fun i => lineBeats (smGet 0 e.data i)))
    | 4 => s.faceRespond n e.sl e.hdr 8 (match r with
        | .word w => bvBits w 0 32
        | _ => 0) 0 []
    | _ => s.faceRespond n e.sl e.hdr 7 0 0 []

/-- `FACE_REPLY_RETURN` (16 R491, R494): a reply to a request that the site has dropped goes nowhere. -/
def execFaceReplyReturn (n : SiteId) (tag : Nat) (r : Reply) (s : State) : Host.Outcome State Fault Refusal :=
  let a := Agent.site n.val
  let reason := ((s.reasons.find? (fun e => e.1 = a && e.2.1 = tag)).map (fun e => e.2.2)).getD 3
  let s := s.recvMsg (.reply a tag r)
  let s := { s with reasons := s.reasons.filter (fun e => !(e.1 = a && e.2.1 = tag)) }
  let x := s.site n
  .next (match x.reqs.find? (fun e => e.left.contains tag) with
    | none => s
    | some e =>
      let put := fun (d : Line) => smSet 0 e.data (tag - e.base) d
      let e' : SiteReq := { e with
        left := e.left.erase tag
        err := if e.err = 0 ∧ r = .busError then reason else e.err
        data := match r with
          | .data d => put d
          | .word w => put ((w.setWidth 512) <<< (8 * bvBits (hAddr e.hdr) 0 6))
          | _ => e.data }
      let rest := x.reqs.erase e
      if e'.left ≠ [] then s.setSite n { x with reqs := rest ++ [e'] }
      else (s.setSite n { x with reqs := rest }).faceDone n e' r)

/-! ### Control beats (16 R486, R487, R495) -/

/-- A control beat arrives on a slice of a site that trains, is active or is held. -/
def State.faceCtl (s : State) (n sl : Nat) (act : State → State) : State :=
  let st := s.siteState n
  if (st = 3 ∨ st = 4 ∨ st = 5) ∧ s.fld FACE_CAP.TRAINED n / 2 ^ sl % 2 = 1 then act (s.bump FACE_PC_RXB n) else s

/-- A control beat of a site that carries packets or is held. -/
def State.faceRun (s : State) (n sl : Nat) (act : State → State) : State :=
  s.faceCtl n sl (fun s => if s.siteState n = 3 then s else act s)

/-- How far a number lies past the oldest packet of the replay buffer. -/
def SliceF.past (y : SliceF) (seq : Nat) : Nat := (seq + 4096 + 4096 - y.txSeq + y.replay.length) % 4096

/-- Does a number lie at or past the next packet to send, by less than half the range? -/
def SliceF.ahead (y : SliceF) (seq : Nat) : Bool := (seq + 4096 - y.txSeq) % 4096 < 2048

/-- `FACE_ACK` (16 R486, R500). -/
def execFaceAck (n : SiteId) (sl : Fin 20) (seq : BitVec 12) (s : State) : Host.Outcome State Fault Refusal :=
  .next (s.faceRun n sl (fun s =>
    let y := s.fsl n sl
    if y.ahead seq.toNat ∧ seq.toNat ≠ y.txSeq then (s.bumpErr FACE_ERR2.SEQ_ERR n).siteViol n
    else if y.replay.length < y.past seq.toNat then s
    else (s.setFsl n sl { y with replay := y.replay.drop (y.past seq.toNat) }).facePump n sl))

/-- Resend from a place in the replay buffer. -/
def State.faceResend (s : State) (n sl d : Nat) : State :=
  let y := s.fsl n sl
  let ks := y.replay.drop d
  let q := (y.txSeq + 4096 - ks.length) % 4096
  (s.faceDrive n sl (controlBeat 3 q :: ks.flatMap packetBeats)).bumpN FACE_PC_REPLAY ks.length n

/-- `FACE_NACK` (16 R486, R500). -/
def execFaceNack (n : SiteId) (sl : Fin 20) (seq : BitVec 12) (s : State) : Host.Outcome State Fault Refusal :=
  .next (s.faceRun n sl (fun s =>
    let y := s.fsl n sl
    if y.ahead seq.toNat then (s.bumpErr FACE_ERR2.SEQ_ERR n).siteViol n
    else if y.replay.length < y.past seq.toNat then s
    else s.faceResend n sl (y.past seq.toNat)))

/-- `FACE_REPLAY` (16 R486, R500): a number of an accepted packet of the last 64, or the next one, is expected. -/
def execFaceReplay (n : SiteId) (sl : Fin 20) (seq : BitVec 12) (s : State) : Host.Outcome State Fault Refusal :=
  .next (s.faceRun n sl (fun s =>
    let y := s.fsl n sl
    if (y.rxNext + 4096 - seq.toNat) % 4096 ≤ 64 then s.setFsl n sl { y with rxSeq := seq.toNat, discard := false }
    else (s.bumpErr FACE_ERR2.SEQ_ERR n).siteViol n))

/-- `FACE_CREDIT` (16 R487, R488): Bodra sends only on `VC` 1, so counts of the others say nothing to it. -/
def execFaceCredit (n : SiteId) (sl : Fin 20) (vc : BitVec 2) (count : BitVec 14) (s : State) :
    Host.Outcome State Fault Refusal :=
  .next (s.faceRun n sl (fun s =>
    if vc = 1 then (s.setFsl n sl { s.fsl n sl with credit := count.toNat }).facePump n sl else s))

/-- `FACE_CONTROL_RESERVED` (16 R487, R500). -/
def execFaceControlReserved (n : SiteId) (sl : Fin 20) (ctype : BitVec 4) (s : State) : Host.Outcome State Fault Refusal :=
  .next (if ctype = 0 ∨ 6 ≤ ctype.toNat then s.faceCtl n sl (fun s => (s.bumpErr FACE_ERR0.BAD_CTL n).siteViol n) else s)

/-- `FACE_REPLAY_TIMEOUT` (16 R486). -/
def execFaceReplayTimeout (n : SiteId) (sl : Fin 20) (s : State) : Host.Outcome State Fault Refusal :=
  .next (if (s.siteState n = 4 ∨ s.siteState n = 5) ∧ (s.fsl n sl).replay ≠ [] then s.faceResend n sl 0 else s)

/-- `FACE_STROBE_RETRIM` (16 R485). -/
def execFaceStrobeRetrim (n : SiteId) (s : State) : Host.Outcome State Fault Refusal :=
  .next (if s.siteState n = 0 then s else s.setSite n { s.site n with retrim := s.fld MC_TSC.COUNT })

/-! ### States of a site (16 R494, R495) -/

/-- The trained slices of a site. -/
def State.trained (s : State) (n : Nat) : List Nat :=
  (List.range 20).filter (fun i => s.fld FACE_CAP.TRAINED n / 2 ^ i % 2 = 1)

/-- A site that trains becomes active once enough slices are trained, with `CAP` accepted on all of them: sequence
numbers and credits start anew. -/
def State.siteTry (s : State) (n : Nat) : State :=
  let ts := s.trained n
  if s.siteState n ≠ 3 ∨ ts.length < s.fld FACE_CTL.MIN_SL n ∨ !ts.all (fun i => (s.fsl n i).cap) then s
  else
    let s := ts.foldl (fun s i => s.setFsl n i { cap := true, depth := (s.fsl n i).depth }) s
    let s := s.setSite n { s.site n with tries := 0, reqs := [] }
    ((s.setFld FACE_STAT.STATE 4 n).setFld FACE_STAT.SLICES ts.length n).rebase 12 n

/-- `FACE_SLICE_TRAINED` (16 R495): Bodra sends its `CAP` three times. -/
def execFaceSliceTrained (n : SiteId) (sl : Fin 20) (s : State) : Host.Outcome State Fault Refusal :=
  let m := s.fld FACE_CAP.TRAINED n
  .next (if s.siteState n ≠ 3 ∨ m / 2 ^ sl.val % 2 = 1 then s
    else
      let c := controlBeat 5 1
      ((s.setFld FACE_CAP.TRAINED (m + 2 ^ sl.val) n).faceDrive n sl [c, c, c]).siteTry n)

/-- `FACE_CAP` (16 R488, R495): accepted with version 1 and a buffer of at least 68 beats. -/
def execFaceCap (n : SiteId) (sl : Fin 20) (version : BitVec 8) (depth : BitVec 12) (s : State) :
    Host.Outcome State Fault Refusal :=
  .next (s.faceCtl n sl (fun s =>
    if s.siteState n ≠ 3 ∨ version ≠ 1 ∨ depth.toNat < 68 then s
    else
      let s := (s.setFld FACE_CAP.VERSION version.toNat n).setFld FACE_CAP.VC1_DEPTH depth.toNat n
      (s.setFsl n sl { s.fsl n sl with cap := true, depth := depth.toNat }).siteTry n))

/-- `FACE_CTL_START` (16 R494). -/
def execFaceCtlStart (n : SiteId) (s : State) : Host.Outcome State Fault Refusal := .next (s.siteStart n)

/-- `FACE_CTL_STOP` (16 R494). -/
def execFaceCtlStop (n : SiteId) (s : State) : Host.Outcome State Fault Refusal := .next (s.siteOff n)

/-- `FACE_CTL_HOLD` (16 R494). -/
def execFaceCtlHold (n : SiteId) (s : State) : Host.Outcome State Fault Refusal := .next (s.siteHold n 3)

/-- `FACE_CTL_RELEASE` (16 R494). -/
def execFaceCtlRelease (n : SiteId) (s : State) : Host.Outcome State Fault Refusal :=
  .next (if s.siteState n ≠ 5 then s
    else if s.fld FACE_STAT.HOLD n = 4 then (s.siteTo n 1).guestOn n
    else s.siteTo n 3)

/-- `FACE_FPG_RISE` (16 R494): the guest is ready; with its supply good, a site in `POWER` goes on. -/
def execFaceFpgRise (n : SiteId) (gsGood : Bool) (s : State) : Host.Outcome State Fault Refusal :=
  .next (if !s.siteOcc n then s
    else
      let s := s.setFld FACE_STAT.FPG 1 n
      if s.siteState n = 1 ∧ gsGood then s.siteTo n 2 else s)

/-- `FACE_FPG_FALL` (16 R494). -/
def execFaceFpgFall (n : SiteId) (s : State) : Host.Outcome State Fault Refusal :=
  .next (if !s.siteOcc n then s
    else
      let s := s.setFld FACE_STAT.FPG 0 n
      if s.siteState n = 4 ∨ s.siteState n = 5 then s.siteTo n 2 else s)

/-- `FACE_POWER_TIMEOUT` (16 R494). -/
def execFacePowerTimeout (n : SiteId) (s : State) : Host.Outcome State Fault Refusal :=
  .next (if s.siteState n = 1 then (s.siteTo n 6).faceRecord 0x44 n 1 else s)

/-- `FACE_RESET_RELEASE` (16 R494). -/
def execFaceResetRelease (n : SiteId) (s : State) : Host.Outcome State Fault Refusal :=
  .next (if s.siteState n = 2 then s.siteTo n 3 else s)

/-- `FACE_TRAIN_TIMEOUT` (16 R494): the fourth try gives the site up. -/
def execFaceTrainTimeout (n : SiteId) (s : State) : Host.Outcome State Fault Refusal :=
  .next (if s.siteState n ≠ 3 then s
    else
      let t := (s.site n).tries + 1
      let m := s.fld FACE_CAP.TRAINED n
      let s := s.setSite n { s.site n with tries := t }
      if t < 4 then s.siteTo n 2 else (s.siteTo n 6).faceRecord 0x44 n (3 + m * 8))

/-! ### Alarm and supply (16 R496, R500, 18 R543) -/

/-- `FACE_ALARM` (16 R496): the level of the site's alarm source follows `FACE_STAT.FALM`. -/
def execFaceAlarm (n : SiteId) (s : State) : Host.Outcome State Fault Refusal :=
  .next (if !s.siteOcc n then s else (s.setFld FACE_STAT.FALM 1 n).faceRecord 0x43 n 0)

/-- `FALM_N_DEASSERT` (16 R496). -/
def execFalmNDeassert (n : SiteId) (s : State) : Host.Outcome State Fault Refusal :=
  .next (if !s.siteOcc n then s else s.setFld FACE_STAT.FALM 0 n)

/-- `FACE_OVERCURRENT` (16 R496): the current is limited to `ILIM`. -/
def execFaceOvercurrent (n : SiteId) (amps : BitVec 16) (s : State) : Host.Outcome State Fault Refusal :=
  .next (if s.fld PWR_G_MEAS.V n = 0 then s
    else (s.guestAmps n (min amps.toNat (s.fld PWR_G_MEAS.ILIM n))).faceRecord 0x42 n amps.toNat)

/-- `FACE_OVERCURRENT_TIMEOUT` (16 R496): the excess has lasted 10 ms. -/
def execFaceOvercurrentTimeout (n : SiteId) (amps : BitVec 16) (s : State) : Host.Outcome State Fault Refusal :=
  .next (if s.fld PWR_G_MEAS.V n = 0 then s else (s.guestAmps n amps.toNat).powerHold n)

/-- `GUEST_SUPPLY_SHORT` (18 R543). -/
def execGuestSupplyShort (n : SiteId) (amps : BitVec 16) (s : State) : Host.Outcome State Fault Refusal :=
  .next (if s.fld PWR_G_MEAS.V n = 0 then s else (s.powerHold n).faceRecord 0x42 n amps.toNat)

/-- `FACE_STALL_TIMEOUT` (16 R500): no credit for 1 ms while a response waits. -/
def execFaceStallTimeout (n : SiteId) (sl : Fin 20) (s : State) : Host.Outcome State Fault Refusal :=
  let y := s.fsl n sl
  .next (match y.resp with
    | k :: _ => if s.siteState n = 4 ∧ y.room < k.length then (s.bumpErr FACE_ERR3.STALL n).siteHold n 2 else s
    | [] => s)

end Sys2Proof.Machine
end

