-- ==== Sys2Proof/Machine/Ring.lean ====
section
/-! DEFINITION. The host interface: MSI-X messages, command rings, completion rings, loss of the host, completions of
device reads (16 R502 to R520). -/

namespace Sys2Proof.Machine

open Sys2Proof

/-- The state after a meaning, where a command of the management core performs the write of a register. -/
def after (o : Host.Outcome State Fault Refusal) (s : State) : State :=
  match o with
  | .next t => t
  | _ => s

/-! ### Writes and reads of host memory (16 R505, R509) -/

/-- Post bytes within one line of host memory. -/
def State.hostPost (s : State) (h rid n d : Nat) : State :=
  (s.bump HOST_PC_TXWR).put (.hostWr rid (h / 64 * 64) (byteMask (h % 64) n) (placeAt (h % 64) d))

/-- A place in the host window as the interface of a ring reaches it: an entry of the ring's partition, or of `OWNER` 0x40
(log 19). -/
def State.ringMap (s : State) (r off : Nat) (write : Bool) : Option (Nat × Nat) :=
  match s.hostMap off (some r) write with
  | some x => some x
  | none => s.hostMap off none write

/-- Post a ring's bytes; they are lost where no window holds the place. -/
def State.ringPut (s : State) (r off n d : Nat) : State :=
  match s.ringMap r off true with
  | some (h, rid) => s.hostPost h rid n d
  | none => s

/-! ### MSI-X (16 R504) -/

/-- A vector. -/
def State.vector (s : State) (v : Nat) : Msix := smGet {} s.msix v
def State.setVector (s : State) (v : Nat) (x : Msix) : State := { s with msix := smSet {} s.msix v x }

/-- The partition whose virtual function a function number names. -/
def State.vfPart (s : State) (fn : Nat) : Option Nat :=
  if fn = 0 then none else (s.img.parts.find? (fun e => e.2.hostFn = fn)).map Prod.fst

/-- The virtual function that a vector belongs to, 0 for the physical function. -/
def State.vecFn (s : State) (v : Nat) : Nat :=
  match s.img.parts.find? (fun e => e.2.hostFn ≠ 0 && e.2.msixBase ≤ v && v < e.2.msixBase + e.2.msixCount) with
  | some e => e.2.hostFn
  | none => 0

/-- Signal a vector: a message, or its pending bit while it is masked. -/
def State.msiSend (s : State) (v : Nat) : State :=
  let x := s.vector v
  if !s.bit HOST_STAT.DL_UP then s
  else if x.masked then s.setVector v { x with pend := true }
  else s.hostPost x.addr.toNat (s.vecFn v) 4 x.data.toNat

/-- Write a vector; one that is unmasked with its pending bit set is sent. -/
def State.vectorWrite (s : State) (v : Nat) (x : Msix) : State :=
  if x.pend ∧ !x.masked then (s.setVector v { x with pend := false }).msiSend v else s.setVector v x

/-! ### Rings (16 R506 to R511) -/

/-- A ring. -/
def State.ring (s : State) (r : Nat) : RingSt := smGet {} s.rings r
def State.setRing (s : State) (r : Nat) (x : RingSt) : State := { s with rings := smSet {} s.rings r x }

/-- Start the read-back of a batch, at the last record written, when none runs and records wait for it (16 R509, R512). -/
def State.ringBack (s : State) (r : Nat) : State :=
  let x := s.ring r
  if x.rb.isSome ∨ x.written % 2 ^ 32 = s.fld CQ_PROD.PROD r then s
  else
    let last := s.fld CQ_BASE.OFFSET r * 4096 + 64 + 16 * ((x.written + 2 ^ 32 - 1) % 2 ^ 32 % 2 ^ s.fld RING_CTL.CLOG r) + 12
    match s.ringMap r last false, s.hostTag with
    | some _, some t =>
      State.setRing { s.bump HOST_PC_TXRD with hostRds := s.hostRds ++ [{ tag := t, home := 0, id := 0, off := last, ring := some r }] }
        r { x with rb := some (some t, x.written) }
    | _, _ => s.setRing r { x with rb := some (none, x.written) }

/-- Write one completion record. -/
def State.ringRecord (s : State) (r : Nat) (c : CqRec) : State :=
  let x := s.ring r
  let off := s.fld CQ_BASE.OFFSET r * 4096 + 64 + 16 * (x.written % 2 ^ s.fld RING_CTL.CLOG r)
  let d := c.handle % 2 ^ 32 + c.status % 256 * 2 ^ 32 + c.op % 256 * 2 ^ 40 + c.detail % 2 ^ 32 * 2 ^ 64
  (s.ringPut r off 16 d).setRing r { x with written := (x.written + 1) % 2 ^ 32 }

/-- Write the records that wait, while the ring is enabled. -/
def State.ringDrain (s : State) (r : Nat) : State :=
  if !s.bit RING_CTL.EN r then s
  else
    let cs := (s.ring r).comps
    let s := s.setRing r { s.ring r with comps := [] }
    (cs.foldl (fun s c => s.ringRecord r c) s).ringBack r

/-- An accepted item completes. -/
def State.ringDone (s : State) (handle op status detail : Nat) : State :=
  let r := handle / 2 ^ 26
  let s := s.setFld CMD_STAT.OPEN (s.fld CMD_STAT.OPEN r - 1) r
  (s.setRing r { s.ring r with comps := (s.ring r).comps ++ [⟨handle, status, op, detail⟩] }).ringDrain r

/-- The read-back of a batch has returned: `PROD` is written, and the next batch follows. -/
def State.ringBacked (s : State) (r : Nat) : State :=
  let x := s.ring r
  match x.rb with
  | none => s
  | some (_, n) =>
    let s := s.setRing r { x with rb := none }
    let s := s.ringPut r (s.fld CQ_BASE.OFFSET r * 4096) 4 n
    (s.setFld CQ_PROD.PROD n r).ringBack r

/-- `CQ_RECORD_READBACK` (16 R509): the level of the ring's source follows `CQ_PROD`. -/
def execCqRecordReadback (r : RingId) (s : State) : Host.Outcome State Fault Refusal :=
  .next (match (s.ring r).rb with
    | some (t, _) => State.ringBacked { s with hostRds := s.hostRds.filter (fun h => some h.tag ≠ t || h.ring ≠ some r.val) } r
    | none => s)

/-! ### Staging and commit (16 R506, R507) -/

/-- The bits of words 1 to 7 that an opcode uses (16 R508, 20 R606). -/
def opMasks (op : Nat) : List Dword :=
  match op with
  | 2 => [0xFFFFFFFFFFF, 0xFFFFFFFF]
  | 3 => [0xF, 0xFFFFFFFF]
  | 4 => [0xFFFFFE000000, 0x7F]
  | 5 => [0x1FF01, 0x3F, ~~~0, ~~~0, ~~~0]
  | 6 => [0x3]
  | 7 => [0xFFFFFFFFFFF]
  | 8 => [0x7F, ~~~0]
  | 9 => [0x7F]
  | _ => []

/-- Is an opcode for the physical function alone? -/
def pfOnly (op : Nat) : Bool := op = 2 || (5 ≤ op && op ≤ 9)

/-- Is an item malformed: its opcode reserved, a reserved field not zero, or a count or channel out of its range? -/
def itemMalformed (ws : List Dword) : Bool :=
  let w := fun i => ws.getD i 0
  let op := bvBits (w 0) 0 8
  op = 0 || 9 < op || bvBits (w 0) 8 56 ≠ 0
  || (List.range 7).any (fun i => w (i + 1) &&& ~~~((opMasks op).getD i 0) ≠ 0)
  || (op = 4 && (bvBits (w 2) 0 7 = 0 || 64 < bvBits (w 2) 0 7))
  || (op = 5 && !(w 1).getLsbD 0 && 128 ≤ bvBits (w 1) 8 8)

/-- Does partition `p` hold a unit of the crock or of a cellar position? -/
def State.holdsUnit (s : State) (p : Nat) (cellar : Bool) (pos u : Nat) : Bool :=
  if cellar then s.img.cellar.any (fun g => g.part = p && g.pos = pos && g.base ≤ u && u < g.base + g.size)
  else s.img.crock.any (fun g => g.part = p && g.base ≤ u && u < g.base + g.size)

/-- Are an item's operands refused (16 R508)? -/
def State.itemDenied (s : State) (r : Nat) (ws : List Dword) : Bool :=
  let w := fun i => ws.getD i 0
  match bvBits (w 0) 0 8 with
  | 2 => !(s.hostEntry (bvBits (w 1) 0 44)).any (fun e => s.fld HOST_WIN_CFG.OWNER e = 64)
  | 3 => !(List.range (bvBits (w 2) 16 16)).all (fun i =>
      s.holdsUnit r ((w 1).getLsbD 0) (bvBits (w 1) 1 3) (bvBits (w 2) 0 16 + i))
  | 5 =>
    let ch := bvBits (w 1) 8 8
    if (w 1).getLsbD 0 then s.celInUse (ch / 32) || s.bit CEL_STAT.KEPT (ch / 32)
    else s.bit CRK_CH_STAT.INUSE (ch / 16) (ch % 16) || s.bit CRK_CH_STAT.KEPT (ch / 16) (ch % 16)
  | 9 => (smFind s.keep (bvBits (w 1) 0 7)).any (fun k => k.active && !k.lost)
  | _ => false

/-- The outcome of a commit (16 R507), in the order of the rule's list; `who` is none for the management core, else the
function. -/
def State.commitStatus (s : State) (r : Nat) (who : Option Nat) (ws : List Dword) : Nat :=
  let x := s.ring r
  let vf : Bool := match who with
    | some n => n ≠ 0
    | none => false
  let unread := (x.written + x.comps.length + 2 ^ 32 - s.fld CQ_CONS.CONS r) % 2 ^ 32
  if itemMalformed ws then 3
  else if (pfOnly (bvBits (ws.getD 0 0) 0 8) ∧ vf) ∨ s.itemDenied r ws then 2
  else if !s.bit RING_CTL.EN r ∨ 2 ^ s.fld RING_CTL.CLOG r ≤ s.fld CMD_STAT.OPEN r + unread then 4
  else 0

/-- Commit an item. -/
def State.ringCommit (s : State) (r : Nat) (who : Option Nat) (ws : List Dword) : State :=
  let x := s.ring r
  let c := s.commitStatus r who ws
  let s := s.setFld CMD_STAT.STATUS c r
  if c ≠ 0 then (s.setRing r { x with stg := [] }).setFld CMD_STAT.HANDLE 0 r
  else
    let h := r * 2 ^ 26 + x.seq
    let s := s.setRing r { x with stg := [], seq := (x.seq + 1) % 2 ^ 26, items := x.items ++ [⟨h, ws⟩] }
    ((s.setFld CMD_STAT.HANDLE h r).setFld CMD_STAT.OPEN (s.fld CMD_STAT.OPEN r + 1) r).bump HOST_PC_CMD

/-- `CMD_W0_WRITE` (16 R506, R511). -/
def execCmdW0Write (r : RingId) (data : Dword) (s : State) : Host.Outcome State Fault Refusal :=
  let x := s.ring r
  let s := if x.stg = [] then s else s.bumpErr RING_ERR.DROP r
  .next ((s.setRing r { x with stg := [data], cut := false }).setFld CMD_STAT.DISCARD 0 r)

/-- A later word that is not the next of its item is dropped. -/
def State.ringDrop (s : State) (r : Nat) : State := (s.bumpErr RING_ERR.DROP r).setFld CMD_STAT.DISCARD 1 r

/-- `CMD_WORD_WRITE` (16 R506): word i + 1. -/
def execCmdWordWrite (r : RingId) (i : Fin 6) (data : Dword) (s : State) : Host.Outcome State Fault Refusal :=
  let x := s.ring r
  .next (if s.bit CMD_STAT.DISCARD r ∨ x.stg.length ≠ i.val + 1 then s.ringDrop r
    else s.setRing r { x with stg := x.stg ++ [data] })

/-- Write word 7. -/
def State.ringW7 (s : State) (r : Nat) (who : Option Nat) (data : Dword) : State :=
  let x := s.ring r
  if s.bit CMD_STAT.DISCARD r ∨ x.stg.length ≠ 7 then
    let s := s.ringDrop r
    if x.cut then (s.setFld CMD_STAT.HANDLE 0 r).setFld CMD_STAT.STATUS 1 r else s
  else s.ringCommit r who (x.stg ++ [data])

/-- `CMD_W7_COMMIT` (16 R506, R507, R511). -/
def execCmdW7Commit (r : RingId) (who : Option (Fin 64)) (data : Dword) (s : State) : Host.Outcome State Fault Refusal :=
  .next (s.ringW7 r (who.map (fun n => n.val)) data)

/-- `CMD_RESERVED_OPCODE` (16 R507): the commit of an item whose opcode is reserved. -/
def execCmdReservedOpcode (r : RingId) (who : Option (Fin 64)) (data : Dword) (s : State) : Host.Outcome State Fault Refusal :=
  let op := bvBits ((s.ring r).stg.getD 0 0) 0 8
  .next (if op = 0 ∨ 9 < op then s.ringW7 r (who.map (fun n => n.val)) data else s)

/-! ### Flush and control (16 R509, R511) -/

/-- The ring item behind an operation that waits for the management core: its handle and opcode. -/
def McOp.item (o : McOp) : Option (Nat × Nat) :=
  match o with
  | .image h _ _ => h.map (fun h => (h, 2))
  | .zeroise h _ => some (h, 3)
  | .sync h _ _ => some (h, 6)
  | .rind _ => none

/-- Does an operation come from a ring? -/
def McOp.ofRing (o : McOp) (r : Nat) : Bool := o.item.any (fun e => e.1 / 2 ^ 26 = r)

/-- Flush a ring: staging is cut, items that have not started complete with `FLUSHED`. Items that wait for the management
core have not started (03 R94). -/
def State.ringFlush (s : State) (r : Nat) : State :=
  let x := s.ring r
  let s := if x.stg = [] then s
    else ((s.setRing r { x with stg := [], cut := true }).setFld CMD_STAT.DISCARD 1 r).setFld CMD_STAT.FLUSHED 1 r
  let items := (s.ring r).items
  let mine := (s.mcQueue.filter (fun o => o.ofRing r)).filterMap (fun o => o.item)
  let s := State.setRing { s with mcQueue := s.mcQueue.filter (fun o => !o.ofRing r) } r { s.ring r with items := [] }
  (mine ++ items.map (fun i => (i.handle, bvBits (i.words.getD 0 0) 0 8))).foldl (fun s e => s.ringDone e.1 e.2 1 0) s

/-- `RING_FLUSH` (16 R511). -/
def execRingFlush (r : RingId) (s : State) : Host.Outcome State Fault Refusal := .next (s.ringFlush r)

/-- `RING_ENABLE_WRITE` (16 R509, R520, 19 R568): `CLOG` changes only while `EN` is 0; `EN` going to 1 zeroes bytes 4 to 63;
no ring is enabled during a start. -/
def execRingEnableWrite (r : RingId) (data : Word) (s : State) : Host.Outcome State Fault Refusal :=
  let was := s.bit RING_CTL.EN r
  let clog := bvBits data 2 4
  let s := if !was ∧ 6 ≤ clog ∧ clog ≤ 12 then s.setFld RING_CTL.CLOG clog r else s
  let on := data.getLsbD 1 && s.fld MC_BOOT_STAT.RESULT ≠ 0
  let s := s.setFld RING_CTL.EN on.toNat r
  .next (if on ∧ !was then (s.ringPut r (s.fld CQ_BASE.OFFSET r * 4096 + 4) 60 0).ringDrain r else s)

/-- `CQ_CONS_WRITE` (16 R509): ignored where it moves backwards or past `PROD`. -/
def execCqConsWrite (r : RingId) (data : Word) (s : State) : Host.Outcome State Fault Refusal :=
  let c := s.fld CQ_CONS.CONS r
  .next (if (s.fld CQ_PROD.PROD r + 2 ^ 32 - c) % 2 ^ 32 < (data.toNat + 2 ^ 32 - c) % 2 ^ 32 then s.bumpErr RING_ERR.DROP r
    else s.setFld CQ_CONS.CONS data.toNat r)

/-! ### Commands (16 R508, R514) -/

/-- Start the oldest item of a ring, if it has an opcode. -/
def State.ringTake (s : State) (r op : Nat) : Option (RingItem × State) :=
  let x := s.ring r
  match x.items with
  | i :: is => if bvBits (i.words.getD 0 0) 0 8 = op then some (i, s.setRing r { x with items := is }) else none
  | [] => none

/-- A word of an item. -/
def RingItem.w (i : RingItem) (n : Nat) : Dword := i.words.getD n 0

/-- `NOP` (16 R508, R510). -/
def execNop (r : RingId) (s : State) : Host.Outcome State Fault Refusal :=
  .next (match s.ringTake r 1 with
    | some (i, s) => s.ringDone i.handle 1 0 0
    | none => s)

/-- The 32 bytes of a keep entry (16 R514). -/
def KeepEnt.bytes (k : KeepEnt) : Nat :=
  (if k.cellar then 2 else 1) + k.part * 2 ^ 8
  + (k.encrypt.toNat + k.shared.toNat * 2 + k.lost.toNat * 4 + k.active.toNat * 8) * 2 ^ 16
  + (if k.cellar then k.pos * 2 ^ 48 else k.imode * 2 ^ 24 + k.vat * 2 ^ 32 + k.crock * 2 ^ 40)
  + k.base * 2 ^ 64 + k.size * 2 ^ 80 + k.tag.toNat * 2 ^ 128 + k.seq.toNat * 2 ^ 192

/-- `KEEP_QUERY` (16 R508, R514): the table goes to a window of `OWNER` 0x40. -/
def execKeepQuery (r : RingId) (s : State) : Host.Outcome State Fault Refusal :=
  .next (match s.ringTake r 7 with
    | none => s
    | some (i, s) =>
      let off := bvBits (i.w 1) 0 44
      let places := (List.range 128).map (fun e => s.hostMap (off + 32 * e) none true)
      if places.contains none ∨ off % 32 ≠ 0 then s.ringDone i.handle 7 5 0
      else
        let s := (List.range 128).foldl (fun (s : State) e => match s.hostMap (off + 32 * e) none true with
          | some (h, rid) => s.hostPost h rid 32 (match smFind s.keep e with
            | some k => k.bytes
            | none => 0)
          | none => s) s
        s.ringDone i.handle 7 0 s.keep.length)

/-- `KEEP_TAG` (16 R508, R514). -/
def execKeepTag (r : RingId) (s : State) : Host.Outcome State Fault Refusal :=
  .next (match s.ringTake r 8 with
    | none => s
    | some (i, s) =>
      let e := bvBits (i.w 1) 0 7
      match smFind s.keep e with
      | some k => State.ringDone { s with keep := smPut s.keep e { k with tag := i.w 2 } } i.handle 8 0 0
      | none => s.ringDone i.handle 8 5 0)

/-- Does the keep table hold a channel of the crock, or a cellar position, in an entry that is not lost? -/
def KeepEnt.region (k : KeepEnt) : CrockRegion :=
  { base := k.base, size := k.size, part := k.part, imode := k.imode, vat := k.vat, keep := true, kv := false
    shared := k.shared, crock := k.crock }

/-- `KEPT` of the channels and positions follows the keep table (10 R332, 11 R367). -/
def State.keptSync (s : State) : State :=
  let live := (s.keep.map Prod.snd).filter (fun k => !k.lost)
  let chans := (live.filter (fun k => !k.cellar)).flatMap (fun k => s.chanSet k.region)
  let s := (List.range 128).foldl (fun (s : State) c => s.setFld CRK_CH_STAT.KEPT (chans.contains c).toNat (c / 16) (c % 16)) s
  (List.range 8).foldl (fun (s : State) p => s.setFld CEL_STAT.KEPT (live.any (fun k => k.cellar && k.pos = p)).toNat p) s

/-- `KEEP_DROP` (16 R508, R514): an active entry that is not lost stays (the commit refused it, or an apply since then made
it active). -/
def execKeepDrop (r : RingId) (s : State) : Host.Outcome State Fault Refusal :=
  .next (match s.ringTake r 9 with
    | none => s
    | some (i, s) =>
      let e := bvBits (i.w 1) 0 7
      if (smFind s.keep e).any (fun k => k.active && !k.lost) then s.ringDone i.handle 9 5 0
      else State.ringDone { s with keep := smDel s.keep e } i.handle 9 0 0)

/-- The L2 entry of a page of a partition with its address (13 R393, R394): none where its table ends at level 1. -/
def State.l2Entry (s : State) (p vpage : Nat) : Option (Nat × Dword) :=
  match pte (s.peek8 (s.fld XLT_PT_BASE.BASE p * 2 ^ 21 + vpage / 32 * 8)) true with
  | .table a => if s.mayWalk p a then some (a + vpage % 32 * 8, s.peek8 (a + vpage % 32 * 8)) else none
  | _ => none

/-- Migrate one page under steps 2 to 6 of R408: its `SUB`, none where the page is not marked for migration. -/
def State.migrateOne (s : State) (p vpage : Nat) (copy : Option (List (BitVec 19 × Line))) : State × Option Nat :=
  match s.l2Entry p vpage with
  | none => (s, none)
  | some (l2, e) =>
    match pte e false with
    | .page _ _ 2 _ _ true =>
      let s : State := { s with migq := [⟨p, vpage, l2, e⟩] }
      let s := after (execMigrationStart s) s
      (match s.mig with
      | none => (s, some (if s.fld XLT_MIG_HEAD.HEAD p = s.fld XLT_MIG_TAIL.TAIL p then 4 else 3))
      | some _ =>
        let h := s.fld XLT_MIG_HEAD.HEAD p
        let s := after (execMigrationCopyComplete copy s) s
        (s, some (if copy.isNone then 2 else if s.fld XLT_MIG_HEAD.HEAD p = h then 1 else 0)))
    | _ => (s, none)

/-- Migrate pages until one fails: the pages migrated, and whether one failed. -/
def State.migrateGo (p : Nat) : List (Nat × Option (List (BitVec 19 × Line))) → Nat → State → State × Nat × Bool
  | [], n, s => (s, n, false)
  | (v, c) :: vs, n, s =>
    match s.migrateOne p v c with
    | (s, none) => State.migrateGo p vs n s
    | (s, some 0) => State.migrateGo p vs (n + 1) s
    | (s, some _) => (s, n, true)

/-- `MIGRATE` (16 R508, 13 R408): it runs when no other page is queued; `copies` holds what the host gives for each
page. -/
def execMigrate (r : RingId) (copies : List (Option (List (BitVec 19 × Line)))) (s : State) : Host.Outcome State Fault Refusal :=
  .next (if s.migq ≠ [] ∨ s.mig.isSome then s
    else match s.ringTake r 4 with
    | none => s
    | some (i, s) =>
      let pages := (List.range (bvBits (i.w 2) 0 7)).map (fun k => ((bvBits (i.w 1) 25 23 + k) % 2 ^ 23, copies.getD k none))
      let (s, n, failed) := State.migrateGo r pages 0 s
      s.ringDone i.handle 4 (if failed then 5 else 0) n)

/-- `TEST` (16 R508, 10 R338, 11 R365): the channel's generator runs to its end. -/
def execTest (r : RingId) (crk : List (Nat × List (BitVec 20))) (cel : List (Nat × List (BitVec 72))) (s : State) :
    Host.Outcome State Fault Refusal :=
  .next (match s.ringTake r 5 with
    | none => s
    | some (i, s) =>
      let ch := bvBits (i.w 1) 8 8
      let ctl : Dword := ((i.w 2 &&& 0x3F) <<< 2) ||| 1
      if (i.w 1).getLsbD 0 then
        let p : CelId := ⟨ch / 32 % 8, Nat.mod_lt _ (by decide)⟩
        let c : Fin 32 := ⟨ch % 32, Nat.mod_lt _ (by decide)⟩
        let s := after (execCelTestWrite p 1 s) s
        let s := ((s.setFld CEL_TG_BASE.BASE (i.w 3).toNat p c).setFld CEL_TG_LEN.LEN (i.w 4).toNat p c).setFld CEL_TG_SEED.SEED (i.w 5).toNat p c
        let s := s.setFld CEL_TG_STAT.REJ 0 p c
        let s := after (execCelTgGo p c (ctl ||| (if (i.w 1).getLsbD 16 then 0x100 else 0)) s) s
        let s := after (execCelTgRunEnd p c cel s) s
        let bad : Bool := s.bit CEL_TG_STAT.REJ p c || s.bit CEL_TG_STAT.ABORTED p c
        let n := s.fld CEL_TG_ERR.LINES_BAD p c
        (after (execCelTestWrite p 0 s) s).ringDone i.handle 5 (if bad then 5 else 0) n
      else
        let d : ChanId := ⟨ch % 128, Nat.mod_lt _ (by decide)⟩
        let k := d.val / 16
        let j := d.val % 16
        let idle : Dword := BitVec.ofNat 64 (s.fld CRK_CH_CTL.SR_IDLE k j)
        let s := after (execCrkChTestWrite d (idle ||| 0x10000) s) s
        let s := ((s.setFld CRK_TG_BASE.BASE (i.w 3).toNat k j).setFld CRK_TG_LEN.LEN (i.w 4).toNat k j).setFld CRK_TG_SEED.SEED (i.w 5).toNat k j
        let s := s.setFld CRK_TG_STAT.REJ 0 k j
        let s := after (execCrkTgGo d ctl s) s
        let s := after (execCrkTgRunEnd d crk s) s
        let bad : Bool := s.bit CRK_TG_STAT.REJ k j || s.bit CRK_TG_STAT.ABORTED k j
        let n := s.fld CRK_TG_ERR.LINES_BAD k j
        (after (execCrkChTestWrite d idle s) s).ringDone i.handle 5 (if bad then 5 else 0) n)

/-! ### Loss of the host (16 R515) -/

/-- A fault record of the host interface (16 R517). -/
def State.hostRecord (s : State) (cls info : Nat) : State := s.fault { cls := cls, unit := 8, info := info }

/-- Flush and disable a ring: completions not yet written are discarded. -/
def State.ringStop (s : State) (r : Nat) : State :=
  let s := (s.setFld RING_CTL.EN 0 r).ringFlush r
  let x := s.ring r
  let t := x.rb.bind Prod.fst
  State.setRing { s with hostRds := s.hostRds.filter (fun h => h.ring ≠ some r || some h.tag ≠ t) } r { x with comps := [], rb := none }

/-- The interface resets: rings and windows are off, and the MSI-X tables reset. -/
def State.hostReset (s : State) : State :=
  let s := (List.range 64).foldl (fun s r => s.ringStop r) s
  let s := (List.range 256).foldl (fun (s : State) w => s.setFld HOST_WIN_CFG.EN 0 w) s
  { s with msix := [] }

/-- `HOST_LINK_DOWN` (16 R515, 17 R524). -/
def execHostLinkDown (s : State) : Host.Outcome State Fault Refusal :=
  let s := (s.hostReset.setReg HOST_STAT 0).bumpErr HOST_ERR2.LINK_DOWN
  .next ((s.dicLatch 225).hostRecord 0x48 0)

/-- `HOST_LINK_UP` (16 R519): only the supported widths and rates. -/
def execHostLinkUp (width speed : Nat) (flit : Bool) (s : State) : Host.Outcome State Fault Refusal :=
  .next (if !(width = 4 ∨ width = 8 ∨ width = 16) ∨ speed = 0 ∨ 6 < speed ∨ (speed = 6 ∧ !flit) ∨ !s.domOn 77 then s
    else (((s.setFld HOST_STAT.DL_UP 1).setFld HOST_STAT.WIDTH width).setFld HOST_STAT.SPEED speed).setFld HOST_STAT.FLIT flit.toNat)

/-- `FLR_VF` (16 R515). -/
def execFlrVf (n : Fin 64) (s : State) : Host.Outcome State Fault Refusal :=
  .next (match s.vfPart n with
    | none => s
    | some p =>
      let s := s.ringStop p
      let s := (List.range 256).foldl (fun (s : State) w => if s.fld HOST_WIN_CFG.OWNER w = p then s.setFld HOST_WIN_CFG.EN 0 w else s) s
      { s with msix := s.msix.filter (fun e => s.vecFn e.1 ≠ n.val) })

/-- `FLR_PF` (16 R515): as a hot reset, without the link event. -/
def execFlrPf (s : State) : Host.Outcome State Fault Refusal := .next s.hostReset

/-! ### Completions of device reads (16 R502, R517) -/

/-- The read of a slice or of a ring has failed. -/
def State.hostFail (s : State) (h : HostRd) : State :=
  match h.ring with
  | some r => s.ringBacked r
  | none =>
    match smFind (s.slice h.home).slots h.id with
    | some q =>
      let s := match q.op with
        | .atomic .. => s.atomDrop h.home q.line
        | _ => s
      s.sliceReply h.home h.id .busError
    | none => s

/-- The partition of a device read, for its fault record. -/
def State.hostRdPart (s : State) (h : HostRd) : Option Nat :=
  match h.ring with
  | some r => if (s.part r).isSome then some r else none
  | none => (smFind (s.slice h.home).slots h.id).bind (fun q => q.part)

/-- The data of a device read: a line goes to its requester, an atomic writes its word back and keeps no line
(09 R306). -/
def State.hostData (s : State) (h : HostRd) (d : Line) : State :=
  match h.ring with
  | some r => s.ringBacked r
  | none =>
    match smFind (s.slice h.home).slots h.id with
    | none => s
    | some q =>
      match q.op with
      | .atomic fn x e =>
        let old := lineWord d q.ga
        let s := s.atomDrop h.home q.line
        let s := match s.hostMap (h.off / 4 * 4) q.part true with
          | some (a, rid) => s.hostPost a rid 4 (amoResult fn old x e).toNat
          | none => s
        s.sliceReply h.home h.id (.word (old.setWidth 64))
      | _ => s.sliceReply h.home h.id (.data (d >>> (8 * (h.off % 64))))

/-- `HOST_COMPLETION` (16 R517): a completion for no outstanding request is dropped. -/
def execHostCompletion (tag : Nat) (c : HostCpl) (s : State) : Host.Outcome State Fault Refusal :=
  .next (match s.hostRds.find? (fun h => h.tag = tag) with
    | none => s.bumpErr HOST_ERR0.UNEXP_CPL
    | some h =>
      let part := s.hostRdPart h
      let bad := fun (f : Fld) (s : State) =>
        ((s.bumpErr f).fault { cls := 0x4A, part := part, unit := 8, info := tag }).hostFail h
      let s := { s with hostRds := s.hostRds.erase h }
      match c with
      | .data d => s.hostData h d
      | .poisoned => bad HOST_ERR1.POISON s
      | _ => bad HOST_ERR2.CPL_ERR s)

/-- `HOST_COMPLETION_TIMEOUT` (16 R517). -/
def execHostCompletionTimeout (tag : Nat) (s : State) : Host.Outcome State Fault Refusal :=
  .next (match s.hostRds.find? (fun h => h.tag = tag) with
    | none => s
    | some h =>
      let part := s.hostRdPart h
      let s := { s with hostRds := s.hostRds.erase h }
      (((s.bumpErr HOST_ERR1.CPL_TO).fault { cls := 0x49, part := part, unit := 8, info := tag })).hostFail h)

/-- `CONFIGURATION_REQUEST` (16 R502, R503, 19 R568): Request Retry Status until phase 3 of a start ends; every function
answers afterwards. -/
def execConfigurationRequest (_fn : Fin 64) (s : State) : Host.Outcome State Fault Refusal :=
  let p := s.fld MC_BOOT_STAT.PHASE
  .next (if !s.domOn 77 then s
    else { s.bump HOST_PC_RXREQ with
      hostRsp := if s.fld MC_BOOT_STAT.RESULT = 0 ∧ p ≤ 3 then .requestRetry else .success })

end Sys2Proof.Machine
end

