-- ==== Sys2Proof/Machine/Events.lean ====
section
/-! DEFINITION. Doorbells and vat events, and the device interrupt controller (17 R521 to R538). -/

namespace Sys2Proof.Machine

open Sys2Proof

/-! ### Vat event units (17 R521 to R523) -/

/-- A doorbell arrives at a vat (17 R522). -/
def State.doorbellIn (s : State) (v src : Nat) : State :=
  if src < 16 then s.bumpErr VAT_EV_ERR.DB_BAD v else (s.bump VAT_EV_PC_DBELL v).raiseVat v src

/-- `DOORBELL` (17 R522): one to a vat without power is lost, one to a vat in reset is held (06 R219, 18 R557, log 43). -/
def execDoorbell (v : VatId) (src : BitVec 8) (s : State) : Host.Outcome State Fault Refusal :=
  .next (if !s.vatOn v then s.recvMsg (.doorbell v src.toNat)
    else if !s.vatLive v then s
    else (s.recvMsg (.doorbell v src.toNat)).doorbellIn v src.toNat)

/-- `VAT_EV_DBELL` (17 R522, R537). -/
def execVatEvDbellWrite (v : VatId) (data : Word) (s : State) : Host.Outcome State Fault Refusal :=
  .next (if !s.vatLive v then s else s.doorbellIn v (bvBits data 0 8))

/-- `VAT_EVENT` (17 R521, R523): a hardware source; sources 8 to 15 are never set. -/
def execVatEvent (v : VatId) (src : Fin 16) (s : State) : Host.Outcome State Fault Refusal :=
  .next (if s.vatLive v ∧ src.val < 8 then s.raiseVat v src else s)

/-! ### Sources (17 R524) -/

/-- A bit of `DIC_LATCH`. -/
def State.latched (s : State) (n : Nat) : Bool := (s.fld DIC_LATCH.LATCH (n / 64)).testBit (n % 64)

/-- The level of a source (17 R524). -/
def State.srcLevel (s : State) (n : Nat) : Bool :=
  if n < 64 then s.vatSum n
  else if n < 128 then s.fld XLT_FR_PROD.PROD (n - 64) ≠ s.fld XLT_FR_CONS.CONS (n - 64)
  else if n < 192 then s.fld CQ_PROD.PROD (n - 128) ≠ s.fld CQ_CONS.CONS (n - 128)
  else if n = 192 then s.fatal
  else if n = 193 then s.fld MC_FQ_STAT.COUNT ≠ 0
  else if 203 ≤ n ∧ n < 211 then
    (List.range 16).any (fun j =>
      let t := s.fld CRK_CH_STAT.TEMP (n - 203) j
      105 ≤ t && t < 128)
  else if 211 ≤ n ∧ n < 219 then 2 ≤ s.fld CEL_STAT.TLVL (n - 211) || (s.cel (n - 211)).noTemp
  else if 219 ≤ n ∧ n < 225 then s.bit FACE_STAT.FALM (n - 219)
  else if n = 230 then s.fld ⟨TWIN_EVT, 0, 5, .rw1c⟩ &&& s.fld TWIN_EVT_EN.EN ≠ 0
  else if n = 231 then s.fld ⟨PWR_EVT, 0, 6, .rw1c⟩ &&& s.fld PWR_EVT_EN.EN ≠ 0
  else if n < 234 then s.latched n
  else false

/-! ### Banks and views (17 R526 to R528) -/

/-- The bank of a class. -/
def bank (fast : Bool) : Nat := fast.toNat

/-- A bit of a bank's pending or mask word. -/
def State.bankBit (s : State) (f : Fld) (fast : Bool) (n : Nat) : Bool := (s.fld f (bank fast) (n / 64)).testBit (n % 64)

/-- Set or clear that bit. -/
def State.setBankBit (s : State) (f : Fld) (fast : Bool) (n : Nat) (on : Bool) : State :=
  let x := s.fld f (bank fast) (n / 64)
  let m := 2 ^ (n % 64)
  s.setFld f (if x.testBit (n % 64) then (if on then x else x - m) else (if on then x + m else x)) (bank fast) (n / 64)

/-- The class of a source. -/
def State.srcFast (s : State) (n : Nat) : Bool := s.bit DIC_SRC.CLASS n

/-- Does target `t` see source `n` in a class (17 R528)? -/
def State.sees (s : State) (t : Nat) (fast : Bool) (n : Nat) : Bool :=
  s.srcFast n = fast && s.bankBit DIC_PEND.PEND fast n && !s.bankBit DIC_MASK.MASK fast n && !s.bit DIC_SRC.INSVC n
    && (s.fld DIC_SRC.TARGETS n).testBit t

/-- The sources that a target sees in a class. -/
def State.seenAll (s : State) (t : Nat) (fast : Bool) : List Nat := (List.range 234).filter (s.sees t fast)

/-! ### Coalescing and delivery (17 R531 to R533) -/

/-- A target in a class. -/
def State.dicTgt (s : State) (t : Nat) (fast : Bool) : DicTgt := smGet {} s.dic (2 * t + bank fast)
def State.setDicTgt (s : State) (t : Nat) (fast : Bool) (x : DicTgt) : State :=
  { s with dic := smSet {} s.dic (2 * t + bank fast) x }

/-- `COUNT` of a target in a class. -/
def State.coalCount (s : State) (t : Nat) (fast : Bool) : Nat :=
  max 1 (if fast then s.fld DIC_COAL_F.COUNT t else s.fld DIC_COAL_N.COUNT t)

/-- Is a source claimed by hardware at delivery (17 R533)? -/
def State.srcAuto (s : State) (n : Nat) : Bool :=
  let m := s.fld DIC_SRC.TARGETS n
  s.bit DIC_SRC.AUTO n && m ≠ 0 && m % 2 = 0 && m < 512

/-- A source is claimed. -/
def State.srcClaim (s : State) (n owner : Nat) : State :=
  (((s.setBankBit DIC_PEND.PEND (s.srcFast n) n false).setFld DIC_SRC.INSVC 1 n).setFld DIC_SRC.OWNER owner n)

/-- Remove repeats. -/
def dedup : List Nat → List Nat
  | [] => []
  | x :: xs => x :: (dedup xs).filter (fun y => y ≠ x)

/-- A target and class deliver (17 R532): a line, or one message for each vector; the sources that hardware claims are
answered. -/
def State.dicDeliver (s : State) (t : Nat) (fast : Bool) : State × List Nat :=
  let x := s.dicTgt t fast
  let s := s.setDicTgt t fast { x with counted := [], live := [], timer := none
                                       line := x.line || t = 0 || (9 ≤ t && s.siteOcc (t - 9)) }
  if 1 ≤ t ∧ t < 9 then
    let vecs := dedup (x.counted.map (fun n => s.fld DIC_SRC.VEC n))
    let s := vecs.foldl (fun (s : State) v => s.msiSend (256 * (t - 1) + v)) s
    (s, x.live.filter s.srcAuto)
  else (s, [])

/-- A source of a target and class has changed from seen or not: it is counted, or withdrawn. -/
def State.dicCount (s : State) (t : Nat) (fast : Bool) (n : Nat) (was now : Bool) : State × List Nat :=
  let x := s.dicTgt t fast
  if !was ∧ now then
    let x := { x with
      counted := if x.live.contains n then x.counted else x.counted ++ [n]
      live := if x.live.contains n then x.live else x.live ++ [n]
      timer := if x.timer.isNone then some (s.fld MC_TSC.COUNT) else x.timer }
    let s := s.setDicTgt t fast x
    if s.coalCount t fast ≤ x.counted.length then s.dicDeliver t fast else (s, [])
  else if was ∧ !now then
    let live := x.live.filter (fun m => m ≠ n)
    let x := if live = [] then { x with counted := [], live := [], timer := none } else { x with live := live }
    (s.setDicTgt t fast { x with line := x.line && (List.range 234).any (s.sees t fast) }, [])
  else (s, [])

/-- Every target in both classes. -/
def dicTargets : List (Nat × Bool) := (List.range 15).flatMap (fun t => [(t, false), (t, true)])

/-- Apply a change that concerns some sources, and count what targets see of it. Sources that hardware claims at a
delivery are withdrawn from the other targets. -/
def State.dicApply (s : State) (ns : List Nat) (f : State → State) : State :=
  let t := f s
  let step := fun (acc : State × List Nat) (e : Nat × Nat × Bool) =>
    let (u, auto) := acc.1.dicCount e.2.1 e.2.2 e.1 (s.sees e.2.1 e.2.2 e.1) (t.sees e.2.1 e.2.2 e.1)
    (u, acc.2 ++ auto)
  let (u, auto) := (ns.flatMap (fun n => dicTargets.map (fun e => (n, e.1, e.2)))).foldl step (t, [])
  (dedup auto).foldl (fun (u : State) n =>
    if u.bit DIC_SRC.INSVC n then u
    else
      let w := u.srcClaim n 15
      dicTargets.foldl (fun (v : State) e => (v.dicCount e.1 e.2 n (u.sees e.1 e.2 n) (w.sees e.1 e.2 n)).1) w) u

/-! ### Commands -/

/-- `DIC_LEVEL_CHANGE` (17 R525). -/
def execDicLevelChange (n : Fin 256) (s : State) : Host.Outcome State Fault Refusal :=
  let l := s.srcLevel n
  .next (if l = s.bit DIC_SRC.LEVEL n then s
    else s.dicApply [n.val] (fun s =>
      let s := s.setFld DIC_SRC.LEVEL l.toNat n
      let w := s.fld DIC_LEVEL.LEVEL (n.val / 64)
      let s := s.setFld DIC_LEVEL.LEVEL (if l then w + 2 ^ (n.val % 64) else w - 2 ^ (n.val % 64)) (n.val / 64)
      if s.bit DIC_SRC.INSVC n then s else s.setBankBit DIC_PEND.PEND (s.srcFast n) n l))

/-- `DIC_CLAIM` (17 R529): what the read returns stands in the claim address. -/
def execDicClaim (t : TargetIx) (fast : Bool) (n : Fin 256) (s : State) : Host.Outcome State Fault Refusal :=
  let put := fun (s : State) (x : Nat) => if fast then s.setFld DIC_FCLAIM.SRC x t n else s.setFld DIC_CLAIM.SRC x t n
  .next (if s.sees t fast n then put (s.dicApply [n.val] (fun s => s.srcClaim n t)) n else put s 0x3FF)

/-- End the service of a source and sample its level again. -/
def State.srcDone (s : State) (n : Nat) : State :=
  s.dicApply [n] (fun s =>
    let s := (s.setFld DIC_SRC.INSVC 0 n).setFld DIC_SRC.OWNER 15 n
    if s.bit DIC_SRC.LEVEL n then s.setBankBit DIC_PEND.PEND (s.srcFast n) n true else s)

/-- `DIC_COMPLETE` (17 R530). -/
def execDicComplete (t : TargetIx) (fast : Bool) (data : Word) (s : State) : Host.Outcome State Fault Refusal :=
  let n := bvBits data 0 8
  .next (if s.bit DIC_SRC.INSVC n ∧ s.fld DIC_SRC.OWNER n = t.val ∧ s.srcFast n = fast then s.srcDone n
    else s.bumpErr DIC_BADCOMP.COUNT)

/-- The sources of a word of a bank. -/
def State.bankWord (s : State) (fast : Bool) (w : Nat) : List Nat :=
  ((List.range 64).map (fun i => 64 * w + i)).filter (fun n => n < 234 && s.srcFast n = fast)

/-- `DIC_RESAMPLE` (17 R535, R538). -/
def execDicResample (fast : Bool) (data : Word) (s : State) : Host.Outcome State Fault Refusal :=
  let ns := (s.bankWord fast (bvBits data 0 2)).filter (fun n => s.bit DIC_SRC.LEVEL n && !s.bit DIC_SRC.INSVC n)
  .next (s.dicApply ns (fun s => ns.foldl (fun (s : State) n => s.setBankBit DIC_PEND.PEND fast n true) s))

/-- Write a word of a bank: only the bits of the sources of its class change. -/
def State.bankWrite (s : State) (f : Fld) (fast : Bool) (w : Nat) (data : Dword) : State :=
  let ns := s.bankWord fast w
  s.dicApply ns (fun s => ns.foldl (fun (s : State) n => s.setBankBit f fast n (data.getLsbD (n % 64))) s)

/-- `DIC_MASK_WRITE` (17 R527, R531). -/
def execDicMaskWrite (fast : Bool) (w : Fin 4) (data : Dword) (s : State) : Host.Outcome State Fault Refusal :=
  .next (s.bankWrite DIC_MASK.MASK fast w data)

/-- `DIC_SRC_WRITE` (17 R526, R527): the pending bit moves with the class. -/
def execDicSrcWrite (n : Fin 256) (data : Dword) (s : State) : Host.Outcome State Fault Refusal :=
  .next (if 234 ≤ n.val then s
    else s.dicApply [n.val] (fun s =>
      let old := s.srcFast n
      let p := s.bankBit DIC_PEND.PEND old n
      let s := s.putFields [⟨DIC_SRC, 0, 15, .rw⟩, DIC_SRC.CLASS, DIC_SRC.AUTO, DIC_SRC.VEC] data n
      let new := s.srcFast n
      if old = new then s else (s.setBankBit DIC_PEND.PEND old n false).setBankBit DIC_PEND.PEND new n p))

/-- `DIC_COAL_TIMEOUT` (17 R531). -/
def execDicCoalTimeout (t : TargetIx) (fast : Bool) (s : State) : Host.Outcome State Fault Refusal :=
  .next (if (s.dicTgt t fast).timer.isNone then s
    else
      let (s, auto) := s.dicDeliver t fast
      auto.foldl (fun (s : State) n => if s.bit DIC_SRC.INSVC n then s else s.dicApply [n] (fun s => s.srcClaim n 15)) s)

/-- `DIC_AUTO_COMPLETE` (17 R533). -/
def execDicAutoComplete (n : Fin 256) (s : State) : Host.Outcome State Fault Refusal :=
  .next (if s.bit DIC_SRC.INSVC n ∧ s.fld DIC_SRC.OWNER n = 15 then s.srcDone n else s)

/-- Sources and words as registers show them (17 R527, R528, R537): bits of the other class read 0. -/
def State.bankView (s : State) (f : Fld) (fast : Bool) (w : Nat) : Dword :=
  BitVec.ofNat 64 ((s.bankWord fast w).foldl (fun a n => if s.bankBit f fast n then a + 2 ^ (n % 64) else a) 0)
def State.seenView (s : State) (t : Nat) (fast : Bool) (w : Nat) : Dword :=
  BitVec.ofNat 64 ((s.bankWord fast w).foldl (fun a n => if s.sees t fast n then a + 2 ^ (n % 64) else a) 0)

end Sys2Proof.Machine
end

