-- ==== Sys2Proof/Machine/Power.lean ====
section
/-! DEFINITION. Power domains, the voltage loops of the vats and their caps, sensors, guest supplies, regulator faults, the
trip and the keep state (18, 16 R516, 22 R646). -/

namespace Sys2Proof.Machine

open Sys2Proof

/-- The voltage loop of a vat. -/
def State.vatPow (s : State) (v : Nat) : VatPow := smGet {} s.pow v
def State.setVatPow (s : State) (v : Nat) (x : VatPow) : State := { s with pow := smSet {} s.pow v x }

/-- A fault record of this chapter (18 R561). -/
def pwrRec (cls inst info : Nat) : FRec := { cls := cls, unit := 0x0D, inst := inst, info := info }

/-- The state of a domain (18 R541). -/
def State.domState (s : State) (d : Nat) : Nat := s.fld PWR_DOM_STAT.STATE d

/-- Reset the registers of register space from `lo` up to `hi`, but for those that stay. -/
def State.clearRegs (s : State) (lo hi : Nat) (keep : Nat → Bool) : State :=
  { s with regs := s.regs.filter (fun e => !(lo ≤ e.1 && e.1 < hi && !keep e.1)) }

/-! ### Hardware caps (18 R548) -/

/-- The lowest voltage, 0.55 V, and the highest, 0.85 V, as codes of 03 R88. -/
def vMin : Nat := 10
def vMax : Nat := 70

/-- The crock cap of a vat (10 R330, 18 R548). -/
def State.crockCap (s : State) (v : Nat) : Option Nat :=
  let cs := nearChans v
  if cs.any (fun c => decide (105 ≤ degC (s.fld CRK_CH_STAT.TEMP (c / 16) (c % 16)))) then some 10
  else match cs.foldl (fun a c => max a (s.fld CRK_CH_STAT.TLVL (c / 16) (c % 16))) 0 with
    | 0 => none
    | 1 => some 30
    | _ => some 20

/-- The caps of a vat in force, with their codes (18 R548). The device cap is in force below 0.85 V. -/
def State.hwCaps (s : State) (v : Nat) : List (Nat × Nat) :=
  let x := s.vatPow v
  let dev := s.fld PWR_LIMIT.DEVCAP
  (match s.crockCap v with
    | some c => [(2, c)]
    | none => [])
  ++ (match x.dieCap with
    | some c => [(3, c)]
    | none => [])
  ++ (if x.dieMax then [(4, vMin)] else [])
  ++ (if dev < vMax then [(5, dev)] else [])
  ++ (match x.curCap with
    | some c => [(6, c)]
    | none => [])

/-- The lowest of some caps, with the code of the one that binds: 0.85 V and code 0 where none is lower. -/
def lowestCap (cs : List (Nat × Nat)) : Nat × Nat :=
  cs.foldl (fun a c => if c.2 < a.2 then c else a) (0, vMax)

/-- The loop's want (18 R546). -/
def State.vatWant (s : State) (v b : Nat) : Nat :=
  let a := s.fld PWR_VAT_V.APPLIED v
  if s.bit PWR_VAT_V.POLICY v then s.fld PWR_VAT_V.CAP v
  else if s.fld PWR_LOOP.BHI ≤ b then a + 1
  else if b < s.fld PWR_LOOP.BLO then a - 1
  else a

/-- What the loop sets, as 18 R547 computes it. -/
def loopSet (want floor cap hw : Nat) : Nat := max (min (min (max want floor) cap) hw) vMin

/-- `VAT_VOLTAGE_LOOP` (18 R546, R547, R549): one interval of 10 µs, in which the voltage rises by one code or falls by up
to twenty. -/
def execVatVoltageLoop (v : VatId) (b : Fin 1025) (s : State) : Host.Outcome State Fault Refusal :=
  .next (if s.domState v ≠ 2 then s
    else
      let a := s.fld PWR_VAT_V.APPLIED v
      let floor := s.fld PWR_VAT_V.FLOOR v
      let cap := s.fld PWR_VAT_V.CAP v
      let want := s.vatWant v b
      let (code, hw) := lowestCap (s.hwCaps v)
      let x := loopSet want floor cap hw
      let (s, bind) := if x < floor then (s.bump PWR_VAT_PC_FLOORLOST v, 7)
        else if x < want ∧ x = cap then (s.bump PWR_VAT_PC_CAPHELD v, 1)
        else if x < want then (s.bump PWR_VAT_PC_HWHELD v, code)
        else (s, 0)
      let new := if a < x then a + 1 else max x (a - 20)
      ((s.setFld PWR_VAT_V.APPLIED new v).setFld PWR_VAT_V.HWCAP hw v).setFld PWR_VAT_V.BIND bind v)

/-- The power limit in 0.1 W; a limit of 0 acts as 1 W (18 R562). -/
def State.limit10 (s : State) : Nat := 10 * max 1 (s.fld PWR_LIMIT.LIMIT)

/-- `POWER_GOVERNOR` (18 R548): a measurement every 100 µs moves the device cap. -/
def execPowerGovernor (bodra guest gloss : BitVec 16) (s : State) : Host.Outcome State Fault Refusal :=
  let s := ((s.setFld PWR_MEAS.BODRA bodra.toNat).setFld PWR_MEAS.GUEST guest.toNat).setFld PWR_MEAS.GLOSS gloss.toNat
  let cap := s.fld PWR_LIMIT.DEVCAP
  let lim := s.limit10
  let above := decide (lim < bodra.toNat)
  let s := { s with sup := { s.sup with above := s.sup.above && above } }
  .next (if above then s.setFld PWR_LIMIT.DEVCAP (max vMin (cap - 1))
    else if bodra.toNat * 100 < lim * 97 then s.setFld PWR_LIMIT.DEVCAP (min vMax (cap + 1))
    else s)

/-- `POWER_OVER_LIMIT` (18 R550): power above the limit for 1 ms with the device cap at its lowest. -/
def execPowerOverLimit (s : State) : Host.Outcome State Fault Refusal :=
  .next (if s.fld PWR_LIMIT.DEVCAP = vMin ∧ s.limit10 < s.fld PWR_MEAS.BODRA then
      State.setFld { s with sup := { s.sup with above := true } } PWR_EVT.OVER 1
    else s)

/-- The junction temperature of a vat and its throttle threshold. -/
def State.vatTj (s : State) (v : Nat) : Int := degC (s.fld PWR_VAT_V.TJ v)
def State.throt (s : State) : Int := Int.ofNat (s.fld PWR_THR.THROT)

/-- `DIE_CAP_STEP` (18 R548): at a 100 µs mark an active die cap rises by 10 mV once the junction temperature is below
`THROT` − 2 °C, and falls by 10 mV until then; it ends when it is above `CAP` and
every other cap in force. -/
def execDieCapStep (v : VatId) (s : State) : Host.Outcome State Fault Refusal :=
  let x := s.vatPow v
  .next (match x.dieCap with
    | none => s
    | some c =>
      if s.vatTj v < s.throt - 2 then
        let others := (s.hwCaps v).filter (fun e => e.1 ≠ 3)
        let n := c + 2
        s.setVatPow v { x with dieCap := if s.fld PWR_VAT_V.CAP v < n ∧ others.all (fun e => e.2 < n) then none else some n }
      else s.setVatPow v { x with dieCap := some (max vMin (c - 2)) })

/-- `VAT_CURRENT_LIMIT` (18 R548): the current of a vat's regulator, in 0.1 A: at 24 A the cap falls by 10 mV, below 21.6 A
it rises by 5 mV and ends above `CAP`. -/
def execVatCurrentLimit (v : VatId) (amps : BitVec 16) (s : State) : Host.Outcome State Fault Refusal :=
  let x := s.vatPow v
  .next (if s.domState v ≠ 2 then s
    else if 240 ≤ amps.toNat then
      s.setVatPow v { x with curCap := some (max vMin (x.curCap.getD (s.fld PWR_VAT_V.APPLIED v) - 2)) }
    else if amps.toNat < 216 then
      match x.curCap with
      | none => s
      | some c => s.setVatPow v { x with curCap := if s.fld PWR_VAT_V.CAP v < c + 1 then none else some (c + 1) }
    else s)

/-! ### Sensors (18 R544, R545, R550) -/

/-- The vats next to a vat in the grid (01 R24). -/
def adjacentVats (v : Nat) : List Nat :=
  (if 0 < v % 8 then [v - 1] else []) ++ (if v % 8 < 7 then [v + 1] else [])
  ++ (if 8 ≤ v then [v - 8] else []) ++ (if v < 56 then [v + 8] else [])

/-- The junction temperature that a vat's own sensors give: none when both have failed (18 R544). -/
def State.ownTj (s : State) (v : Nat) : Option Int :=
  let ts := ([2 * v, 2 * v + 1].filter (fun n => !s.bit PWR_SENS.FAILED n)).map (fun n => degC (s.fld PWR_SENS.TEMP n))
  match ts with
  | [] => none
  | t :: r => some (r.foldl max t)

/-- The junction temperature of a vat (18 R544, R545). -/
def State.tjOf (s : State) (v : Nat) : Int :=
  match s.ownTj v with
  | some t => t
  | none => match (adjacentVats v).filterMap s.ownTj with
    | [] => s.vatTj v
    | t :: r => r.foldl max t + 5

/-- A vat's junction temperature moves, with the die caps that it puts in force (18 R548). -/
def State.tjUpdate (s : State) (v : Nat) : State :=
  let t := s.tjOf v
  let s := s.setFld PWR_VAT_V.TJ ((t + 256).toNat % 256) v
  let x := s.vatPow v
  s.setVatPow v { x with
    dieMax := decide (105 ≤ t) || (x.dieMax && decide (103 ≤ t))
    dieCap := match x.dieCap with
      | some c => some c
      | none => if s.domState v = 2 ∧ s.throt ≤ t then some (s.fld PWR_VAT_V.APPLIED v) else none }

/-- `SENSOR_SAMPLE` (18 R544, R545, R550): a failed sensor takes no part. -/
def execSensorSample (n : Fin 136) (temp : BitVec 8) (s : State) : Host.Outcome State Fault Refusal :=
  let old := degC (s.fld PWR_SENS.TEMP n)
  let t := degC temp.toNat
  let s := (s.setFld PWR_SENS.TEMP temp.toNat n).setFld PWR_SENS.PEAK (hotter (s.fld PWR_SENS.PEAK n) temp.toNat) n
  .next (if s.bit PWR_SENS.FAILED n then s
    else
      let s := if n.val < 128 then
          (n.val / 2 :: adjacentVats (n.val / 2)).foldl (fun s w => s.tjUpdate w) s
        else s
      if 105 ≤ t then
        let s := s.setFld PWR_EVT.HOT 1
        if old < 105 then s.fault (pwrRec 0x52 0 (n.val + temp.toNat * 2 ^ 12)) else s
      else s)

/-- Is the pin `ALERT_N` held low (18 R550)? -/
def State.alertLow (s : State) : Bool :=
  (List.range 136).any (fun n => !s.bit PWR_SENS.FAILED n && decide (105 ≤ degC (s.fld PWR_SENS.TEMP n)))
  || (List.range 128).any (fun c => decide (105 ≤ degC (s.fld CRK_CH_STAT.TEMP (c / 16) (c % 16))))
  || (List.range 8).any (fun p => decide (2 ≤ s.fld CEL_STAT.TLVL p))
  || s.sup.above
  || (List.range 80).any (fun d => decide (s.domState d = 4))

/-- Is the pin `TRIP_N` driven low (18 R551, R553)? -/
def State.tripLow (s : State) : Bool := s.sup.tripped

/-! ### Homes (18 R554) -/

/-- After a change of the usable slices, each slice keeps only lines whose home it is. -/
def State.homeSync (s : State) : State :=
  (List.range 64).foldl (fun (s : State) v =>
    s.crmInvalidate v (fun l => s.homeOf (s.place (l * 64)) (l * 64) ≠ some v) false) s

/-- The ways, the scratchpad owner and the shares of a slice as the running image gives them (03 R85, 09 R314). -/
def State.sliceConfig (s : State) (v : Nat) : State :=
  let r := (smFind s.img.slices v).getD {}
  let s := (s.setFld VAT_CRM_CFG.CACHE_WAYS r.ways v).setFld VAT_CRM_CFG.SCR_PART r.scrPart v
  (List.range 64).foldl (fun (s : State) p =>
    let (w, q) := match s.img.shares.find? (fun e => e.slice = v && e.part = p) with
      | some e => (e.wayMask.toNat, e.qshare)
      | none => (0, 0)
    (s.setFld VAT_CRM_SHARE.WAY_MASK w v p).setFld VAT_CRM_SHARE.QSHARE q v p) s

/-- Is the slice of a vat usable by the running image (09 R299)? -/
def State.memberVat (s : State) (v : Nat) : Bool := (s.partOf v).isSome && !s.bit MC_DEF_VAT.WITHDRAWN v

/-! ### A vat without power (18 R555 to R557) -/

/-- The contents of a vat's core section and hub are lost: what waits at its tallies is released with kind RESET and count
0, its units and its slice forget what they did, its arrays and its registers but for those of the mesh section's page
read as after a reset. -/
def State.vatLost (s : State) (v : Nat) : State :=
  let s := s.specReset v
  let s := s.clearUnits v
  let s := (List.range 256).foldl (fun (s : State) i =>
    if s.fld VAT_TALLY_WAITV.WAITV v i = 0 then s else (s.setCount (256 * v + i) 0).releaseAll (256 * v + i) 1) s
  let lo := csBase (64 * v)
  let hi := csBase (64 * (v + 1))
  let sc := 0x400000000 + v * 2 ^ 23
  let base := 0x1000000 + v * 0x100000
  let s := s.clearRegs base (base + 0x100000) (fun o => base + 0x50000 ≤ o && o < base + 0x60000)
  (({ s with
    tasks := s.tasks.filter (fun e => e.1 / 256 ≠ v)
    mem := s.mem.filter (fun c => !((lo ≤ c.1 && c.1 < hi) || (sc ≤ c.1 && c.1 < sc + 2 ^ 23)))
    tscCopy := smDel s.tscCopy v } : State).setSlice v { next := (s.slice v).next }).rebaseVat v true

/-- A vat leaves service: its slice is no home, and its voltage loop ends. -/
def State.vatOff (s : State) (v : Nat) : State :=
  let s := s.vatLost v
  let x := s.vatPow v
  let s := s.setVatPow v { x with dieCap := none, dieMax := x.dieMax, curCap := none }
  ((s.setFld PWR_VAT_V.APPLIED 0 v).setFld PWR_VAT_V.BIND 0 v).homeSync

/-! ### Domains (18 R539 to R542) -/

/-- A cellar position without power: no generator runs, no slice holds its lines, its registers are lost. -/
def State.celOff (s : State) (p : Nat) : State :=
  let s := (s.celTgStopAll p).celFlush p
  let x := s.cel p
  (s.setCel p { prev := x.prev, stack := x.stack }).clearRegs (0x800000 + p * 0x40000) (0x800000 + (p + 1) * 0x40000) (fun _ => false)

/-- A lane group without power. -/
def State.lnkOff (s : State) (g : Nat) : State :=
  let s := s.grpOff g
  let s := s.clearRegs (0x400000 + 12 * g * 0x10000) (0x400000 + 12 * (g + 1) * 0x10000) (fun _ => false)
  { s with lanes := s.lanes.filter (fun e => e.1 / 96 ≠ g), ports := s.ports.filter (fun e => e.1 / 12 ≠ g) }

/-- The face band without power: the levels of the guests' pins stay readable. -/
def State.faceOff (s : State) : State :=
  let s := (List.range 6).foldl (fun s n => s.siteOff n) s
  s.clearRegs 0xC00000 0xC60000 (fun o => o % 0x10000 = 0)

/-- What a domain holds is lost. -/
def State.domLost (s : State) (d : Nat) : State :=
  if d < 64 then s.vatOff d
  else if d < 72 then s.celOff (d - 64)
  else if d < 76 then s.lnkOff (d - 72)
  else if d = 76 then s.faceOff
  else if d = 77 then s.hostReset.setReg HOST_STAT 0
  else s

/-- A domain starts to ramp. The near channels of a vat wake (10 R332). -/
def State.domRamp (s : State) (d : Nat) : State :=
  let s := s.setFld PWR_DOM_STAT.STATE 1 d
  if 64 ≤ d then s
  else (nearChans d).foldl (fun (s : State) c => if s.crkState c = 2 then s.setCrkState c 3 else s) s

/-- A domain starts to drain: a vat is reset (phases 1 to 4 of 06 R219), ports and sites go to `OFF`. -/
def State.domDrain (s : State) (d : Nat) : State :=
  let s := s.setFld PWR_DOM_STAT.STATE 3 d
  if d < 64 then
    let s := (s.setFld VAT_STAT.RESETTING 1 d).setFld VAT_STAT.EPOCH ((s.fld VAT_STAT.EPOCH d + 1) % 256) d
    (s.specReset d).resetUnits d
  else if d < 72 then s.celTgStopAll (d - 64)
  else if d < 76 then s.grpOff (d - 72)
  else (List.range 6).foldl (fun s n => s.siteOff n) s

/-- Is a request permitted in the domain's state (18 R542)? -/
def State.reqOk (s : State) (d : Nat) (on : Bool) : Bool :=
  let st := s.domState d
  if d < 64 then on && st = 4 && !(s.vatPow d).dead
  else if d < 72 then
    if on then (st = 0 && s.img.cellarPop.getLsbD (d - 64)) || st = 4 else st = 2 && !s.celInUse (d - 64)
  else if d < 77 then (if on then st = 0 || st = 4 else st = 2)
  else false

/-- A request is judged against the state of its domain (18 R542). -/
def State.judgeReq (s : State) (d : Nat) (on : Bool) : State :=
  if s.reqOk d on then (if on then s.domRamp d else s.domDrain d) else s.bumpErr PWR_ERR.REQ_REJ

/-- A request is written: it waits while the domain is in `RAMP` or `DRAIN`. -/
def State.domRequest (s : State) (d : Nat) (on : Bool) : State :=
  if s.domState d = 1 ∨ s.domState d = 3 then { s with domReq := smPut s.domReq d (if on then 2 else 1) } else s.judgeReq d on

/-- Does the running image give a domain work (18 R539)? -/
def State.domWork (s : State) (d : Nat) : Bool :=
  if d < 64 then (s.partOf d).isSome
  else if d < 72 then s.img.cellarPop.getLsbD (d - 64)
  else if d < 76 then s.img.linkGroups.getLsbD (d - 72)
  else if d = 76 then s.img.faces.any (fun e => e.2.occ = 2)
  else true

/-- An image apply gives a domain work, or leaves it without (18 R542); a domain in transition is judged at its end. -/
def State.domApply (s : State) (d : Nat) : State :=
  match s.domState d with
  | 0 => if s.domWork d then s.domRamp d else s
  | 1 => { s with domReq := smPut s.domReq d 3 }
  | 2 => if s.domWork d then s else s.domDrain d
  | 3 => { s with domReq := smPut s.domReq d 3 }
  | _ => s

/-- A transition has ended: a request that waits is judged, and so is an image apply. -/
def State.reqWaiting (s : State) (d : Nat) : State :=
  match smFind s.domReq d with
  | none => s
  | some r =>
    let s : State := { s with domReq := smDel s.domReq d }
    if r = 3 then s.domApply d else s.judgeReq d (r = 2)

/-- `DOMAIN_REQ_ON` (18 R542). -/
def execDomainReqOn (d : DomId) (s : State) : Host.Outcome State Fault Refusal := .next (s.domRequest d true)

/-- `DOMAIN_REQ_OFF` (18 R542). -/
def execDomainReqOff (d : DomId) (s : State) : Host.Outcome State Fault Refusal := .next (s.domRequest d false)

/-- A domain begins to serve. A vat's arrays were cleared when it lost its power; its slice gains its classes, its loop
starts from `FLOOR`, its caches are initialised, its tallies and slots take the image's values, and tasks of stages without
an `IN_TALLY` are ready (00 R14, 06 R190, R219). A
cellar position trains; the ports of a group, or the sites, that an image apply gave work start. -/
def State.domBegin (s : State) (d : Nat) : State :=
  if d < 64 then
    let s := if s.memberVat d then (s.sliceConfig d).setFld VAT_CRM_CFG.USABLE 1 d else s
    let s := (List.range 64).foldl (fun s k => s.setFld VAT_CORE_STAT.CC_INIT 0 d k) s
    let s := s.setFld PWR_VAT_V.APPLIED (max vMin (s.fld PWR_VAT_V.FLOOR d)) d
    ((((s.homeSync.rebaseVat d true).startTallies d).startTasks d)).readyStages d
  else if d < 72 then
    let p := d - 64
    (s.setCel p { s.cel p with bringUp := true }).setFld CEL_STAT.STATE 1 p
  else if d < 76 then
    let g := d - 72
    let s := if s.refs.getLsbD g then s.setGrp LNK_GRP_STAT.REF_OK 1 g else s
    if s.domStart.contains d then
      (List.range 12).foldl (fun (s : State) i =>
        let u := (s.portRec (12 * g + i)).use
        if u = 1 ∨ u = 2 then s.portStart (12 * g + i) else s) s
    else s
  else if d = 76 ∧ s.domStart.contains d then (List.range 6).foldl (fun s n => s.siteStart n) s
  else s

/-- `DOMAIN_RAMP_COMPLETE` (18 R542, R555). -/
def execDomainRampComplete (d : DomId) (s : State) : Host.Outcome State Fault Refusal :=
  .next (if s.domState d ≠ 1 then s
    else
      let s := (s.setFld PWR_DOM_STAT.STATE 2 d).domBegin d
      State.reqWaiting { s with domStart := s.domStart.filter (fun e => e ≠ d.val) } d)

/-- Has a domain finished its work (18 R555 D2, 09 R299, 11 R348)? -/
def State.drained (s : State) (d : Nat) : Bool :=
  if d < 64 then (s.slice d).slots = []
  else if d < 72 then !s.memq.any (fun r => onCel (d - 64) r.line)
  else true

/-- A vat that drains takes no new request: its classes go to their next homes at the start of the drain (18 R554). -/
def State.drainHome (s : State) (d : Nat) : State :=
  if d < 64 ∧ s.bit VAT_CRM_CFG.USABLE d then (s.setFld VAT_CRM_CFG.USABLE 0 d).homeSync else s

/-- `DOMAIN_DRAIN_COMPLETE` (18 R542, R555): first the home transfer out of a vat, and then, when its slice has answered
what it accepted, its end. -/
def execDomainDrainComplete (d : DomId) (s : State) : Host.Outcome State Fault Refusal :=
  .next (if s.domState d ≠ 3 then s
    else
      let s := s.drainHome d
      if !s.drained d then s else ((s.setFld PWR_DOM_STAT.STATE 0 d).domLost d).reqWaiting d)

/-! ### Regulator faults (18 R542, R556, 22 R646) -/

/-- The code of a reason (18 R561). -/
def reasonCode (r : RegReason) : Nat :=
  match r with
  | .overcurrent => 1
  | .undervoltage => 2
  | .overvoltage => 3

/-- A domain faults: it is switched off. A vat that faults twice within one second stays so. -/
def State.domFault (s : State) (d code : Nat) : State :=
  let st := s.domState d
  if st ≠ 1 ∧ st ≠ 2 ∧ st ≠ 3 then s
  else
    let s := ((s.setFld PWR_DOM_STAT.STATE 4 d).setFld PWR_DOM_STAT.REASON code d).setFld PWR_EVT.REG 1
    let now := s.fld MC_TSC.COUNT
    let x := s.vatPow d
    let s := if d < 64 then
        s.setVatPow d { x with faultT := some now, dead := x.dead || (match x.faultT with
          | some t => decide (now < t + 100000000)
          | none => false) }
      else s
    let s := if d = 77 ∨ d = 78 then s.goFatal 3 (pwrRec 0x50 d code) else s.fault (pwrRec 0x50 d code)
    (s.domLost d).reqWaiting d

/-- `REGULATOR_FAULT` (18 R540, R542, R556, 22 R646). `PD_AON` and domains that are not supplied do not fault. -/
def execRegulatorFault (u : Regulator) (reason : RegReason) (s : State) : Host.Outcome State Fault Refusal :=
  let code := reasonCode reason
  .next (match u with
    | .dom d => if d.val = 79 then s else s.domFault d code
    | .mesh v => (s.setFld PWR_EVT.REG 1).goFatal 3 (pwrRec 0x50 v code)
    | .crock k =>
      let s := (List.range 16).foldl (fun (s : State) j => s.setFld CRK_CH_ECCSTAT.FAILED 1 k j) s
      ((s.dicLatch (195 + k.val)).setFld PWR_EVT.REG 1).fault (pwrRec 0x50 k code))

/-! ### One state, two copies (18 R558, R559) -/

/-- The bit of a domain in `PWR_SKEW0` or `PWR_SKEW1`. -/
def State.setSkew (s : State) (d : Nat) (x : Bool) : State :=
  if d < 64 then s.setReg PWR_SKEW0 (putBits (s.reg PWR_SKEW0) d 1 x.toNat)
  else s.setReg PWR_SKEW1 (putBits (s.reg PWR_SKEW1) (d - 64) 1 x.toNat)

/-- `PWR_DOM_SHADOW_WRITE` (18 R559). -/
def execPwrDomShadowWrite (d : DomId) (data : Word) (s : State) : Host.Outcome State Fault Refusal :=
  let x := bvBits data 0 3
  let s := s.setFld PWR_DOM_SHADOW.STATE x d
  .next (if x = s.domState d then s.setSkew d false else s)

/-- `STATE_SKEW` (18 R559). -/
def execStateSkew (d : DomId) (s : State) : Host.Outcome State Fault Refusal :=
  let sh := s.fld PWR_DOM_SHADOW.STATE d
  .next (if sh = s.domState d then s
    else ((s.setSkew d true).setFld PWR_EVT.SKEW 1).fault (pwrRec 0x51 d (sh + s.domState d * 8)))

/-! ### Registers (18 R562 to R564) -/

/-- `PWR_VAT_V_WRITE` (18 R563): a code outside 10 to 70, or a floor above the cap, is ignored and counted. -/
def execPwrVatVWrite (v : VatId) (data : Dword) (s : State) : Host.Outcome State Fault Refusal :=
  let f := bvBits data 0 8
  let c := bvBits data 8 8
  .next (if f < vMin ∨ vMax < f ∨ c < vMin ∨ vMax < c ∨ c < f then s.bumpErr PWR_ERR.WR_REJ
    else s.putFields [PWR_VAT_V.FLOOR, PWR_VAT_V.CAP, PWR_VAT_V.POLICY] data v)

/-- `PWR_LIMIT_WRITE` (18 R548, R562): never above `POWER_LIMIT` of the running image. -/
def execPwrLimitWrite (data : Word) (s : State) : Host.Outcome State Fault Refusal :=
  .next (s.setFld PWR_LIMIT.LIMIT (min (bvBits data 0 10) s.img.powerLimit))

/-- `PWR_G_CFG_WRITE` (18 R543, R564): the supply of a site that runs follows. -/
def execPwrGCfgWrite (n : SiteId) (data : Word) (s : State) : Host.Outcome State Fault Refusal :=
  let c := bvBits data 0 8
  .next (if c < 20 ∨ 100 < c then s.bumpErr PWR_ERR.WR_REJ
    else
      let s := s.setFld PWR_G_CFG.VSET c n
      if s.fld PWR_G_MEAS.V n = 0 then s else s.guestOn n)

/-! ### Loss of power (16 R516, 18 R551 to R553, 19 R565) -/

/-- What every reset of the device keeps of the register space: `MC_TSC`, the ledger's first mismatch and its flag, the
record of a trip, the journal in MRAM and the count of starts (02 R56, R65, 19 R565, R573, R591). -/
def keptRegs (s : State) : State → State := fun t =>
  let t : State := { t with regs := s.regs.filter (fun e =>
    e.1 = MC_TSC.addr || e.1 = MC_LEDGER_REC.addr || e.1 = PWR_TRIP_REC.addr
    || (MC_JRNL.addr ≤ e.1 && e.1 < MC_JRNL.addr + 0x10000)) }
  ((t.setFld MC_LEDGER_STAT.MISMATCH (s.fld MC_LEDGER_STAT.MISMATCH)).setFld MC_JRNL_STAT.USED (s.fld MC_JRNL_STAT.USED)).setFld
    MC_BOOT_STAT.START_CNT (s.fld MC_BOOT_STAT.START_CNT)

/-- Does a device physical address lie in a kept region whose contents last: one that is not lost, and not among those
entries? -/
def State.lasts (s : State) (lost : List Nat) (a : Nat) : Bool :=
  s.keep.any (fun (n, k) => !k.lost && !lost.contains n &&
    (if k.cellar then decide (celBase k.pos + k.base * 2 ^ 30 ≤ a ∧ a < celBase k.pos + (k.base + k.size) * 2 ^ 30)
    else decide (k.base * 2 ^ 25 ≤ a ∧ a < (k.base + k.size) * 2 ^ 25)))

/-- Every domain except `PD_AON` goes off: only MRAM, what `PD_AON` keeps and the kept regions' contents last. -/
def State.powerDown (s : State) (lost : List Nat) : State :=
  let t : State := { ({} : State) with
    pending := s.pending
    free := s.free
    refs := s.refs
    keep := s.keep
    mram := s.mram
    cels := (List.range 8).foldl (fun m p => smSet {} m p { prev := (s.cel p).prev }) []
    late := s.late
    jtag := s.jtag
    jtagDr := s.jtagDr
    fqSeq := s.fqSeq
    mem := s.mem.filter (fun c => s.lasts lost c.1)
    valid := s.valid.filter (fun e => s.lasts lost (e.1 * 32768))
    sup := { s.sup with above := false, lost := lost } }
  (keptRegs s t).setFld PWR_DOM_STAT.STATE 2 79

/-- Complete the writes that the memory controllers have accepted (16 R516 phase 2). -/
def State.finishWrites (s : State) : State :=
  let s := s.memq.foldl (fun (s : State) r =>
    match r.write with
    | some (m, d) =>
      let s := { s with mem := Memory.write s.mem (r.line * 64) m.toNat d.toNat 64 }
      if r.line * 64 < 0x400000000 then s.setValid r.line else s
    | none => s) s
  { s with memq := [] }

/-- `POWER_FAIL_WARNING` (16 R516, 22 R648, R649): the keep state. A channel or a stack of the masks did not enter
self-refresh before its rail fell: the entries that depend on it are lost. -/
def execPowerFailWarning (noCrk : BitVec 128) (noCel : BitVec 8) (s : State) : Host.Outcome State Fault Refusal :=
  .next (if !s.sup.pwrOk then s
    else
      let s := s.finishWrites
      let lost := (s.keep.filter (fun (_, k) => if k.cellar then noCel.getLsbD k.pos
        else (s.chanSet k.region).any (fun c => noCrk.getLsbD c))).map Prod.fst
      let s := s.powerDown (s.sup.lost ++ lost)
      { s with sup := { s.sup with pwrOk := false, due := none } })

/-- Is the source of a trip a sensor that has not failed, or a layer of a crock channel (18 R550, R562)? -/
def State.tripSrc (s : State) (src : Nat) : Bool :=
  if src < 136 then !s.bit PWR_SENS.FAILED src else 0x800 ≤ src && src < 0xC00 && src % 8 < 5

/-- `THERMAL_TRIP` (18 R551 to R553): everything but `PD_AON` is switched off, and nothing is kept but MRAM and the
record. -/
def execThermalTrip (src : BitVec 12) (temp : BitVec 8) (mram : Fin 4) (s : State) : Host.Outcome State Fault Refusal :=
  .next (if !s.sup.pwrOk ∨ s.sup.tripped ∨ !s.tripSrc src.toNat ∨ degC temp.toNat < 120 then s
    else
      let w := 1 + mram.val * 2 + src.toNat * 2 ^ 4 + temp.toNat * 2 ^ 16 + bvBits (s.reg MC_TSC) 0 32 * 2 ^ 32
      let s := s.setReg PWR_TRIP_REC (BitVec.ofNat 64 w)
      let s := s.powerDown (s.keep.map Prod.fst)
      { s with sup := { s.sup with tripped := true, tripRec := true, due := none } })

end Sys2Proof.Machine
end

