-- ==== Sys2Proof/Machine/ImageCheck.lean ====
section
/-! DEFINITION. Rennet images as bytes, and their validation in the order of 03 R92. -/

namespace Sys2Proof.Machine

open Sys2Proof

/-! ### Bytes -/

/-- `n` bytes from offset `o`. -/
def bytesAt (b : List Byte) (o n : Nat) : List Byte := (b.drop o).take n

/-- A little-endian field (00 R10). Bytes beyond the end read as 0. -/
def leAt (b : List Byte) (o n : Nat) : Nat := (bytesAt b o n).foldr (fun x a => x.toNat + 256 * a) 0

/-- The first byte that is not 0 among `n` from offset `o`. -/
def firstNonZero (b : List Byte) (o n : Nat) : Option Nat := ((bytesAt b o n).findIdx? (fun x => x ≠ 0)).map (fun i => o + i)

/-- The first offset, counted from `o`, with a bit of a reserved mask set: entries give start, bytes and the mask of each
byte, by rising start. -/
def reservedAt (b : List Byte) (o : Nat) (ms : List (Nat × Nat × Nat)) : Option Nat :=
  ms.findSome? (fun (st, n, m) => (List.range n).findSome? (fun i =>
    if Nat.land (leAt b (o + st + i) 1) m = 0 then none else some (o + st + i)))

/-! ### Failures (03 R93, R101) -/

/-- A failure: its code, the section's index (0xFE header, 0xFF signature block), the partition or 0xFF, the offset. -/
structure ImgErr where
  code : Nat
  sect : Nat := 0xFE
  part : Nat := 0xFF
  off : Nat := 0
  deriving DecidableEq, Repr

/-- A check: its first failure. -/
abbrev Chk := Option ImgErr

/-- The first failure of some checks. -/
def firstErr (cs : List Chk) : Chk := cs.findSome? id

/-- A condition that must hold. -/
def need (ok : Bool) (e : ImgErr) : Chk := if ok then none else some e

/-! ### The parts of an image (03 R69 to R73) -/

/-- A section: its index, the fields of its directory entry, its bytes. -/
structure Sect where
  idx : Nat
  type : Nat
  part : Nat
  off : Nat
  len : Nat
  digest : Nat
  bytes : List Byte
  deriving DecidableEq, Repr

/-- The header's fields (03 R70). -/
def imgCount (b : List Byte) : Nat := leAt b 0x0E 2
def imgSigOff (b : List Byte) : Nat := leAt b 0x14 4
def imgKind (b : List Byte) : Nat := leAt b 8 1
def imgDev (b : List Byte) : Nat := leAt b 0x0C 2 % 2 ^ 14
def imgSeq (b : List Byte) : Nat := leAt b 0x18 8

/-- A directory entry's offset in the image. -/
def entryOff (i : Nat) : Nat := 0x80 + 64 * i

/-- The sections in directory order. -/
def imgSects (b : List Byte) : List Sect :=
  (List.range (imgCount b)).map (fun i =>
    let e := entryOff i
    let off := leAt b (e + 4) 4
    let len := leAt b (e + 8) 4
    { idx := i, type := leAt b e 1, part := leAt b (e + 2) 1, off := off, len := len, digest := leAt b (e + 0x10) 48
      bytes := bytesAt b off len })

/-- A failure at an offset of a section. -/
def Sect.err (x : Sect) (code o : Nat) : ImgErr := ⟨code, x.idx, x.part, x.off + o⟩

/-- A failure at a field of a section's directory entry. -/
def Sect.dirErr (x : Sect) (code f : Nat) : ImgErr := ⟨code, x.idx, x.part, entryOff x.idx + f⟩

/-- A field of a section. -/
def Sect.n (x : Sect) (o k : Nat) : Nat := leAt x.bytes o k

/-- The offsets of a section's records. -/
def Sect.recs (x : Sect) (base size : Nat) : List Nat := (List.range ((x.len - base) / size)).map (fun i => base + size * i)

/-- The reserved bits of the records at some offsets (03 R74). -/
def Sect.res (x : Sect) (os : List Nat) (ms : List (Nat × Nat × Nat)) : Chk :=
  (os.findSome? (fun o => reservedAt x.bytes o ms)).map (x.err 0x10)

/-- Check every record. -/
def Sect.each (os : List Nat) (f : Nat → List Chk) : Chk := os.findSome? (fun o => firstErr (f o))

/-! ### Steps 1 to 4 (03 R92) -/

/-- Step 1: the header. -/
def State.chkHeader (s : State) (len : Nat) (b : List Byte) : Chk :=
  let e := fun code off => ({ code := code, off := off } : ImgErr)
  let n := leAt b 0x10 4
  firstErr [
    need (leAt b 0 4 = 0x4E4E4552) (e 1 0),
    need (leAt b 4 2 = 1) (e 2 4),
    need (leAt b 6 2 = 0) (e 2 6),
    need (leAt b 9 1 = 0xA1) (e 3 9),
    need ((leAt b 0x0A 1).testBit (s.fld RIND_FUSE.CODE_V)) (e 4 0x0A),
    need (n % 64 = 0 && n ≤ 2 ^ 28 && n = len && b.length = len) (e 5 0x10),
    need (imgSigOff b % 64 = 0 && imgSigOff b + 4736 = n) (e 5 0x14),
    need (s.fld MC_IMG_MINSEQ.MIN ≤ imgSeq b) (e 6 0x18),
    need (imgKind b ≤ 1) (e 0x10 8),
    (reservedAt b 0 [(0x0A, 1, 0xFC), (0x0B, 1, 0xFF), (0x0D, 1, 0xC0), (0x30, 80, 0xFF)]).map (e 0x10)]

/-- What the signatures of an image cover: its header and its directory (03 R72). -/
def imgSigned (b : List Byte) : List Byte := b.take (entryOff (imgCount b))

/-- Step 2: the signature block. A device that is not claimed has no key slot (21 R625). -/
def State.chkSignature (s : State) (b : List Byte) : Chk :=
  let o := imgSigOff b
  let e := fun code off => ({ code := code, sect := 0xFF, off := o + off } : ImgErr)
  let k := leAt b (o + 4) 4
  let slot := smGet ({} : RindSlot) s.mram.slots k
  firstErr [
    need (leAt b o 4 = 1) (e 2 0),
    need (k ≤ 7 && s.mram.claimed && slot.state = 1) (e 7 4),
    need (Config.ecdsaOk slot.ec (imgSigned b) (bytesAt b (o + 8) 96)) (e 8 8),
    need (Config.mldsaOk slot.ml (imgSigned b) (bytesAt b (o + 0x68) 4627)) (e 9 0x68),
    (firstNonZero b (o + 4731) 5).map (fun i => ({ code := 0x10, sect := 0xFF, off := i } : ImgErr))]

/-- Is a section type defined (03 R73)? -/
def typeOk (t : Nat) : Bool := (1 ≤ t && t ≤ 0x0E) || (0xE0 ≤ t && t ≤ 0xFE)

/-- The end of the section before, for each section: the directory's end for the first. -/
def sectEnds (d : Nat) : List Sect → List (Sect × Nat)
  | [] => []
  | x :: xs => (x, d) :: sectEnds (x.off + x.len) xs

/-- The first multiple of 64 at or after `n`. -/
def up64 (n : Nat) : Nat := (n + 63) / 64 * 64

/-- Step 3: the directory, then the bytes between sections (log 24). -/
def chkDirectory (b : List Byte) : Chk :=
  let xs := imgSects b
  let so := imgSigOff b
  let d := entryOff (imgCount b)
  let last := xs.foldl (fun _ x => x.off + x.len) d
  firstErr ([need (1 ≤ imgCount b && imgCount b ≤ 64 && d ≤ so) { code := 0x0A, off := 0x0E }]
    ++ (sectEnds d xs).map (fun (x, prev) => firstErr [
        need (1 ≤ x.len) (x.dirErr 0x0A 8),
        need (x.off % 64 = 0 && prev ≤ x.off) (x.dirErr 0x0A 4),
        need (x.off + x.len ≤ so) (x.dirErr 0x0A 8),
        (reservedAt b (entryOff x.idx) [(1, 1, 0xFF), (3, 1, 0xFF), (0x0C, 4, 0xFF)]).map (fun i => ⟨0x10, x.idx, x.part, i⟩),
        need (typeOk x.type) (x.dirErr 0x0B 0)])
    ++ [need (so = up64 last) { code := 5, off := 0x14 }]
    ++ (sectEnds d xs).map (fun (x, prev) =>
        (firstNonZero b prev (x.off - prev)).map (fun i => ({ code := 0x10, sect := x.idx, off := i } : ImgErr)))
    ++ [(firstNonZero b last (so - last)).map (fun i => ({ code := 0x10, sect := 0xFF, off := i } : ImgErr))])

/-- Do the bytes of a section match its digest (03 R71)? The digest is read as a number, its first byte lowest. -/
def Sect.digestOk (x : Sect) : Bool := (Config.sha384 x.bytes).toNat = x.digest

/-- Step 4: the digests. -/
def chkDigests (xs : List Sect) : Chk := xs.findSome? (fun x => need x.digestOk (x.dirErr 0x0C 0x10))

/-! ### Step 5: each section's own fields (03 R76 to R91) -/

/-- Does a section's length fit its structure (03 R73)? -/
def Sect.lenOk (x : Sect) : Bool :=
  match x.type with
  | 1 => x.len = 64
  | 2 => x.len = 64
  | 3 => x.len % 72 = 0
  | 4 => x.len % 72 = 0
  | 5 => x.len % 32 = 0
  | 6 => x.len % 16 = 0
  | 7 => 8 ≤ x.len && x.len = 8 + 8 * (x.n 0 2 + x.n 2 2)
  | 8 => 16 ≤ x.len && x.len = 16 + 16 * x.n 8 2
  | 9 => 8 ≤ x.len && x.len = 8 + 16 * x.n 0 2
  | 10 => x.len % 4 = 0
  | 11 => 400 ≤ x.len && x.len = 400 + 8 * x.n 0x0A 2
  | 12 => x.len = 16
  | 13 => x.len % 8 = 0
  | 14 => x.len = 48
  | _ => true

/-- The records of each kind of section. -/
def Sect.slices (x : Sect) : List Nat := (List.range (x.n 0 2)).map (fun i => 8 + 8 * i)
def Sect.shares (x : Sect) : List Nat := (List.range (x.n 2 2)).map (fun i => 8 + 8 * x.n 0 2 + 8 * i)
def Sect.ports (_ : Sect) : List Nat := (List.range 48).map (fun p => 16 + 8 * p)
def Sect.routes (x : Sect) : List Nat := (List.range (x.n 0x0A 2)).map (fun i => 400 + 8 * i)

/-- The reserved bits of a section. -/
def Sect.reserved (x : Sect) : Chk :=
  match x.type with
  | 1 => x.res [0] [(2, 1, 0xF0), (3, 1, 0xFF), (6, 58, 0xFF)]
  | 2 => x.res [0] [(4, 4, 0xFF), (0x11, 1, 0xF8), (0x13, 1, 0xF0), (0x14, 44, 0xFF)]
  | 3 => x.res (x.recs 0 72) [(2, 6, 0xFF)]
  | 4 => x.res (x.recs 0 72) [(1, 7, 0xFF)]
  | 5 => x.res (x.recs 0 32) [(3, 1, 0xFF), (0x14, 12, 0xFF)]
  | 6 => x.res (x.recs 0 16) [(1, 1, 0xC0), (2, 2, 0xFF), (12, 4, 0xFF)]
  | 7 => firstErr [x.res [0] [(4, 4, 0xFF)], x.res x.slices [(3, 5, 0xFF)], x.res x.shares [(5, 3, 0xFF)]]
  | 8 => firstErr [x.res [0] [(10, 6, 0xFF)], x.res (x.recs 16 16) [(7, 1, 0xF8), (9, 7, 0xFF)]]
  | 9 => firstErr [x.res [0] [(2, 6, 0xFF)], x.res (x.recs 8 16) [(2, 1, 0xF8), (3, 1, 0xFF), (8, 8, 0xFF)]]
  | 11 => firstErr [x.res [0] [(1, 1, 0xFF), (0x0C, 4, 0xFF)], x.res x.ports [(3, 1, 0xC0), (5, 3, 0xFF)],
      x.res x.routes [(1, 1, 0xC0)]]
  | 12 => x.res [0] [(1, 1, 0xC0), (3, 13, 0xFF)]
  | 13 => x.res (x.recs 0 8) [(2, 2, 0xFF)]
  | 14 => x.res (x.recs 0 8) [(4, 4, 0xFF)]
  | _ => none

/-- Bytes of an array that break a rule. -/
def badByte (os : List Nat) (bad : Nat → Bool) (e : Nat → ImgErr) : Chk := (os.find? bad).map e

/-- The cores of a press or a whisk that holds core k (03 R82). -/
def clusterOf (kind k : Nat) : List Nat :=
  match kind with
  | 1 => let b := k / 16 * 16 + k % 8 / 2 * 2; [b, b + 1, b + 8, b + 9]
  | 2 => [k / 2 * 2, k / 2 * 2 + 1]
  | _ => [k]

/-- Is a physical core defective (19 R592)? -/
def State.coreBad (s : State) (v i : Nat) : Bool :=
  if i < 64 then (s.fld MC_DEF_MAP0.DEF v).testBit i else (s.fld MC_DEF_MAP1.DEF v).testBit (i - 64)

/-- Is a value a code of R88? -/
def voltOk (c : Nat) : Bool := 10 ≤ c && c ≤ 70

/-- The page kinds of R91: 0 not permitted, 1 read-only, 2 read-only or read-write. -/
def pageKind (o : Nat) : Nat :=
  if 0x1000000 ≤ o ∧ o < 0x5000000 then 2
  else if 0xC00000 ≤ o ∧ o < 0xC60000 then 2
  else if (0x400000 ≤ o ∧ o < 0x700000) ∨ (0x800000 ≤ o ∧ o < 0xC00000) then 1
  else 0

/-- The rating and the capacity in GiB of the stack that the last bring-up found at a position. -/
def State.celStack (s : State) (p : Nat) : Nat × Nat := (s.cel p).stack.getD (0, 0)

/-- The fields of one section. A value outside its range for which the spec names no code takes its section's own code
(log 24). -/
def State.chkFields (s : State) (dev kind : Nat) (x : Sect) : Chk :=
  match x.type with
  | 1 =>
    let pop := x.n 0 1
    let rate := x.n 1 1
    let here := (List.range 8).filter (fun p => pop.testBit p)
    firstErr [
      need (here.all (fun p => (s.cel p).stack.isSome)) (x.err 0x1D 0),
      need (64 ≤ rate && rate ≤ 100 && here.all (fun p => rate ≤ (s.celStack p).1)) (x.err 0x1D 1),
      need (1 ≤ x.n 4 2 && x.n 4 2 ≤ 720) (x.err 0x20 4)]
  | 14 =>
    let os := x.recs 0 8
    Sect.each os (fun o => [
      need (x.n o 1 ≤ 2) (x.err 0x10 o),
      need (x.n o 1 = 2 || x.n (o + 1) 1 = 0xFF) (x.err 0x25 (o + 1)),
      need (x.n o 1 = 2 || x.n (o + 2) 2 = 0) (x.err 0x25 (o + 2)),
      need (x.n (o + 2) 2 ≤ 300) (x.err 0x20 (o + 2)),
      need ((os.filter (fun q => q ≤ o)).foldl (fun a q => a + x.n (q + 2) 2) 0 ≤ 1200) (x.err 0x20 (o + 2))])
  | 3 => Sect.each (x.recs 0 72) (fun o =>
      let v := x.n o 1
      let m := fun k => x.n (o + 8 + k) 1
      [need (x.n (o + 1) 1 ≤ 1) (x.err 0x10 (o + 1)),
       if x.n (o + 1) 1 = 0 then badByte (List.range 64) (fun k => m k ≠ 0) (fun k => x.err 0x14 (o + 8 + k))
       else badByte (List.range 64) (fun k => 71 < m k || s.coreBad v (m k) || (List.range k).any (fun j => m j = m k))
         (fun k => x.err 0x14 (o + 8 + k))])
  | 4 => Sect.each (x.recs 0 72) (fun o =>
      let kd := fun k => x.n (o + 8 + k) 1
      [badByte (List.range 64) (fun k => 2 < kd k) (fun k => x.err 0x10 (o + 8 + k)),
       badByte (List.range 64) (fun k => !(clusterOf (kd k) k).all (fun j => kd j = kd k)) (fun k => x.err 0x15 (o + 8 + k))])
  | 5 => Sect.each (x.recs 0 32) (fun o => [need (x.n (o + 4) 2 % 4 = 0) (x.err 0x17 (o + 4))])
  | 7 => Sect.each x.slices (fun o => [need (x.n (o + 1) 1 ≤ 16) (x.err 0x19 (o + 1))])
  | 8 =>
    firstErr [
      badByte (List.range 8) (fun k => 0x10 ≤ x.n k 1 && x.n k 1 ≠ 0xFF) (fun k => x.err 0x1C k),
      Sect.each (x.recs 16 16) (fun o =>
        let im := x.n (o + 5) 1
        [need (im ≤ 2) (x.err 0x10 (o + 5)),
         need (im = 2 || x.n (o + 6) 1 = 0) (x.err 0x10 (o + 6)),
         need (im = 1 || x.n (o + 8) 1 = 0) (x.err 0x10 (o + 8)),
         need (x.n (o + 6) 1 ≤ 63) (x.err 0x1B (o + 6)),
         need (x.n (o + 8) 1 ≤ 7) (x.err 0x1B (o + 8)),
         need (1 ≤ x.n (o + 2) 2) (x.err 0x1B (o + 2)),
         need (x.n o 2 + x.n (o + 2) 2 ≤ 511) (x.err 0x1B o)])]
  | 9 => Sect.each (x.recs 8 16) (fun o => [
      need (x.n o 1 ≤ 7) (x.err 0x1E o),
      need (1 ≤ x.n (o + 6) 2) (x.err 0x1E (o + 6)),
      need (s.bit RIND_FUSE.CLEAR_OK || (x.n (o + 2) 1).testBit 1) (x.err 0x1F (o + 2))])
  | 10 => Sect.each (x.recs 0 4) (fun o => [
      need (x.n (o + 3) 1 ≤ 1) (x.err 0x10 (o + 3)),
      need (voltOk (x.n (o + 1) 1)) (x.err 0x20 (o + 1)),
      need (voltOk (x.n (o + 2) 1)) (x.err 0x20 (o + 2)),
      need (x.n (o + 1) 1 ≤ x.n (o + 2) 1) (x.err 0x20 (o + 1))])
  | 11 =>
    firstErr [
      need (x.n 0 1 ≤ 4) (x.err 0x10 0),
      need (1 ≤ x.n 8 2 && x.n 8 2 ≤ 16384) (x.err 0x22 8),
      need (x.n 0x0A 2 ≤ 16383) (x.err 0x22 0x0A),
      Sect.each x.ports (fun o =>
        let use := x.n o 1
        [need (use ≤ 2) (x.err 0x10 o),
         need (use ≠ 2 || 16 + 8 * 46 ≤ o) (x.err 0x21 o),
         need (use = 0 || x.n (o + 1) 1 < 48 || x.n (o + 1) 1 = 0xFF) (x.err 0x21 (o + 1)),
         need (use = 0 || x.n (o + 4) 1 < 48) (x.err 0x21 (o + 4))]),
      Sect.each x.routes (fun o => [need (x.n o 2 % 2 ^ 14 ≠ dev) (x.err 0x22 o)])]
  | 12 => need (x.n 2 1 ≤ 1) (x.err 0x10 2)
  | 13 => Sect.each (x.recs 0 8) (fun o =>
      let page := x.n (o + 4) 4
      [need (x.n (o + 1) 1 ≤ 1) (x.err 0x10 (o + 1)),
       need (page % 65536 = 0 && x.n (o + 1) 1 < pageKind page) (x.err 0x24 (o + 4))])
  | 2 =>
    let mask := x.n 8 8
    let peer := x.n 3 1
    let cnt := (List.range 64).filter (fun v => mask.testBit v)
    firstErr [
      need (x.n 1 1 ≤ 1) (x.err 0x10 1),
      need (x.n 0 1 ≤ 63 && x.n 0 1 = x.part) (x.err 0x11 0),
      need (x.n 2 1 ≤ 63) (x.err 0x11 2),
      need (peer = 0xFF || (peer ≤ 63 && peer ≠ x.n 0 1)) (x.err 0x11 3),
      need (x.n 0x10 2 + x.n 0x12 2 ≤ 2048) (x.err 0x11 0x12),
      need (mask ≠ 0 || kind = 1) (x.err 0x11 8),
      need (mask ≠ 0 || peer = 0xFF) (x.err 0x11 3),
      if mask ≠ 0 then none else (firstNonZero x.bytes 1 2).map (x.err 0x11),
      if mask ≠ 0 then none else (firstNonZero x.bytes 0x10 4).map (x.err 0x11),
      need (x.n 1 1 = 0 || cnt.length ≤ 16) (x.err 0x16 1)]
  | _ => none

/-- Step 5: the length of a section, its reserved bits, its fields. -/
def State.chkSects (s : State) (dev kind : Nat) (xs : List Sect) : Chk :=
  xs.findSome? (fun x => firstErr [need x.lenOk (x.dirErr 0x0D 8), x.reserved, s.chkFields dev kind x])

/-! ### The configuration that an image gives (03 R75 to R91) -/

/-- The sections of a type. -/
def ofType (xs : List Sect) (t : Nat) : List Sect := xs.filter (fun x => x.type = t)

/-- The records of every section of a type, with their section. -/
def recsOf (xs : List Sect) (t base size : Nat) : List (Sect × Nat) :=
  (ofType xs t).flatMap (fun x => (x.recs base size).map (fun o => (x, o)))

/-- A partition record. -/
def Sect.partRec (x : Sect) : PartRec :=
  { mode := x.n 1 1, hostFn := x.n 2 1, verifyPeer := x.n 3 1, vatMask := BitVec.ofNat 64 (x.n 8 8)
    msixBase := x.n 0x10 2, msixCount := x.n 0x12 2 }

/-- The map of a vat under `RMODE` 0: the cores that are not defective, in rising physical index (03 R81). -/
def State.autoMap (s : State) (v : Nat) : List Nat := ((List.range 72).filter (fun i => !s.coreBad v i)).take 64

/-- Entries of a sorted list of keys, in rising order. -/
def keyed {α : Type} (l : List (Nat × α)) : List (Nat × α) := l.foldl (fun m e => smPut m e.1 e.2) []

/-- A crock region record. -/
def Sect.crockRec (x : Sect) (o : Nat) : CrockRegion :=
  let f := x.n (o + 7) 1
  { base := x.n o 2, size := x.n (o + 2) 2, part := x.n (o + 4) 1, imode := x.n (o + 5) 1, vat := x.n (o + 6) 1
    keep := f.testBit 0, kv := f.testBit 1, shared := f.testBit 2, crock := x.n (o + 8) 1 }

/-- A cellar region record. -/
def Sect.cellarRec (x : Sect) (o : Nat) : CellarRegion :=
  let f := x.n (o + 2) 1
  { pos := x.n o 1, part := x.n (o + 1) 1, keep := f.testBit 0, encrypt := f.testBit 1, shared := f.testBit 2
    base := x.n (o + 4) 2, size := x.n (o + 6) 2 }

/-- The partition of a partition image. -/
def imgPart (xs : List Sect) : Nat :=
  match ofType xs 2 with
  | x :: _ => x.part
  | [] => (xs.map (fun x => x.part)).headD 0

/-- The vats of a mask. -/
def maskVats (m : BitVec 64) : List Nat := (List.range 64).filter (fun v => m.getLsbD v)

/-- The partitions that an image defines, with their sections. -/
def imgParts (xs : List Sect) : List (Nat × PartRec) :=
  ((ofType xs 2).filter (fun x => x.n 8 8 ≠ 0)).map (fun x => (x.part, x.partRec))

/-- What a partition image starts from: the running configuration without its partition (03 R75). -/
def Image.without (m : Image) (p : Nat) : Image :=
  let old := match m.parts.find? (fun e => e.1 = p) with
    | some e => maskVats e.2.vatMask
    | none => []
  { m with
    parts := m.parts.filter (fun e => e.1 ≠ p)
    maps := m.maps.filter (fun e => !old.contains e.1)
    kinds := m.kinds.filter (fun e => !old.contains e.1)
    stages := m.stages.filter (fun r => r.part ≠ p)
    tallies := m.tallies.filter (fun r => !old.contains (r.id / 256))
    slices := (m.slices.filter (fun e => !old.contains e.1)).map (fun e => (e.1, { e.2 with scrPart := if e.2.scrPart = p then 255 else e.2.scrPart }))
    shares := m.shares.filter (fun r => r.part ≠ p)
    crock := m.crock.filter (fun r => r.part ≠ p)
    cellar := m.cellar.filter (fun r => r.part ≠ p)
    regmap := m.regmap.filter (fun r => r.part ≠ p) }

/-- The configuration that results from applying the sections of an image. -/
def State.newImage (s : State) (kind : Nat) (xs : List Sect) : Image :=
  let base : Image := if kind = 0 then {} else s.img.without (imgPart xs)
  let one := fun t => (ofType xs t).head?
  let ps := imgParts xs
  let mine := ps.flatMap (fun e => maskVats e.2.vatMask)
  let keepWays := fun (v : Nat) => match smFind s.img.slices v with
    | some r => [(v, ({ r with scrPart := if r.scrPart = imgPart xs then 255 else r.scrPart } : SliceRec))]
    | none => []
  let m : Image := { base with
    configured := true
    parts := keyed (base.parts ++ ps)
    maps := keyed (base.maps ++ (recsOf xs 3 0 72).map (fun (x, o) =>
      (x.n o 1, if x.n (o + 1) 1 = 0 then s.autoMap (x.n o 1) else (List.range 64).map (fun k => x.n (o + 8 + k) 1))))
    kinds := keyed (base.kinds ++ (recsOf xs 4 0 72).map (fun (x, o) => (x.n o 1, (List.range 64).map (fun k => x.n (o + 8 + k) 1))))
    stages := base.stages ++ (recsOf xs 5 0 32).map (fun (x, o) =>
      { part := x.part, stage := x.n o 2, vat := x.n (o + 2) 1, entry := x.n (o + 4) 2, next := x.n (o + 6) 2
        cores := BitVec.ofNat 64 (x.n (o + 8) 8), inTally := x.n (o + 0x10) 2, outTally := x.n (o + 0x12) 2 })
    tallies := base.tallies ++ (recsOf xs 6 0 16).map (fun (x, o) =>
      { id := x.n o 2 % 2 ^ 14, count := x.n (o + 4) 4, thresh := x.n (o + 8) 4 })
    slices := keyed (base.slices ++ (if kind = 0 then [] else mine.flatMap keepWays) ++ (ofType xs 7).flatMap (fun x =>
      x.slices.map (fun o => (x.n o 1, { ways := x.n (o + 1) 1, scrPart := x.n (o + 2) 1 }))))
    shares := base.shares ++ (ofType xs 7).flatMap (fun x => x.shares.map (fun o =>
      { slice := x.n o 1, part := x.n (o + 1) 1, wayMask := BitVec.ofNat 16 (x.n (o + 2) 2), qshare := x.n (o + 4) 1 }))
    prioCh := match one 8 with
      | some x => (List.range 8).map (fun k => x.n k 1)
      | none => base.prioCh
    crock := base.crock ++ (recsOf xs 8 16 16).map (fun (x, o) => x.crockRec o)
    cellar := base.cellar ++ (recsOf xs 9 8 16).map (fun (x, o) => x.cellarRec o)
    regmap := base.regmap ++ (recsOf xs 13 0 8).map (fun (x, o) =>
      { part := x.n o 1, rw := x.n (o + 1) 1 = 1, offset := x.n (o + 4) 4 }) }
  if kind ≠ 0 then m
  else { m with
    cellarPop := BitVec.ofNat 8 (match one 1 with
      | some x => x.n 0 1
      | none => 0)
    cellarRate := match one 1 with
      | some x => x.n 1 1
      | none => 0
    linkGroups := BitVec.ofNat 4 (match one 1 with
      | some x => x.n 2 1
      | none => 0)
    powerLimit := match one 1 with
      | some x => x.n 4 2
      | none => 0
    topo := match one 11 with
      | some x => x.n 0 1
      | none => 0
    ports := match one 11 with
      | some x => (List.range 48).map (fun p =>
          let o := 16 + 8 * p
          (p, { use := x.n o 1, bond := x.n (o + 1) 1, peerDev := x.n (o + 2) 2 % 2 ^ 14, peerPort := x.n (o + 4) 1 }))
      | none => []
    twin := match one 12 with
      | some x => some (x.n 0 2 % 2 ^ 14, x.n 2 1)
      | none => none
    faces := match one 14 with
      | some x => (List.range 6).map (fun n => (n, { occ := x.n (8 * n) 1, owner := x.n (8 * n + 1) 1, budget := x.n (8 * n + 2) 2 }))
      | none => [] }

/-! ### Step 6: rules that join sections, and the running state (03 R73, R75, R77, R80 to R91) -/

/-- How often a section may stand in an image (03 R73): 0 forbidden, 1 exactly once, 2 at most once, 3 at most once per
partition, 4 exactly once (a partition image's `PARTITION`) or once per partition, 5 `FUSION`'s own rule, 6 any number. -/
def sectRule (full : Bool) (t : Nat) : Nat :=
  match t with
  | 1 => if full then 1 else 0
  | 2 => 4
  | 3 => 1
  | 4 => 5
  | 5 => if full then 3 else 2
  | 6 => if full then 3 else 2
  | 7 => if full then 1 else 2
  | 8 => if full then 1 else 2
  | 9 => 2
  | 10 => 1
  | 11 => if full then 1 else 0
  | 12 => if full then 2 else 0
  | 13 => if full then 3 else 2
  | 14 => if full then 1 else 0
  | _ => 6

/-- Is the image a teardown image by its `VAT_MASK` (03 R75)? -/
def isTeardown (kind : Nat) (xs : List Sect) : Bool := kind = 1 && (ofType xs 2).any (fun x => x.n 8 8 = 0)

/-- The counts of sections (03 R73, R75). A missing section is reported at `SECT_COUNT` (log 24). -/
def chkCounts (kind : Nat) (xs : List Sect) : Chk :=
  let full := kind = 0
  let td := isTeardown kind xs
  let pid := imgPart xs
  let defined := (ofType xs 2).map (fun x => x.part)
  let mode1 := ((ofType xs 2).filter (fun x => x.n 1 1 = 1)).map (fun x => x.part)
  let missing := fun (p : Nat) => ({ code := 0x0E, part := p, off := 0x0E } : ImgErr)
  firstErr (
    [if td then (xs.find? (fun x => x.type ≠ 2)).map (fun x => x.dirErr 0x11 0) else none]
    ++ xs.map (fun x =>
      let rule := sectRule full x.type
      let perPart : Bool := 3 ≤ rule && rule ≤ 5
      firstErr [
        need (rule ≠ 0) (x.dirErr 0x0F 0),
        need (if !full then x.part = pid else if rule = 6 then x.part < 64 || x.part = 0xFF
          else if perPart then x.part < 64 else x.part = 0xFF) (x.dirErr 0x0F 2),
        need (!(full && perPart) || defined.contains x.part) (x.dirErr 0x0E 0),
        need (x.type ≠ 4 || mode1.contains x.part) (x.dirErr 0x0F 0),
        need (rule = 6 || !xs.any (fun y => y.idx < x.idx && y.type = x.type && (!full || !perPart || y.part = x.part)))
          (x.dirErr 0x0F 0)])
    ++ (List.range 15).map (fun t =>
      let rule := sectRule full t
      if t = 0 ∨ !(rule = 1 ∨ rule = 4) ∨ (td ∧ (t = 3 ∨ t = 10)) then none
      else need ((ofType xs t) ≠ []) (missing (if full then 0xFF else pid)))
    ++ mode1.map (fun p => need ((ofType xs 4).any (fun x => x.part = p)) (missing p)))

/-- A partition image against the running identity (03 R93). -/
def State.chkIdentity (s : State) (b : List Byte) : Chk :=
  if imgKind b = 0 then none
  else
    let e := fun code off => ({ code := code, off := off, part := imgPart (imgSects b) } : ImgErr)
    firstErr [
      need s.img.configured (e 0x27 8),
      need (imgDev b = s.devId) (e 0x28 0x0C),
      need (leAt b 0x20 4 = s.fld MC_IMG_ID.FABRIC_ID) (e 0x28 0x20),
      need (leAt b 0x24 4 = s.fld MC_IMG_BUILD.FABRIC_BUILD) (e 0x28 0x24)]

/-- Do two ranges meet? -/
def meets (a n b m : Nat) : Bool := 0 < n && 0 < m && a < b + m && b < a + n

/-- Partition records (03 R77). -/
def State.chkParts (s : State) (xs : List Sect) (m : Image) : Chk :=
  (ofType xs 2).findSome? (fun x =>
    if x.n 8 8 = 0 then none
    else
      let r := x.partRec
      let others := m.parts.filter (fun e => e.1 ≠ x.part)
      let early := others.filter (fun e => !(ofType xs 2).any (fun y => y.part = e.1 && x.idx < y.idx))
      firstErr [
        badByte (maskVats r.vatMask) (fun v => early.any (fun e => e.2.vatMask.getLsbD v)) (fun v => x.err 0x12 (8 + v / 8)),
        badByte (maskVats r.vatMask) (fun v => s.bit MC_DEF_VAT.WITHDRAWN v || 8 < s.fld MC_DEF_VAT.TOTAL v)
          (fun v => x.err 0x13 (8 + v / 8)),
        need (r.hostFn = 0 || !others.any (fun e => e.2.hostFn = r.hostFn)) (x.err 0x11 2),
        need (!others.any (fun e => meets r.msixBase r.msixCount e.2.msixBase e.2.msixCount)) (x.err 0x11 0x10),
        need (r.verifyPeer = 0xFF || m.parts.any (fun e => e.1 = r.verifyPeer && e.2.verifyPeer = x.part)) (x.err 0x11 3)])

/-- The offset of a record's predecessors in its own section. -/
def before (l : List (Sect × Nat)) (x : Sect) (o : Nat) : List (Sect × Nat) :=
  l.filter (fun e => e.1.idx < x.idx || (e.1.idx = x.idx && e.2 < o))

/-- `POWER` (03 R88): one record for each vat of the partitions that the image defines. -/
def chkPower (xs : List Sect) (m : Image) : Chk :=
  let rs := recsOf xs 10 0 4
  let mine := (imgParts xs).flatMap (fun e => maskVats e.2.vatMask)
  let held := m.parts.flatMap (fun e => maskVats e.2.vatMask)
  firstErr (rs.map (fun (x, o) =>
      let v := x.n o 1
      firstErr [
        need (!(before rs x o).any (fun e => e.1.n e.2 1 = v)) (x.err 0x20 o),
        need (mine.contains v) (x.err (if held.contains v then 0x26 else 0x20) o)])
    ++ (ofType xs 10).map (fun x => need (mine.all (fun v => rs.any (fun e => e.1.n e.2 1 = v))) (x.dirErr 0x20 0)))

/-- `ROUTE` and `FUSION` hold the vats they must (03 R73, R82). -/
def chkRoute (kind : Nat) (xs : List Sect) : Chk :=
  let rs := recsOf xs 3 0 72
  let fs := recsOf xs 4 0 72
  let mine := (imgParts xs).flatMap (fun e => maskVats e.2.vatMask)
  let want := if kind = 0 then List.range 64 else mine
  firstErr (rs.map (fun (x, o) =>
      need (want.contains (x.n o 1) && !(before rs x o).any (fun e => e.1.n e.2 1 = x.n o 1)) (x.err 0x14 o))
    ++ (ofType xs 3).map (fun x => need (want.all (fun v => rs.any (fun e => e.1.n e.2 1 = v))) (x.dirErr 0x14 0))
    ++ fs.map (fun (x, o) =>
      need ((imgParts xs).any (fun e => e.1 = x.part && decide (x.n o 1 < 64) && e.2.vatMask.getLsbD (x.n o 1))
        && !(before fs x o).any (fun e => e.1.n e.2 1 = x.n o 1)) (x.err 0x15 o)))

/-- `CREAM` (03 R85). -/
def State.chkCream (s : State) (kind : Nat) (xs : List Sect) (m : Image) : Chk :=
  let full := kind = 0
  let pid := imgPart xs
  let mine := (imgParts xs).flatMap (fun e => maskVats e.2.vatMask)
  let base := if full then [] else (s.img.without pid).shares
  let undef := fun (q : Nat) => !m.parts.any (fun e => e.1 = q)
  firstErr ((ofType xs 7).flatMap (fun x =>
    x.slices.map (fun o =>
      let v := x.n o 1
      let w := x.n (o + 1) 1
      firstErr [
        need (v < 64 && !x.slices.any (fun q => q < o && x.n q 1 = v)) (x.err 0x19 o),
        need (full || mine.contains v) (x.err 0x26 o),
        need (x.n (o + 2) 1 = 0xFF || !undef (x.n (o + 2) 1)) (x.err 0x19 (o + 2)),
        need (!base.any (fun r => r.slice = v && r.wayMask.toNat / 2 ^ w ≠ 0)) (x.err 0x26 (o + 1))])
    ++ [need (!full || x.slices.length = 64) (x.dirErr 0x19 0)]
    ++ x.shares.map (fun o =>
      let v := x.n o 1
      let p := x.n (o + 1) 1
      let mask := x.n (o + 2) 2
      let mates := base ++ (x.shares.filter (fun q => q < o)).map (fun q =>
        ({ slice := x.n q 1, part := x.n (q + 1) 1, wayMask := BitVec.ofNat 16 (x.n (q + 2) 2), qshare := x.n (q + 4) 1 } : ShareRec))
      let same := mates.filter (fun r => r.slice = v)
      let ways := ((smFind m.slices v).getD { ways := 0 }).ways
      firstErr [
        need (v < 64) (x.err 0x19 o),
        need (!undef p) (x.err (if full then 0x19 else 0x26) (o + 1)),
        need (full || p = pid) (x.err 0x26 (o + 1)),
        need (!same.any (fun r => r.part = p)) (x.err 0x19 (o + 1)),
        need (mask / 2 ^ ways = 0) (x.err 0x19 (o + 2)),
        need (!same.any (fun r => Nat.land r.wayMask.toNat mask ≠ 0)) (x.err (if full then 0x19 else 0x26) (o + 2)),
        need (same.foldl (fun a r => a + r.qshare) (x.n (o + 4) 1) ≤ 64) (x.err (if full then 0x1A else 0x26) (o + 4))])))

/-- The channel-local granules of a region on the i-th channel of its set: the first, and how many (10 R321). -/
def regionSpan (r : CrockRegion) (m i : Nat) : Nat × Nat :=
  let lo := r.base * 65536
  let hi := (r.base + r.size) * 65536
  let first := (lo + m - 1 - i) / m
  let last := (hi + m - 1 - i) / m
  (first % 262144, last - first)

/-- Do the granules of a region fit its channels (10 R320, R322)? -/
def State.regionFits (s : State) (r : CrockRegion) : Bool :=
  let set := s.chanSet r
  set ≠ [] && (List.range set.length).all (fun i =>
    let (a, n) := regionSpan r set.length i
    n = 0 || a + n ≤ 261632)

/-- Do two regions share a unit, or a channel-local granule of a channel (03 R86, 10 R322)? -/
def State.regionsMeet (s : State) (r q : CrockRegion) : Bool :=
  let set := s.chanSet r
  let other := s.chanSet q
  meets r.base r.size q.base q.size || (List.range set.length).any (fun i =>
    match other.findIdx? (fun c => some c = set[i]?) with
    | none => false
    | some j =>
      let (a, n) := regionSpan r set.length i
      let (b, k) := regionSpan q other.length j
      meets a n b k)

/-- `CROCK` (03 R86). -/
def State.chkCrock (s : State) (kind : Nat) (xs : List Sect) (m : Image) : Chk :=
  let full := kind = 0
  let pid := imgPart xs
  let old := if full then [] else (s.img.without pid).crock
  let s' := { s with img := m }
  let rs := recsOf xs 8 16 16
  firstErr ((ofType xs 8).map (fun x => if full then none
      else badByte (List.range 8) (fun k => x.n k 1 ≠ s.img.prioCh.getD k 255) (fun k => x.err 0x26 k))
    ++ rs.map (fun (x, o) =>
      let r := x.crockRec o
      firstErr [
        need (if full then m.parts.any (fun e => e.1 = r.part) else r.part = pid) (x.err (if full then 0x1B else 0x26) (o + 4)),
        need (!r.kv || !m.prioCh.all (fun c => c = 255)) (x.err 0x1B (o + 7)),
        need (s'.regionFits r && !(before rs x o).any (fun e => s'.regionsMeet r (e.1.crockRec e.2))) (x.err 0x1B o)])
    ++ rs.map (fun (x, o) => need (!old.any (fun q => s'.regionsMeet (x.crockRec o) q)) (x.err 0x26 o)))

/-- `CELLAR` (03 R87). -/
def State.chkCellar (s : State) (kind : Nat) (xs : List Sect) (m : Image) : Chk :=
  let full := kind = 0
  let pid := imgPart xs
  let old := if full then [] else (s.img.without pid).cellar
  let rs := recsOf xs 9 8 16
  firstErr (rs.map (fun (x, o) =>
    let r := x.cellarRec o
    let hit := fun (q : CellarRegion) => q.pos = r.pos && meets r.base r.size q.base q.size
    firstErr [
      need (m.cellarPop.getLsbD r.pos) (x.err 0x1E o),
      need (if full then m.parts.any (fun e => e.1 = r.part) else r.part = pid) (x.err (if full then 0x1E else 0x26) (o + 1)),
      need (r.base + r.size ≤ (s.celStack r.pos).2) (x.err 0x1E (o + 6)),
      need (!(before rs x o).any (fun e => hit (e.1.cellarRec e.2))) (x.err 0x1E (o + 4)),
      need (!old.any hit) (x.err 0x26 (o + 4))]))

/-- `FABRIC` and `TWIN` (03 R89, R90). -/
def chkFabric (kind : Nat) (xs : List Sect) (m : Image) : Chk :=
  if kind ≠ 0 then none
  else
    let parts := m.parts
    firstErr ((ofType xs 11).flatMap (fun x =>
      x.ports.map (fun o =>
        let p := (o - 16) / 8
        let bond := x.n (o + 1) 1
        if x.n o 1 = 0 then none
        else firstErr [
          need (m.linkGroups.getLsbD (p / 12)) (x.err 0x21 o),
          need (bond = 0xFF || !x.ports.any (fun q => q < o && x.n q 1 ≠ 0 && x.n (q + 1) 1 = bond
            && x.n (q + 2) 2 % 2 ^ 14 ≠ x.n (o + 2) 2 % 2 ^ 14)) (x.err 0x21 (o + 2))])
      ++ x.routes.map (fun o =>
        let mask := x.n (o + 2) 6
        firstErr [
          need (!x.routes.any (fun q => q < o && x.n q 2 % 2 ^ 14 = x.n o 2 % 2 ^ 14)) (x.err 0x22 o),
          badByte (List.range 48) (fun p => mask.testBit p && x.n (16 + 8 * p) 1 ≠ 1) (fun p => x.err 0x22 (o + 2 + p / 8))])
      ++ (if m.twin.isSome then [] else x.ports.map (fun o => need (x.n o 1 ≠ 2) (x.err 0x23 o))))
    ++ (ofType xs 12).map (fun x =>
      let dev := x.n 0 2 % 2 ^ 14
      need ((match parts with
          | [e] => e.2.vatMask = BitVec.allOnes 64 && e.2.mode = 0
          | _ => false)
        && [46, 47].all (fun p => match smFind m.ports p with
          | some r => r.use = 2 && r.peerDev = dev
          | none => false)) (x.err 0x23 0)))

/-- `TALLY` (03 R84). -/
def chkTally (xs : List Sect) (m : Image) : Chk :=
  let rs := recsOf xs 6 0 16
  firstErr (rs.map (fun (x, o) =>
    let t := x.n o 2 % 2 ^ 14
    need (m.parts.any (fun e => e.1 = x.part && e.2.vatMask.getLsbD (t / 256))
      && !(before rs x o).any (fun e => e.1.n e.2 2 % 2 ^ 14 = t)) (x.err 0x18 o)))

/-- `REGMAP` (03 R91). -/
def chkRegmap (xs : List Sect) (m : Image) : Chk :=
  firstErr ((recsOf xs 13 0 8).map (fun (x, o) =>
    let page := x.n (o + 4) 4
    firstErr [
      need (x.n o 1 = x.part) (x.err 0x24 o),
      need (page < 0x1000000 || m.parts.any (fun e => e.1 = x.part && e.2.vatMask.getLsbD ((page - 0x1000000) / 0x100000)))
        (x.err 0x24 (o + 4)),
      need (!(0xC00000 ≤ page && page < 0xC60000) || (match smFind m.faces ((page - 0xC00000) / 0x10000) with
        | some f => f.occ = 2 && f.owner = x.part
        | none => false)) (x.err 0x24 (o + 4))]))

/-- `STAGE` (03 R83). -/
def chkStage (xs : List Sect) (m : Image) : Chk :=
  let rs := recsOf xs 5 0 32
  let tallyOk := fun (p t : Nat) => t = 0xFFFF || (t < 2 ^ 14 && m.parts.any (fun e => e.1 = p && e.2.vatMask.getLsbD (t / 256)))
  firstErr (rs.map (fun (x, o) =>
      need (!(before rs x o).any (fun e => e.1.part = x.part && e.1.n e.2 2 = x.n o 2)) (x.err 0x17 o))
    ++ rs.map (fun (x, o) =>
      let v := x.n (o + 2) 1
      let cores := x.n (o + 8) 8
      let kinds := (smFind m.kinds v).getD []
      firstErr [
        need (v < 64 && m.parts.any (fun e => e.1 = x.part && e.2.vatMask.getLsbD v)) (x.err 0x17 (o + 2)),
        need (x.n (o + 6) 2 = 0xFFFF || rs.any (fun e => e.1.part = x.part && e.1.n e.2 2 = x.n (o + 6) 2)) (x.err 0x17 (o + 6)),
        need (tallyOk x.part (x.n (o + 0x10) 2)) (x.err 0x17 (o + 0x10)),
        need (tallyOk x.part (x.n (o + 0x12) 2)) (x.err 0x17 (o + 0x12)),
        need (!(before rs x o).any (fun e => e.1.n (e.2 + 2) 1 = v && Nat.land (e.1.n (e.2 + 8) 8) cores ≠ 0)) (x.err 0x17 (o + 8)),
        need ((List.range 64).all (fun k => !cores.testBit k || (clusterOf (kinds.getD k 0) k).all (fun j => cores.testBit j)))
          (x.err 0x17 (o + 8))]))

/-- Step 6. -/
def State.chkJoin (s : State) (b : List Byte) : Chk :=
  let xs := imgSects b
  let kind := imgKind b
  let m := s.newImage kind xs
  firstErr [chkCounts kind xs, s.chkIdentity b, s.chkParts xs m, chkPower xs m, chkRoute kind xs, s.chkCream kind xs m,
    s.chkCrock kind xs m, s.chkCellar kind xs m, chkFabric kind xs m, chkTally xs m, chkRegmap xs m, chkStage xs m]

/-- The checking pass (03 R92, R95): the first failure of an image whose command gave length `len`. -/
def State.checkImage (s : State) (len : Nat) (b : List Byte) : Chk :=
  firstErr [s.chkHeader len b, s.chkSignature b, chkDirectory b, chkDigests (imgSects b),
    s.chkSects (imgDev b) (imgKind b) (imgSects b), s.chkJoin b]

end Sys2Proof.Machine
end

