-- ==== Sys2Proof/Machine/Twin.lean ====
section
/-! DEFINITION. Twin pairs: the delay ring and the comparators, the states of a pair, notices, and the synchronisation of a
follower (20 R594 to R613). -/

namespace Sys2Proof.Machine

open Sys2Proof

/-! ### The delay ring (20 R599) -/

/-- An entry of the ring. -/
def State.twinEnt (s : State) (i : Nat) : Option TwinEnt := smGet none s.twinRing i
def State.setTwinEnt (s : State) (i : Nat) (x : Option TwinEnt) : State := { s with twinRing := smSet none s.twinRing i x }

/-- The key of a record, its count and its signature (20 R598). -/
def recKey (r : BitVec 124) : Nat := bvBits r 0 46
def recCount (r : BitVec 124) : Nat := bvBits r 46 13
def recSig (r : BitVec 124) : Dword := (r >>> 59).setWidth 64

/-- The record of a window (20 R598). -/
def recOf (v st : Nat) (w : Nat × Nat × Dword) : BitVec 124 :=
  BitVec.ofNat 124 (v + st * 2 ^ 6 + w.1 % 2 ^ 32 * 2 ^ 14 + w.2.1 * 2 ^ 46 + w.2.2.toNat * 2 ^ 59)

/-- The entry that holds a key. -/
def State.twinFind (s : State) (key : Nat) : Option (Nat × TwinEnt) :=
  s.twinRing.findSome? (fun (i, e) => match e with
    | some x => if recKey x.word = key then some (i, x) else none
    | none => none)

/-- The next free entry, in the order of allocation. -/
def State.twinFree (s : State) : Option Nat :=
  ((List.range 4096).map (fun i => (s.twinNext + i) % 4096)).find? (fun i => (s.twinEnt i).isNone)

/-- The ring is cleared. -/
def State.twinClear (s : State) : State := { s with twinRing := [], twinNext := 0 }

/-! ### States (20 R602, R603, R611) -/

/-- The state of the pair. -/
def State.twinState (s : State) : Nat := s.fld TWIN_STAT.STATE

/-- Enter a state. A stream waits only while events are signed (20 R598). -/
def State.twinEnter (s : State) (st : Nat) : State :=
  let s := s.setFld TWIN_STAT.STATE st
  if st = 3 ∨ st = 4 then s else { s with twinWait := [] }

/-- A fault record of this chapter. -/
def twinRec (cls info : Nat) : FRec := { cls := cls, unit := 0x0C, info := info }

/-- `DIVERGED` (20 R600, R604): with a first divergence of this device's own, or by a notice. -/
def State.twinDiverge (s : State) (d : Option (Nat × Nat × Dword × Dword)) : State :=
  if s.twinState ≠ 3 then s
  else
    let s := match d with
      | some (key, kind, own, peer) =>
        ((s.setReg TWIN_DIV (BitVec.ofNat 64 (key + kind * 2 ^ 46))).setReg TWIN_DIVSIG own 0).setReg TWIN_DIVSIG peer 1
      | none => s
    let s := (s.twinEnter 5).setFld TWIN_EVT.DIV 1
    (s.fault (twinRec 0x60 (s.fld TWIN_DIV.KIND))).twinNotice 1

/-- A comparator fault (20 R601): `UNCHECKED`. One that meets another state only shows in `TWIN_EVT` (20 R605, R612). -/
def State.twinCmpFault (s : State) (info : Nat) : State :=
  if s.twinState ≠ 3 then s.setFld TWIN_EVT.CMP 1
  else (((s.twinEnter 4).setFld TWIN_EVT.CMP 1).fault (twinRec 0x61 info)).twinNotice 2

/-- A twin integrity fault (20 R601, R603): `BROKEN`, with pool 0xE excluded from the ledger. -/
def State.twinBroken (s : State) (info : Nat) : State :=
  if s.twinState ≠ 3 ∧ s.twinState ≠ 4 then s
  else
    let s := ((s.twinEnter 7).twinClear).setFld TWIN_EVT.INTEG 1
    ((s.exclude 14 0).fault (twinRec 0x62 info)).twinNotice 3

/-- The partner is lost (20 R603): `ALONE`. -/
def State.twinAlone (s : State) (info : Nat) : State :=
  if s.twinState ≠ 3 ∧ s.twinState ≠ 4 ∧ s.twinState ≠ 5 then s
  else (((s.twinEnter 6).twinClear).setFld TWIN_EVT.ALONE 1).fault (twinRec 0x63 info)

/-- A divergence (20 R600, R602): in `UNCHECKED` it is counted. -/
def State.twinMismatch (s : State) (key kind : Nat) (own peer : Dword) : State :=
  if s.twinState = 4 then s.bumpErr TWIN_ERR0.SUSPECT else s.twinDiverge (some (key, kind, own, peer))

/-! ### Records (20 R598 to R601) -/

/-- A record meets the entry of the other side: the entry is read, both comparators compare, and the entry is free. -/
def State.twinCompare (s : State) (i : Nat) (e : TwinEnt) (r : BitVec 124) (err : HdrErr) (agree : Bool) : State :=
  match err with
  | .uncorrectable => s.twinBroken i
  | _ =>
    let s := if err = .corrected then s.bumpErr TWIN_ERR0.CORR else s
    let s := s.setTwinEnt i none
    let (own, peer) := if e.own then (e.word, r) else (r, e.word)
    if !agree then s.twinCmpFault 0
    else if recCount own ≠ recCount peer then s.twinMismatch (recKey r) 1 (recSig own) (recSig peer)
    else if recSig own ≠ recSig peer then s.twinMismatch (recKey r) 0 (recSig own) (recSig peer)
    else s.bump TWIN_PC_MATCH

/-- A record arrives (20 R599): the state after it, none where it waits for an entry; and whether it was a duplicate. -/
def State.twinArrive (s : State) (own : Bool) (r : BitVec 124) (err : HdrErr) (agree : Bool) : Option (State × Bool) :=
  match s.twinFind (recKey r) with
  | some (i, e) =>
    if e.own = own then some (s.bumpErr TWIN_ERR1.DUP, true) else some (s.twinCompare i e r err agree, false)
  | none =>
    match s.twinFree with
    | none => none
    | some i => some (State.setTwinEnt { s with twinNext := (i + 1) % 4096 } i (some ⟨own, r⟩), false)

/-- `TWIN_OWN_RECORD` (20 R598, R599): the oldest record of a stream is stored or compared, and sent to the partner; the
stream goes on. -/
def execTwinOwnRecord (v : VatId) (st : Fin 129) (err : HdrErr) (agree : Bool) (s : State) : Host.Outcome State Fault Refusal :=
  let x := s.stream v st
  .next (match x.recs with
    | [] => s
    | w :: ws =>
      if !s.signOn then s
      else
        let r := recOf v st w
        match s.twinArrive true r err agree with
        | none => s
        | some (t, _) =>
          let t := t.setStream v st { t.stream v st with recs := ws }
          let t : State := if ws = [] then { t with twinWait := t.twinWait.filter (fun k => k ≠ 256 * v.val + st.val) } else t
          t.twinSend { s.twinPkt 0xA 0 with npay := 1, pay := [BitVec.ofNat 256 (1 + r.toNat * 2 ^ 8)] })

/-- `TWIN_PARTNER_RECORD` (20 R599, R610): the oldest record from the partner. One that comes while nothing is compared is
discarded. -/
def execTwinPartnerRecord (word : BitVec 124) (err : HdrErr) (agree : Bool) (s : State) : Host.Outcome State Fault Refusal :=
  .next (match s.twinIn with
    | [] => s
    | (p, r, last) :: rest =>
      if r ≠ word then s
      else
        let take := fun (t : State) =>
          let t := { t with twinIn := rest }
          if last ∧ t.usable p then t.freeUnits p 0 2 else t
        if !s.signOn then take s
        else match s.twinArrive false r err agree with
          | none => s
          | some (t, dup) => if dup then (take t).quarantine p else take t)

/-- `TWIN_MATCH_TIMEOUT` (20 R600): a record stayed without its match. -/
def execTwinMatchTimeout (e : Fin 4096) (s : State) : Host.Outcome State Fault Refusal :=
  .next (match s.twinEnt e with
    | none => s
    | some x =>
      if !s.signOn then s
      else
        let sig := recSig x.word
        (s.setTwinEnt e none).twinMismatch (recKey x.word) (if x.own then 3 else 2) (if x.own then sig else 0)
          (if x.own then 0 else sig))

/-- An injected test (20 R601). -/
def State.twinTest (s : State) (good : Bool) : State :=
  if s.twinState = 0 then s
  else
    let b := s.twinBit
    let s := { s with twinBit := (b + 1) % 123 }
    if good then s.bump TWIN_PC_TEST else s.twinCmpFault (1 + b * 2)

/-- `TWIN_INJECTED_TEST` (20 R601): at a 10 ms mark. -/
def execTwinInjectedTest (good : Bool) (s : State) : Host.Outcome State Fault Refusal := .next (s.twinTest good)

/-- `TWIN_TEST_GO` (20 R601, R612). -/
def execTwinTestGo (good : Bool) (s : State) : Host.Outcome State Fault Refusal := .next (s.twinTest good)

/-- `TWIN_LEAD` (20 R612): ignored in other states. -/
def execTwinLead (s : State) : Host.Outcome State Fault Refusal :=
  .next (if s.twinState = 6 ∨ s.twinState = 7 then s.setFld TWIN_STAT.LEADER 1 else s)

/-! ### Zeroisation (21 R631) -/

/-- Clear a range of memory, whose lines leave the slices. -/
def State.zeroRange (s : State) (lo hi : Nat) : State :=
  let s : State := { s with mem := s.mem.filter (fun c => c.1 < lo || hi ≤ c.1) }
  (List.range 64).foldl (fun s v => s.crmInvalidate v (fun l => lo / 64 ≤ l && l < hi / 64) true) s

/-- Units of 1 GiB of a cellar position read as zero. -/
def State.zeroCellar (s : State) (pos base size : Nat) : State :=
  s.zeroRange (celBase pos + base * 2 ^ 30) (celBase pos + (base + size) * 2 ^ 30)

/-- The scratchpad of a slice, and the core stores of a vat, read as zero. -/
def State.zeroScratch (s : State) (v : Nat) : State := s.zeroRange (0x400000000 + v * 2 ^ 23) (0x400000000 + (v + 1) * 2 ^ 23)
def State.zeroCores (s : State) (v : Nat) : State := s.zeroRange (csBase (64 * v)) (csBase (64 * (v + 1)))

/-! ### Synchronisation (20 R606, R607) -/

/-- The vats of a twin's partition. -/
def State.twinVats (s : State) : List Nat := (List.range 64).filter (fun v => (s.partOf v).isSome)

/-- Every task of a vat ends and the vat is reset, its image tasks `LOADED` again (06 R219). -/
def State.syncReset (s : State) (v : Nat) : State :=
  let s := s.setFld VAT_STAT.EPOCH ((s.fld VAT_STAT.EPOCH v + 1) % 256) v
  (List.range 64).foldl (fun s k => s.setFld VAT_CORE_STAT.CC_INIT 0 v k) ((s.specReset v).resetUnits v)

/-- Lines gathered by four where four of an aligned block are all there (20 R607, 15 R477). -/
def gather4 : List Nat → List (Nat × Nat)
  | a :: b :: c :: d :: ls =>
    if a % 4 = 0 ∧ b = a + 1 ∧ c = a + 2 ∧ d = a + 3 then (a, 4) :: gather4 ls else (a, 1) :: gather4 (b :: c :: d :: ls)
  | a :: ls => (a, 1) :: gather4 ls
  | [] => []

/-- The lines that a source writes: valid crock lines, cellar regions, scratchpads, core stores (20 R607). -/
def State.syncLines (s : State) : List Nat :=
  (s.img.crock.flatMap (fun r => ((List.range (r.size * 2 ^ 19)).map (fun i => r.base * 2 ^ 19 + i)).filter s.validBit))
  ++ s.img.cellar.flatMap (fun r => (List.range (r.size * 2 ^ 24)).map (fun i => celBase r.pos / 64 + r.base * 2 ^ 24 + i))
  ++ s.twinVats.flatMap (fun v =>
    (List.range ((16 - s.fld VAT_CRM_CFG.CACHE_WAYS v) * 8192)).map (fun i => (0x400000000 + v * 2 ^ 23) / 64 + i))
  ++ s.twinVats.flatMap (fun v => (List.range 65536).map (fun i => csBase (64 * v) / 64 + i))

/-- The registers of the tallies that a source writes, with their values. -/
def State.syncTallies (s : State) : List (Nat × Nat) :=
  s.twinVats.flatMap (fun v => (List.range 256).flatMap (fun i =>
    [(VAT_TALLY_CNT.addr v i, s.fld VAT_TALLY_CNT.COUNT v i), (VAT_TALLY_THR.addr v i, s.fld VAT_TALLY_THR.THRESH v i),
     (VAT_TALLY_STEP.addr v i, s.fld VAT_TALLY_STEP.STEP v i)]))

/-- The packets of the copy. -/
def State.syncPkts (s : State) : List Pkt :=
  let base := s.twinPkt 2 0
  (gather4 s.syncLines).map (fun (l, n) => { base with
      npay := 2 * n, addr := BitVec.ofNat 64 (l * 64), arg := if n = 1 then BitVec.allOnes 64 else 0
      pay := payUnits (64 * n) (Memory.read s.mem (l * 64) (64 * n)) })
  ++ s.syncTallies.map (fun (off, x) => { base with
      npay := 2, addr := BitVec.ofNat 64 (0x430000000 + off / 64 * 64), arg := BitVec.ofNat 64 (15 * 2 ^ (off % 64))
      pay := payUnits 64 (x * 2 ^ (8 * (off % 64))) })

/-- Every region of the partition is zeroised (21 R631). -/
def State.zeroRegions (s : State) : State :=
  let s := s.img.crock.foldl (fun s r => s.zeroCrock r.base r.size) s
  s.img.cellar.foldl (fun s r => s.zeroCellar r.pos r.base r.size) s

/-- The two commands pair: `SYNC` is entered, with steps 1 and 2 (20 R607). -/
def State.syncBegin (s : State) (sink nocopy : Bool) : State :=
  let s := (s.twinEnter 2).twinClear
  let s := s.twinVats.foldl (fun s v => s.syncReset v) s
  let s : State := { s with streams := [], twinIn := [], twinPeer := none, twinSync := some { sink := sink, nocopy := nocopy } }
  if nocopy then s
  else if sink then s.zeroRegions
  else
    let ks := s.syncPkts
    let s := { s with twinSync := some { sink := sink, nocopy := nocopy, left := ks.length, bytes := s.syncLines.length * 64 + s.syncTallies.length * 4 } }
    (ks.zip (List.range ks.length)).foldl (fun s (k, i) => s.twinSend { k with txn := i % 65536 }) s

/-- Pair this device's command with its partner's, issued within `SYNC_T` of each other (20 R606). -/
def State.syncPair (s : State) : State :=
  match s.mcRun, s.twinPeer with
  | some (.sync _ sink nocopy), some (d, n, t) =>
    if s.twinState ≠ 2 ∧ d ≠ sink ∧ n = nocopy ∧ s.fld MC_TSC.COUNT ≤ t + max 1 (s.fld TWIN_CFG.SYNC_T) * 100000 then
      s.syncBegin sink nocopy
    else s
  | _, _ => s

/-- A command starts (20 R606); one that finds a state without a transition fails. -/
def State.syncStart (s : State) (handle : Nat) (sink nocopy : Bool) : State :=
  let st := s.twinState
  if st = 0 ∨ st = 2 ∨ st = 3 then s.ringDone handle 6 5 0
  else (State.twinNotice { s with mcRun := some (.sync handle sink nocopy) } 5).syncPair

/-- The running command ends. -/
def State.syncEnd (s : State) (status detail : Nat) : State :=
  match s.mcRun with
  | some (.sync h _ _) => State.ringDone { s with mcRun := none, twinSync := none, twinWr := [] } h 6 status detail
  | _ => s

/-- A synchronisation fails (20 R603, R607): `WAIT`. -/
def State.syncFail (s : State) : State := (s.twinEnter 1).syncEnd 5 0

/-- Both devices have completed the copy: `CHECKED`, with the source as leader (20 R603, R607, R612). -/
def State.syncDone (s : State) : State :=
  match s.twinSync with
  | some x =>
    if x.ownDone && x.peerDone then
      let s := ((s.twinEnter 3).setFld TWIN_STAT.LEADER (if x.sink then 0 else 1)).setFld TWIN_EVT.SYNCED 1
      (s.rebase 14 0).syncEnd 0 (x.bytes / 2 ^ 20)
    else s
  | none => s

/-- `TWIN_SYNC` (20 R606, 03 R94). -/
def execTwinSync (r : RingId) (s : State) : Host.Outcome State Fault Refusal :=
  .next (match s.ringTake r 6 with
    | none => s
    | some (i, s) =>
      let sink := (i.w 1).getLsbD 0
      let nocopy := (i.w 1).getLsbD 1
      if s.mcRun.isSome ∨ s.mcQueue ≠ [] then { s with mcQueue := s.mcQueue ++ [.sync i.handle sink nocopy] }
      else s.syncStart i.handle sink nocopy)

/-- `TWIN_SYNC_PAIR_TIMEOUT` (20 R606). -/
def execTwinSyncPairTimeout (s : State) : Host.Outcome State Fault Refusal :=
  .next (if s.twinState = 2 then s else s.syncEnd 5 0)

/-- Write a register of a tally that the source sends. -/
def State.syncTally (s : State) (a : Nat) (m : Mask) (d : Nat) : Option State :=
  let off := a - 0x430000000 + (if m = 0 then 0 else (List.range 64).findIdx (fun i => m.getLsbD i))
  let x := d / 2 ^ (8 * (off % 64)) % 2 ^ 32
  let v := (off - 0x1000000) / 0x100000
  (List.range 256).findSome? (fun i =>
    if off = VAT_TALLY_CNT.addr v i then some (s.setCount (256 * v + i) x)
    else if off = VAT_TALLY_THR.addr v i then some (s.setFld VAT_TALLY_THR.THRESH x v i)
    else if off = VAT_TALLY_STEP.addr v i then some (s.setFld VAT_TALLY_STEP.STEP x v i)
    else none)

/-- Perform a sync write: none where an address does not exist. -/
def State.syncWrite (s : State) (k : Pkt) : Option State :=
  (List.range (k.npay / 2)).foldl (fun (t : Option State) i =>
    match t with
    | none => none
    | some t =>
      let a := k.addr.toNat + 64 * i
      let d := k.data / 2 ^ (512 * i) % 2 ^ 512
      let m : Mask := if k.npay = 2 then k.arg else BitVec.allOnes 64
      let put := { t with mem := Memory.write t.mem a m.toNat d 64 }
      match t.place a with
      | .crock .. => some (put.setValid (a / 64))
      | .cellar .. => some put
      | .scratch .. => some put
      | .core .. => some put
      | .reg _ => if 0x431000000 ≤ a then t.syncTally a m d else none
      | _ => none) (some s)

/-- `TWIN_SYNC_WRITE` (20 R607, R609): the oldest sync write, at that address. -/
def execTwinSyncWrite (addr : Dword) (s : State) : Host.Outcome State Fault Refusal :=
  .next (match s.twinWr with
    | [] => s
    | (p, k) :: rest =>
      if k.addr ≠ addr ∨ s.twinState ≠ 2 then s
      else
        let s : State := { s with twinWr := rest }
        let s := if s.usable p then s.freeUnits p k.pool (1 + k.pay.length) else s
        match s.syncWrite k with
        | some t =>
          let t : State := { t with twinSync := t.twinSync.map (fun x => { x with
            bytes := x.bytes + (if k.addr.toNat < 0x430000000 ∨ 0x440000000 ≤ k.addr.toNat then 32 * k.npay else 4) }) }
          t.twinSend { t.twinPkt 5 1 with txn := k.txn }
        | none => (s.twinSend { s.twinPkt 7 1 with txn := k.txn, arg := 3 }).syncFail)

/-- `TWIN_SYNC_COPY_DONE` (20 R607 step 3): a source's writes are all acknowledged; a sink has served all that its partner sent
before `SYNC_DONE`. -/
def execTwinSyncCopyDone (s : State) : Host.Outcome State Fault Refusal :=
  .next (match s.twinSync with
    | none => s
    | some x =>
      if x.bad then s.syncFail
      else if x.left ≠ 0 ∨ s.twinWr ≠ [] ∨ x.ownDone ∨ (x.sink ∧ !x.nocopy ∧ !x.peerDone) then s
      else (State.twinNotice { s with twinSync := some { x with ownDone := true } } 6).syncDone)

/-- `TWIN_LINK_LOST_TIMEOUT` (20 R603, R607). -/
def execTwinLinkLostTimeout (s : State) : Host.Outcome State Fault Refusal :=
  .next (if s.linkPorts twinGrp ≠ [] then s
    else if s.twinState = 2 then s.syncFail
    else s.twinAlone 0)

/-- `TWIN_NOTICE` (20 R603, R609): the oldest notice from the partner. `peer` is what a `SYNC_READY` says of the partner's
command (log 25). -/
def execTwinNotice (code : BitVec 8) (peer : Option (Bool × Bool)) (s : State) : Host.Outcome State Fault Refusal :=
  .next (match s.twinNotes with
    | [] => s
    | (_, c) :: rest =>
      if c ≠ code.toNat then s
      else
        let s := { s with twinNotes := rest }
        match c with
        | 1 => s.twinDiverge none
        | 2 => if s.twinState = 3 then s.twinCmpFault 0 else s
        | 3 => s.twinBroken 0
        | 4 => s.twinAlone 1
        | 5 => State.syncPair { s with twinPeer := peer.map (fun (d, n) => (d, n, s.fld MC_TSC.COUNT)) }
        | _ => State.syncDone { s with twinSync := s.twinSync.map (fun x => { x with peerDone := true }) })

/-- The usable twin ports and the occupied entries, as `TWIN_STAT` shows them (20 R612). -/
def State.twinView (s : State) : Dword :=
  BitVec.ofNat 64 (s.twinState + s.fld TWIN_STAT.LEADER * 2 ^ 3
    + (if (s.portRec 46).use = 2 ∧ s.usable 46 then 2 ^ 4 else 0) + (if (s.portRec 47).use = 2 ∧ s.usable 47 then 2 ^ 5 else 0)
    + s.twinRing.length * 2 ^ 16)

end Sys2Proof.Machine
end

