-- ==== Sys2Proof/Machine/Images.lean ====
section
/-! DEFINITION. Loading an image: teardown, the applying pass, warm reload (03 R94 to R101), with what each chapter gives an
apply. -/

namespace Sys2Proof.Machine

open Sys2Proof

/-! ### Kept regions (03 R97, R98, 16 R514) -/

/-- Are two regions the same for the rules of R97 and R98? -/
def CrockRegion.same (a b : CrockRegion) : Bool :=
  a.part = b.part && a.base = b.base && a.size = b.size && a.imode = b.imode && a.vat = b.vat && a.crock = b.crock
def CellarRegion.same (a b : CellarRegion) : Bool := a.part = b.part && a.pos = b.pos && a.base = b.base && a.size = b.size

/-- A keep entry as a cellar region. -/
def KeepEnt.cellarRegion (k : KeepEnt) : CellarRegion :=
  { pos := k.pos, part := k.part, keep := true, encrypt := k.encrypt, shared := k.shared, base := k.base, size := k.size }

/-- The keep entries that stand for the running image while the device is unconfigured. -/
def State.keptEnts (s : State) (cellar : Bool) : List KeepEnt :=
  (s.keep.map Prod.snd).filter (fun k => k.cellar = cellar && !k.lost)

/-- The regions of the running configuration; those of the keep table while there is none. -/
def State.oldCrock (s : State) : List CrockRegion :=
  if s.img.configured then s.img.crock else (s.keptEnts false).map KeepEnt.region
def State.oldCellar (s : State) : List CellarRegion :=
  if s.img.configured then s.img.cellar else (s.keptEnts true).map KeepEnt.cellarRegion

/-- The regions that keep their contents. -/
structure Kept where
  crock : List CrockRegion := []
  cellar : List CellarRegion := []
  deriving DecidableEq, Repr

/-- The regions that keep their contents when the configuration becomes `m`: in a full load those marked `KEEP` in both, in
a reload of a partition what other partitions hold and what does not change. -/
def State.keptBy (s : State) (m : Image) (reload : Option Nat) : Kept :=
  { crock := s.oldCrock.filter (fun r => match reload with
      | none => r.keep && m.crock.any (fun q => q.keep && q.same r)
      | some p => r.part ≠ p || m.crock.any (fun q => q.same r))
    cellar := s.oldCellar.filter (fun r => match reload with
      | none => r.keep && m.cellar.any (fun q => q.keep && q.same r)
      | some p => r.part ≠ p || m.cellar.any (fun q => q.same r)) }

/-- Zeroise the regions of two lists that are not kept (21 R631). -/
def State.zeroOther (s : State) (k : Kept) (cs : List CrockRegion) (ls : List CellarRegion) : State :=
  let s := (cs.filter (fun r => !k.crock.any (fun q => q.same r))).foldl (fun s r => s.zeroCrock r.base r.size) s
  (ls.filter (fun r => !k.cellar.any (fun q => q.same r))).foldl (fun s r => s.zeroCellar r.pos r.base r.size) s

/-! ### The keep table and the partition keys (16 R514, 21 R630) -/

/-- A region as a new keep entry. -/
def CrockRegion.ent (r : CrockRegion) (seq : Dword) : KeepEnt :=
  { cellar := false, part := r.part, shared := r.shared, imode := r.imode, vat := r.vat, crock := r.crock, base := r.base
    size := r.size, seq := seq }
def CellarRegion.ent (r : CellarRegion) (seq : Dword) : KeepEnt :=
  { cellar := true, part := r.part, encrypt := r.encrypt, shared := r.shared, pos := r.pos, base := r.base, size := r.size
    seq := seq }

/-- Do two entries stand for the same region? -/
def KeepEnt.same (a b : KeepEnt) : Bool :=
  a.cellar = b.cellar && (if a.cellar then a.cellarRegion.same b.cellarRegion else a.region.same b.region)

/-- Is the region of an entry kept? -/
def Kept.holds (k : Kept) (e : KeepEnt) : Bool :=
  if e.cellar then k.cellar.any (fun q => q.same e.cellarRegion) else k.crock.any (fun q => q.same e.region)

/-- Put an entry into the lowest free place of the table, which holds 128. -/
def keepPut (m : List (Nat × KeepEnt)) (e : KeepEnt) : List (Nat × KeepEnt) :=
  match (List.range 128).find? (fun n => (smFind m n).isNone) with
  | some n => smPut m n e
  | none => m

/-- At an apply the table becomes the `KEEP` regions of the configuration. An entry of a kept region stays where it is, with
its tag and `SEQUENCE` (log 27). -/
def State.applyKeep (s : State) (k : Kept) (seq : Dword) : State :=
  let want := (s.img.crock.filter (fun r => r.keep)).map (fun r => r.ent seq) ++ (s.img.cellar.filter (fun r => r.keep)).map (fun r => r.ent seq)
  let held := s.keep.filterMap (fun (n, e) =>
    if e.lost || !k.holds e then none
    else (want.find? (fun w => w.same e)).map (fun w => (n, { w with tag := e.tag, seq := e.seq })))
  { s with keep := (want.filter (fun w => !held.any (fun e => e.2.same w))).foldl keepPut held }

/-- The device becomes unconfigured: kept regions remain kept, without a running image. -/
def State.keepAlone (s : State) (k : Kept) : State :=
  { s with keep := (s.keep.filter (fun e => e.2.lost || k.holds e.2)).map (fun e => (e.1, { e.2 with active := false })) }

/-- Has partition `p` an encrypted region in a list? -/
def encryptedIn (p : Nat) (ls : List CellarRegion) : Bool := ls.any (fun r => r.part = p && r.encrypt)

/-- The live key of a partition, and its wrapped copy. -/
def State.keyLive (s : State) (p : Nat) : Bool := (s.fld RIND_KEYS.LIVE).testBit p
def State.setKey (s : State) (p : Nat) (x : Bool) : State := s.setReg RIND_KEYS (putBits (s.reg RIND_KEYS) p 1 x.toNat)
def State.setWrapped (s : State) (p : Nat) (x : Option Dword) : State :=
  { s with mram := { s.mram with wrapped := match x with
    | some q => smPut s.mram.wrapped p q
    | none => smDel s.mram.wrapped p } }

/-- The keys of the partitions after an apply: a key lives on where an encrypted region of its partition is kept, a wrapped
key is loaded again, any other is generated; one that nothing needs is destroyed. -/
def State.applyKeys (s : State) (k : Kept) (seq : Dword) : State :=
  (List.range 64).foldl (fun (s : State) p =>
    let kept := encryptedIn p k.cellar
    let stored := s.keep.any (fun (_, e) => e.cellar && e.encrypt && e.part = p && !e.lost)
    let s := if kept then s else (s.setWrapped p none).setKey p false
    let s := if !encryptedIn p s.img.cellar ∨ s.keyLive p then s
      else if (smFind s.mram.wrapped p).isSome then s.setKey p true
      else State.setKey { s.bump RIND_PC_KEYGEN with drbg := s.drbg + 1 } p true
    if !stored then s.setWrapped p none
    else if (smFind s.mram.wrapped p).isSome then s
    else s.setWrapped p (some seq)) s

/-! ### Registers that an apply writes -/

/-- Replace the registers of a range by a list of values that are not 0, by rising offset (their reset value is 0). -/
def State.setBlock (s : State) (lo hi : Nat) (xs : List (Nat × Dword)) : State :=
  { s with regs := s.regs.filter (fun e => e.1 < lo) ++ xs ++ s.regs.filter (fun e => hi ≤ e.1) }

/-- The cluster of a core: its kind, and its index in it (03 R82). -/
def State.clusterAt (s : State) (c : Nat) : Nat × Nat :=
  let k := idxOf c
  match ((smFind s.img.kinds (vatOf c)).getD []).getD k 0 with
  | 1 => (1, k % 2 + 2 * (k / 8 % 2))
  | 2 => (2, k % 2)
  | _ => (0, 0)

/-- An entry of the destination table (07 R223, R256). -/
def State.dtabWord (s : State) (c : Nat) : Nat :=
  let v := vatOf c
  let i := s.physIdx c
  let (kind, m) := s.clusterAt c
  let role := if kind = 0 then 0 else if m = 0 then 1 else 2
  8 * (v % 8) + i % 8 + (9 * (v / 8) + i / 8) * 2 ^ 6 + (s.partOf v).getD 0 * 2 ^ 13 + (s.memberVat v).toNat * 2 ^ 19 + role * 2 ^ 20

/-- What the image gives the routers and the cores of every vat (07 R227, R247, 04 R121). -/
def State.applyGrid (s : State) : State :=
  let ws := ((List.range 4096).map (fun c => (4 * c, BitVec.ofNat 64 (s.dtabWord c)))).filter (fun e => e.2 ≠ 0)
  let s := (List.range 64).foldl (fun (s : State) v =>
    let lo := VAT_NET_DTAB.addr v 0
    let merge := ((s.partOf v).bind (fun p => s.part p)).any (fun r => r.mode = 0)
    (s.setBlock lo (lo + 0x4000) (ws.map (fun e => (lo + e.1, e.2)))).setFld VAT_NET_CTL.MERGE merge.toNat v) s
  (List.range 4096).foldl (fun (s : State) c =>
    let (kind, m) := s.clusterAt c
    let x := BitVec.ofNat 4 (kind * 4 + m)
    if (s.core c).member = x then s else s.updCore c (fun y => { y with member := x })) s

/-- The partition that may allocate a way, none for one that is no cache way. -/
def State.wayOwner (s : State) (v w : Nat) : Option Nat :=
  if s.fld VAT_CRM_CFG.CACHE_WAYS v ≤ w then none
  else (List.range 64).find? (fun p => (s.fld VAT_CRM_SHARE.WAY_MASK v p).testBit w)

/-- The slice of a vat that serves takes the image's ways and shares: a way that changes its owner is invalidated, and a
scratchpad that changes its owner, or what a way takes of it, reads as zero (03 R85, R98, 09 R303). -/
def State.applySlice (s : State) (v : Nat) : State :=
  if !s.vatOn v then s
  else
    let old := (List.range 16).map (fun w => s.wayOwner v w)
    let ways := s.fld VAT_CRM_CFG.CACHE_WAYS v
    let owner := s.fld VAT_CRM_CFG.SCR_PART v
    let s := s.sliceConfig v
    let new := (List.range 16).map (fun w => s.wayOwner v w)
    let moved := fun (w : Nat) => (old.getD w none).isSome && old.getD w none ≠ new.getD w none
    let x := s.slice v
    let s := s.setSlice v { x with cache := x.cache.filter (fun e => !moved (e.1 % 16) && e.1 % 16 < s.fld VAT_CRM_CFG.CACHE_WAYS v) }
    let s := if s.memberVat v then s.setFld VAT_CRM_CFG.USABLE 1 v else s
    let base := 0x400000000 + v * 2 ^ 23
    if s.fld VAT_CRM_CFG.SCR_PART v ≠ owner then s.zeroScratch v
    else if ways < s.fld VAT_CRM_CFG.CACHE_WAYS v then
      s.zeroRange (base + (16 - s.fld VAT_CRM_CFG.CACHE_WAYS v) * 2 ^ 19) (base + 2 ^ 23)
    else s

/-- The crock's channels take the unit map (10 R320, R332, R343). -/
def State.applyCrock (s : State) : State :=
  let s := (List.range 8).foldl (fun (s : State) k => s.setFld CRK_PRIO.PRIO_CH (s.img.prioCh.getD k 255) k) s
  let used := s.img.crock.flatMap (fun r => s.chanSet r)
  let s := (List.range 128).foldl (fun (s : State) c =>
    let u := used.contains c
    let s := (s.setFld CRK_CH_STAT.INUSE u.toNat (c / 16) (c % 16)).setFld CRK_CH_STAT.PRIO (s.prioChan c).toNat (c / 16) (c % 16)
    match s.crkState c with
    | 0 => if u then s else s.setCrkState c 1
    | 1 => if u then s.setCrkState c 3 else s
    | 4 => if u then s.crkLeaveTest c 0 else s
    | _ => s) s
  s.keptSync

/-- The cellar positions take the image's regions: `TEST` ends where it gives one (11 R365), and a rate that changes
retrains every position that serves, within the apply (11 R346, R357; log 28). -/
def State.applyCellar (s : State) : State :=
  let s := (List.range 8).foldl (fun (s : State) p => if s.celState p = 5 ∧ s.celInUse p then s.celLeaveTest p else s) s
  if !s.img.configured then s
  else
    let s : State := { s with mram := { s.mram with celRate := s.img.cellarRate } }
    (List.range 8).foldl (fun (s : State) p =>
      if s.celState p = 3 then s.setFld CEL_STAT.RATE s.img.cellarRate p else s) s

/-- Floors, caps and policies (03 R88). -/
def State.applyPower (s : State) (xs : List Sect) : State :=
  (recsOf xs 10 0 4).foldl (fun (s : State) (x, o) =>
    let v := x.n o 1
    ((s.setFld PWR_VAT_V.FLOOR (x.n (o + 1) 1) v).setFld PWR_VAT_V.CAP (x.n (o + 2) 1) v).setFld PWR_VAT_V.POLICY (x.n (o + 3) 1) v) s

/-- The identity that a full image gives the device: device ID, fabric, build, `SEQUENCE` (03 R101). -/
structure ImgIdent where
  dev : Nat := 0
  fabric : Nat := 0
  build : Nat := 0
  seq : Nat := 0
  deriving DecidableEq, Repr

/-- The identity registers. -/
def State.applyIdent (s : State) (d : ImgIdent) : State :=
  (((s.setFld MC_IMG_ID.DEV_ID d.dev).setFld MC_IMG_ID.FABRIC_ID d.fabric).setFld MC_IMG_BUILD.FABRIC_BUILD d.build).setFld
    MC_IMG_SEQ.SEQUENCE d.seq

/-- The topology and the route table (15 R466, R469). -/
def State.applyFabric (s : State) (xs : List Sect) : State :=
  let lo := MC_FAB_RT.addr 0
  match ofType xs 11 with
  | [] => ((s.setReg MC_FAB_TOPO 0).setReg MC_FAB_COORD 0).setBlock lo (lo + 8 * 16384) []
  | x :: _ =>
    let (dx, dy, dz) := (x.n 2 2, x.n 4 2, x.n 6 2)
    let d := s.devId
    let s := (((s.setFld MC_FAB_TOPO.TOPO s.img.topo).setFld MC_FAB_TOPO.DIM_X dx).setFld MC_FAB_TOPO.DIM_Y dy).setFld MC_FAB_TOPO.DIM_Z dz
    let on : Bool := 1 ≤ s.img.topo && s.img.topo ≤ 3
    let s := ((s.setFld MC_FAB_COORD.X (if on then d % dx else 0)).setFld MC_FAB_COORD.Y (if on then d / dx % dy else 0)).setFld
      MC_FAB_COORD.Z (if on then d / (dx * dy) else 0)
    let rs := keyed (x.routes.map (fun o => (lo + 8 * (x.n o 2 % 2 ^ 14), BitVec.ofNat 64 (x.n (o + 2) 6 + 2 ^ 48))))
    s.setBlock lo (lo + 8 * 16384) rs

/-! ### Ports, sites, the pair (14 R432, 15 R458, 16 R494, 20 R603) -/

/-- Ports that are active and whose record or identity changes leave their links (log 29). -/
def State.portsLeave (s : State) (m : Image) (same : Bool) : State :=
  (List.range 48).foldl (fun (s : State) p =>
    if s.usable p ∧ (!same ∨ smFind s.img.ports p ≠ smFind m.ports p) then s.linkLeave p else s) s

/-- Domains that ramp for an image start its ports or sites when they are on. -/
def State.startLater (s : State) (d : Nat) : State :=
  if s.domState d = 2 ∨ s.domStart.contains d then s else { s with domStart := s.domStart ++ [d] }

/-- The ports under the new image. -/
def State.applyPorts (s : State) : State :=
  (List.range 48).foldl (fun (s : State) p =>
    let st := s.portState p
    if !s.img.configured then (if st = 6 then s.portHold p 1 else if !s.usable p then s.portWake p else s)
    else if (s.portRec p).use = 0 then (if st = 0 then s else s.portOff p)
    else if st = 0 then (s.startLater (72 + p / 12)).portStart p
    else if (st = 11 ∧ (s.fld LNK_FAB_STAT.HOLD p = 1 ∨ s.fld LNK_FAB_STAT.HOLD p = 4)) ∨ (st = 6 ∧ !s.usable p) then s.sendRetrain p
    else if !s.usable p then s.portWake p
    else s) s

/-- The sites under the new image. -/
def State.applySites (s : State) : State :=
  (List.range 6).foldl (fun (s : State) n =>
    if !s.siteOcc n then s.siteOff n
    else if s.siteState n = 0 then (s.startLater 76).siteStart n
    else if s.fld PWR_G_MEAS.V n = 0 then s
    else s.guestOn n) s

/-- The state of the pair at an apply. -/
def State.applyTwin (s : State) : State :=
  let s : State := { s.twinClear with twinPeer := none, twinIn := [], twinWr := [], twinNotes := [] }
  match s.img.twin with
  | some (_, role) => (s.twinEnter 1).setFld TWIN_STAT.LEADER (if role = 0 then 1 else 0)
  | none => (s.twinEnter 0).setFld TWIN_STAT.LEADER 0

/-! ### Teardown (03 R96 to R99) -/

/-- Is a message on its way to a unit of some vats, or offered by one of their cores? It has arrived by the phase that
applies. -/
def Msg.atVats (vs : List Nat) (m : Msg) : Bool :=
  match m with
  | .cnet dst _ _ _ => vs.contains (vatOf dst)
  | .tnet t => vs.contains (t.tally / 256) || vs.contains t.dst
  | .part _ p => vs.contains (p.tag.toNat / 1024)
  | .spec _ v _ => vs.contains v
  | .inject c _ _ _ => vs.contains (vatOf c)
  | .victim c _ _ _ => vs.contains (vatOf c)
  | _ => false

/-- A vat that stays in a partition under reload: its tallies and its slots take the image's values. -/
def State.vatReload (s : State) (v : Nat) : State :=
  if s.domState v ≠ 2 then s
  else
    let s : State := { s with regQueue := s.regQueue.filter (fun e => e.1 ≠ v) }
    let s := (List.range 256).foldl (fun (s : State) i => s.setFld VAT_TALLY_WAITV.WAITV 0 v i) s
    ((s.startTallies v).startTasks v).readyStages v

/-- Translations of partition `p`, or of all, end with the registers of their windows (13 R411, R414). -/
def State.xltClear (s : State) (p : Option Nat) : State :=
  let hit := fun (q : Nat) => p.all (fun r => r = q)
  let vs := (List.range 64).filter (fun v => p.isNone || s.partOf v = p)
  let s := vs.foldl (fun (s : State) v =>
    let s := s.tlbRemove v (fun _ => true)
    (List.range 64).foldl (fun (s : State) k =>
      if (smFind s.cores (64 * v + k)).isNone then s
      else s.updCore (64 * v + k) (fun x => (x.invalidate (fun _ => true) true).clearSide (fun _ => true))) s) s
  let lo := XLT_PT_BASE.addr (p.getD 0)
  let s := s.clearRegs lo (if p.isNone then lo + 256 * 64 else lo + 256) (fun _ => false)
  { s with
    walks := s.walks.filter (fun w => !hit w.part)
    migq := s.migq.filter (fun g => !hit g.part)
    mig := s.mig.filter (fun g => !hit g.1.part)
    ringWrites := s.ringWrites.filter (fun w => !hit w.part) }

/-- Bring the device to configuration `m`: of a full image or of none, or of a partition image (`reload`). Teardown and
zeroisation come first, then the sections in their order (03 R95 to R99). -/
def State.applyConfig (s : State) (m : Image) (reload : Option Nat) (xs : List Sect) (k : Kept) (d : ImgIdent) : State :=
  let full := reload.isNone
  let old := s.img
  let was := (List.range 64).filter (fun v => (s.partOf v).isSome && (full || s.partOf v = reload))
  let now := (List.range 64).filter (fun v => m.parts.any (fun e => e.2.vatMask.getLsbD v && (full || some e.1 = reload)))
  let stay := was.filter (fun v => now.contains v)
  let same : Bool := s.devId = d.dev && s.fld MC_IMG_ID.FABRIC_ID = d.fabric && s.fld MC_IMG_BUILD.FABRIC_BUILD = d.build
  -- teardown
  let s := s.zeroOther k s.oldCrock s.oldCellar
  let s : State := { s with net := s.net.filter (fun g => !g.atVats was) }
  let s : State := if full then { s with img := { old with stages := [], tallies := [] } } else s
  let s := if full then stay.foldl (fun (s : State) v => if s.domState v = 2 then s.syncReset v else s) s else s
  let gone := if full then was else was.filter (fun v => !now.contains v)
  let s := gone.foldl (fun (s : State) v => (s.zeroScratch v).zeroCores v) s
  let s := if full then (s.xltClear none).portsLeave m same else s.xltClear reload
  -- the new configuration
  let s : State := { s with img := m }
  let s := s.zeroOther k m.crock m.cellar
  let s := if full then (s.applyIdent d).applyFabric xs else s
  let s := s.setFld MC_IMG_PARTS.DEFINED (m.parts.foldl (fun a e => a ||| 2 ^ e.1) 0)
  let s := if full ∧ m.configured then s.setFld PWR_LIMIT.LIMIT m.powerLimit else s
  let s := (s.applyPower xs).applyGrid
  let s := (List.range 64).foldl (fun (s : State) v => s.applySlice v) s
  let s := s.homeSync
  let s := if m.configured then s.applyKeep k (BitVec.ofNat 64 d.seq) else s.keepAlone k
  let s := (s.applyKeys k (BitVec.ofNat 64 d.seq)).applyCrock.applyCellar
  -- domains
  let s := (List.range 64).foldl (fun (s : State) v => s.domApply v) s
  let s := if full ∧ m.configured then [64, 65, 66, 67, 68, 69, 70, 71, 72, 73, 74, 75, 76].foldl (fun (s : State) e => s.domApply e) s else s
  let s := if full then s.applyPorts.applySites.applyTwin else s
  -- partition start
  stay.foldl (fun (s : State) v => s.vatReload v) s

/-! ### A load (03 R94 to R101, 19 R585, R586) -/

/-- A load ends with a code of R93. One that no command asked for is the automatic load of a start (19 R585). -/
def State.imageFail (s : State) (h : Option Nat) (e : ImgErr) : State :=
  let w := e.code + e.sect * 2 ^ 8 + e.part * 2 ^ 16 + e.off * 2 ^ 32
  let s := s.setReg MC_IMG_ERR (BitVec.ofNat 64 w)
  match h with
  | some h => (s.setFld MC_IMG_STAT.FAILED 1).ringDone h 2 5 e.code
  | none => s.startFinish 3

/-- A load ends with code 0; the result of an automatic load waits for the topology check. -/
def State.imageOk (s : State) (h : Option Nat) : State :=
  match h with
  | some h => s.ringDone h 2 0 0
  | none => s

/-- Phase 4 of a reload (03 R99): every task of the partition is cancelled, its speculation units are reset (08 R284), its
ring is flushed (16 R511). -/
def State.reloadCancel (s : State) (p : Nat) : State :=
  let s := (s.vatsOf p).foldl (fun (s : State) v =>
    if s.domState v ≠ 2 then s
    else (List.range 256).foldl (fun (s : State) i =>
      let st := s.taskState v i
      if 1 ≤ st ∧ st ≤ 4 then s.cancelTask v i else s) (s.specReset v)) s
  s.ringFlush p

/-- The checking pass of a load and, where it passes, the start of its later phases. While debug is unlocked every load
fails (21 R635). -/
def State.imageStart (s : State) (h : Option Nat) (len : Nat) (b : List Byte) : State :=
  match s.checkImage len b with
  | some e => s.imageFail h e
  | none =>
    if s.bit RIND_STAT.DEBUG then s.imageFail h { code := 0x2A }
    else
      let s : State := { s with mcRun := some (.image h len b) }
      if imgKind b = 0 then s.setFld MC_IMG_STAT.STATE 1
      else
        let p := imgPart (imgSects b)
        State.reloadCancel { (s.setFld MC_IMG_STAT.STATE 3).setFld MC_IMG_STAT.RELOAD_PART p with reloading := some p } p

/-- Have the tasks, ladles and requests of the partition under reload ended (03 R99 phases 4 and 5)? -/
def State.reloadDrained (s : State) (p : Nat) : Bool :=
  (s.vatsOf p).all (fun v => s.domState v ≠ 2 || (s.outstanding v = []
    && (List.range 256).all (fun i => s.taskState v i ≠ 3)
    && (List.range 4).all (fun l => s.fld VAT_LADLE_STAT.STATE v l = 2 || (s.ladle v l).queue = [])))

/-- The order in which sections are applied (03 R95). -/
def applyOrder : List Nat := [1, 14, 10, 3, 4, 7, 8, 9, 11, 12, 2, 6, 13, 5]

/-- The digest of an image's header and directory as bytes (21 R634). -/
def digestBytes (d : BitVec 384) : List Byte := (List.range 48).map (fun i => (d >>> (8 * i)).setWidth 8)

/-- The device has no image (03 R97, 21 R632, R635). -/
def State.unconfigure (s : State) (k : Kept) : State :=
  let s := (s.applyConfig {} none [] k {}).setFld MC_IMG_STAT.STATE 0
  { s with cfgDigest := 0, topoRun := false }

/-- A full image takes effect (03 R96), and the topology check starts (19 R586). -/
def State.fullApply (s : State) (b : List Byte) (ys : List Sect) : State :=
  let m := s.newImage 0 ys
  let d : ImgIdent := { dev := imgDev b, fabric := leAt b 0x20 4, build := leAt b 0x24 4, seq := imgSeq b }
  let s := (s.applyConfig m none ys (s.keptBy m none) d).setFld MC_IMG_STAT.STATE 2
  let s := (s.setFld MC_TOPO_STAT.DONE 0).setFld MC_TOPO_STAT.PASS 0
  State.topoSync { s with cfgDigest := Config.sha384 (imgSigned b), topoRun := true }

/-- A reload ends (03 R99 phases 6 to 8): configuration `m` replaces the partition. -/
def State.reloadApply (s : State) (p : Nat) (m : Image) (seq : Nat) (ys : List Sect) : State :=
  let s := s.applyConfig m (some p) ys (s.keptBy m (some p)) { seq := seq }
  { (s.setFld MC_IMG_STAT.STATE 2).setFld MC_IMG_STAT.RELOAD_PART 0 with reloading := none }

/-- The partition of a vat or of a cellar region that an image cannot apply, since the domain of the vat or of the region's
position is in `FAULT`, or, in a reload, the position is off (18 R558, R560). -/
def State.badDomain (s : State) (full : Bool) (xs : List Sect) : Option Nat :=
  let vat := ((imgParts xs).find? (fun e => (maskVats e.2.vatMask).any (fun v => s.domState v = 4))).map Prod.fst
  let pos := ((recsOf xs 9 8 16).map (fun (x, o) => x.cellarRec o)).find? (fun r =>
    let st := s.domState (64 + r.pos)
    st = 4 || (!full && (st = 0 || st = 3)))
  match vat with
  | some p => some p
  | none => pos.map (fun r => r.part)

/-- The applying pass of the load that runs, with the image as it reads now (03 R95): none where a phase before it has not
ended. `bad`: a unit failed while being configured. -/
def State.imageEnd (s : State) (h : Option Nat) (b img : List Byte) (bad : Bool) : Option State :=
  let xs := imgSects b
  let ys := xs.map (fun x => { x with bytes := bytesAt img x.off x.len })
  let full := imgKind b = 0
  let p := imgPart xs
  let waits := if full then h.isNone && (List.range 8).any (fun c => s.celState c = 1 || s.celState c = 2) else !s.reloadDrained p
  let done : State := { s with mcRun := none }
  let changed := ((applyOrder.flatMap (fun t => ofType ys t)).find? (fun x => !x.digestOk)).map (fun x => x.dirErr 0x29 0x10)
  let err := match changed with
    | some e => some e
    | none => match done.badDomain full ys with
      | some q => some ({ code := 0x2A, part := q } : ImgErr)
      | none => if bad then some ({ code := 0x2A, part := if full then 0xFF else p } : ImgErr) else none
  if waits then none
  else match err with
    | some e => some ((if full then done.unconfigure (s.keptBy (s.newImage 0 xs) none)
        else done.reloadApply p (s.img.without p) (imgSeq b) []).imageFail h e)
    | none => some ((if full then done.fullApply b ys
        else
          let t := done.reloadApply p (s.newImage 1 ys) (imgSeq b) ys
          { t with cfgDigest := Config.sha384 (digestBytes s.cfgDigest ++ digestBytes (Config.sha384 (imgSigned b))) }).imageOk h)

/-- `RELOAD_CANCEL_TIMEOUT` (03 R99): cores of the partition that still run are reset. -/
def execReloadCancelTimeout (s : State) : Host.Outcome State Fault Refusal :=
  .next (match s.reloading with
    | none => s
    | some p => (s.vatsOf p).foldl (fun (s : State) v => (List.range 256).foldl (fun (s : State) i =>
        if s.taskState v i ≠ 3 then s
        else
          let c := s.taskCore v i
          let s := s.endTask c 6
          (s.members c).foldl (fun (s : State) m => s.updCore m CoreSt.afterReset) s) s) s)

end Sys2Proof.Machine
end

