-- ==== Sys2Proof/Machine/Rind.lean ====
section
/-! DEFINITION. The Rind: firmware images, authenticated commands, self-tests, entropy, attestation (21 R614 to R638). -/

namespace Sys2Proof.Machine

open Sys2Proof

/-- A fault record of this chapter (21 R636). -/
def rindRec (cls info : Nat) : FRec := { cls := cls, unit := 0x0A, info := info }

/-- Little-endian bytes. -/
def natBytes (n k : Nat) : List Byte := (List.range k).map (fun i => BitVec.ofNat 8 (n / 2 ^ (8 * i)))

/-- Are `n` bytes from an offset zero? -/
def zeroAt (b : List Byte) (o n : Nat) : Bool := (firstNonZero b o n).isNone

/-! ### Firmware (21 R627) -/

/-- The fields of a firmware image. -/
def fwSvn (b : List Byte) : Nat := leAt b 4 2
def fwFlag (b : List Byte) : Bool := (leAt b 6 1).testBit 0
def fwCodeLen (b : List Byte) : Nat := leAt b 8 4

/-- Is an image authentic but for its `SVN`? -/
def State.fwSigned (s : State) (b : List Byte) : Bool :=
  let n := 64 + fwCodeLen b
  let ec := bytesAt b n 97
  let ml := bytesAt b (n + 97) 2592
  let o := n + 2689
  let msg := b.take o
  leAt b 0 4 = 0x57464952 && leAt b 6 1 < 2 && leAt b 7 1 = 0 && zeroAt b 0x0C 52
    && fwCodeLen b ≤ 7 * 2 ^ 20 - 64 - 4728 - 2689 && o + 4728 ≤ b.length
    && decide (Config.sha384 (ec ++ ml) = Config.fwKeyDigest)
    && Config.ecdsaOk ec msg (bytesAt b o 96) && Config.mldsaOk ml msg (bytesAt b (o + 96) 4627) && zeroAt b (o + 4723) 5
    && (!s.bit RIND_FUSE.FW_VALID_ONLY || fwFlag b)

/-- The status of an image: 0, `FW_AUTH` or `FW_SVN`. -/
def State.fwStatus (s : State) (b : List Byte) : Nat :=
  if !s.fwSigned b then 8 else if fwSvn b < s.mram.minSvn then 9 else 0

/-- The bytes of a firmware bank, and of the running one. -/
def State.bank (s : State) (n : Nat) : List Byte := if n = 0 then s.mram.bankA else s.mram.bankB
def State.runBank (s : State) : List Byte := s.bank (s.fld MC_BOOT_STAT.BANK)

/-! ### Slots and the owner record (21 R621, R624, R637) -/

/-- A slot. -/
def State.keySlot (s : State) (n : Nat) : RindSlot := smGet {} s.mram.slots n

/-- Registers that show the slots and the owner record. -/
def State.rindShow (s : State) : State :=
  let s := (List.range 8).foldl (fun (s : State) n =>
    let x := s.keySlot n
    let print := if x.state = 0 then 0 else (Config.sha384 (x.ec ++ x.ml)).toNat % 2 ^ 56
    (s.setFld RIND_SLOT.STATE x.state n).setFld RIND_SLOT.PRINT print n) s
  ((s.setFld RIND_STAT.CLAIMED s.mram.claimed.toNat).setFld MC_IMG_MINSEQ.MIN s.mram.minSeq.toNat).setFld RIND_FWSVN.MIN_SVN s.mram.minSvn

/-- Replace a slot. -/
def State.setKeySlot (s : State) (n : Nat) (x : RindSlot) : State :=
  State.rindShow { s with mram := { s.mram with slots := smSet {} s.mram.slots n x } }

/-- A fresh nonce: a free value (log 3). -/
def State.freshNonce (s : State) : State :=
  State.setReg { s.drawn with drbg := s.drbg + 1 } RIND_NONCE (Config.freeDword s.free)

/-! ### The check of a block (21 R623 to R626) -/

/-- A command block's fields. -/
def blkCode (b : List Byte) : Nat := leAt b 4 1
def blkSlot (b : List Byte) : Nat := leAt b 5 1
def blkPay (b : List Byte) : Nat := leAt b 0x18 4

/-- The start of its signature area. -/
def blkS (b : List Byte) : Nat := (64 + blkPay b + 7) / 8 * 8

/-- A byte range of the payload. -/
def blkAt (b : List Byte) (o n : Nat) : Nat := leAt b (64 + o) n

/-- Has a payload the form of its command (21 R624)? -/
def payOk (b : List Byte) : Bool :=
  let n := blkPay b
  match blkCode b with
  | 1 => n = 2704 && zeroAt b 65 7 && zeroAt b (64 + 105) 7
  | 2 => n = 8 && zeroAt b 65 7
  | 3 => n = 8
  | 4 => 8 ≤ n && zeroAt b 65 7
  | 5 => n = 8 && zeroAt b 66 6
  | 6 => n = 0
  | 7 => n = 0
  | 8 => n = 48
  | _ => false

/-- Step 2: form (log 30). -/
def blkForm (b : List Byte) : Bool :=
  let so := blkS b
  let attest := blkCode b = 8
  leAt b 0 4 = 0x444D4352 && zeroAt b 6 2 && zeroAt b 0x1C 36 && payOk b && zeroAt b (64 + blkPay b) (so - 64 - blkPay b)
    && b.length = (if attest then so else so + 4728) && (attest || zeroAt b (so + 4723) 5)

/-- Step 5: the slot whose keys must have signed, if any; none where the slot is not permitted. -/
def State.blkKeys (s : State) (b : List Byte) : Option (Option RindSlot) :=
  let k := blkSlot b
  let c := blkCode b
  if c = 8 then (if k = 0 then some none else none)
  else if s.mram.claimed then (if k ≤ 7 ∧ (s.keySlot k).state = 1 then some (some (s.keySlot k)) else none)
  else if k ≠ 0xFF then none
  else if c = 1 then
    (if blkAt b 0 1 = 0 then some (some { state := 1, ec := bytesAt b 72 97, ml := bytesAt b 176 2592 }) else none)
  else if c = 4 ∨ c = 7 then some none
  else none

/-- Step 6: the signatures. -/
def blkSigned (b : List Byte) (k : RindSlot) : Nat :=
  let msg := b.take (blkS b)
  if !Config.ecdsaOk k.ec msg (bytesAt b (blkS b) 96) then 5
  else if !Config.mldsaOk k.ml msg (bytesAt b (blkS b + 96) 4627) then 6
  else 0

/-- The slots that are `ACTIVE`. -/
def State.activeSlots (s : State) : List Nat := (List.range 8).filter (fun n => (s.keySlot n).state = 1)

/-- Step 7: what the device and the rules of R624 and R627 permit. Recovery firmware accepts an update alone (19 R571). -/
def State.blkRules (s : State) (b : List Byte) : Nat :=
  let n := blkAt b 0 1
  let ref := fun (bad : Bool) => if bad then 7 else 0
  if blkCode b = 6 ∧ s.bit RIND_FUSE.DEBUG_PERM then 0x0A
  else if s.fld MC_BOOT_STAT.RESULT = 4 ∧ blkCode b ≠ 4 then 7
  else match blkCode b with
    | 1 => ref (7 < n || (s.keySlot n).state ≠ 0)
    | 2 => ref (7 < n || s.activeSlots = [n])
    | 3 => ref (blkAt b 0 8 < s.mram.minSeq.toNat)
    | 4 => if 1 < n ∨ (s.fld MC_BOOT_STAT.RESULT ≠ 4 ∧ n = s.fld MC_BOOT_STAT.BANK) then 7
      else s.fwStatus (bytesAt b 72 (blkPay b - 8))
    | 5 => ref (s.fld RIND_FWSVN.RUN_SVN < blkAt b 0 2)
    | _ => 0

/-- May the Rind read a block at this address: device memory, or a host window of `OWNER` 0x40 (21 R637 `RIND_CMD_ADDR`)? -/
def State.rindReads (s : State) (ga : Dword) : Bool :=
  match s.target ga with
  | .here a => (match s.place a with
    | .host off => (s.hostMap off none false).isSome
    | .reg _ | .none => false
    | _ => true)
  | _ => false

/-- The order of R626: the step that fails, 8 for none, and its status. -/
def State.blkCheck (s : State) (blk : Option (List Byte)) : Nat × Nat :=
  let len := s.fld RIND_CMD_LEN.LEN
  match blk with
  | none => (1, 0x0B)
  | some b =>
    if len < 64 ∨ 2 ^ 23 < len ∨ b.length ≠ len ∨ !s.rindReads (s.reg RIND_CMD_ADDR) then (1, 0x0B)
    else if !blkForm b then (2, 1)
    else if leAt b 8 8 ≠ s.fld RIND_UID.UID then (3, 2)
    else if leAt b 0x10 8 ≠ (if blkCode b = 8 then 0 else s.fld RIND_NONCE.NONCE) then (4, 3)
    else match s.blkKeys b with
      | none => (5, 4)
      | some k =>
        let sig := match k with
          | some k => blkSigned b k
          | none => 0
        if sig ≠ 0 then (6, sig)
        else
          let r := s.blkRules b
          if r ≠ 0 then (7, r) else (8, 0)

/-! ### Attestation (21 R634) -/

/-- The report. -/
def State.report (s : State) (nonce : List Byte) : List Byte :=
  let states := (List.range 8).foldl (fun a n => a + (s.keySlot n).state * 4 ^ n) 0
  natBytes 0x54414952 4 ++ natBytes 1 4 ++ natBytes (s.fld RIND_UID.UID) 8 ++ nonce ++ digestBytes (Config.sha384 s.runBank)
    ++ natBytes (s.fld RIND_FWSVN.RUN_SVN) 2 ++ natBytes s.mram.minSvn 2 ++ natBytes (s.reg RIND_FUSE).toNat 4 ++ digestBytes s.cfgDigest
    ++ natBytes (s.fld MC_IMG_SEQ.SEQUENCE) 8 ++ natBytes (s.fld MC_IMG_MINSEQ.MIN) 8 ++ natBytes (s.fld MC_IMG_PARTS.DEFINED) 8
    ++ natBytes (s.fld RIND_STAT.VALIDATED + s.mram.claimed.toNat * 2 + s.fld RIND_STAT.DEBUG * 4) 4 ++ natBytes states 4
    ++ natBytes (s.reg MC_TSC).toNat 8 ++ List.replicate 48 0

/-- Write one byte of the Rind's response: device memory, or a host window of `OWNER` 0x40. -/
def State.rindByte (s : State) (ga : Dword) (x : Byte) : Option State :=
  match s.target ga with
  | .here a =>
    (match s.place a with
    | .host off => (s.hostMap off none true).map (fun (h, rid) => s.hostPost h rid 1 x.toNat)
    | .reg _ => none
    | .none => none
    | .crock .. => some (State.setValid { s with mem := Memory.set s.mem a x } (a / 64))
    | _ => some { s with mem := Memory.set s.mem a x })
  | _ => none

/-- Write the response; slices drop the lines it covers. None where a byte cannot be written. -/
def State.rindWrite (s : State) (ga : Dword) (bs : List Byte) : Option State :=
  let lo := bvBits ga 0 48 / 64
  let hi := (bvBits ga 0 48 + bs.length) / 64
  ((bs.zip (List.range bs.length)).foldl (fun (t : Option State) (x, i) =>
    t.bind (fun t => t.rindByte (ga + BitVec.ofNat 64 i) x)) (some s)).map (fun t =>
      (List.range 64).foldl (fun (t : State) v => t.crmInvalidate v (fun l => lo ≤ l && l ≤ hi) true) t)

/-! ### Running a command (21 R624, R626, R632, R635) -/

/-- Zeroise everything that a device holds for an owner, and leave it unconfigured. -/
def State.rindErase (s : State) : State :=
  let s := s.unconfigure {}
  { s with keep := [], mram := { s.mram with wrapped := [] } }

/-- `DECOMMISSION` (21 R632): every populated position is written whole. -/
def State.rindDecommission (s : State) : State :=
  let s := s.rindErase
  let s := (List.range 8).foldl (fun (s : State) p => s.zeroCellar p 0 64) s
  let s := State.rindShow { s with mram := { s.mram with slots := [], claimed := false, minSeq := 0, minSvn := 0 } }
  s.keptSync

/-- The effect of a command that passed, and its status. -/
def State.rindEffect (s : State) (b : List Byte) : State × Nat :=
  let n := blkAt b 0 1
  match blkCode b with
  | 1 =>
    let s := if s.mram.claimed then s else { s with mram := { s.mram with claimed := true } }
    (s.setKeySlot n { state := 1, ec := bytesAt b 72 97, ml := bytesAt b 176 2592 }, 0)
  | 2 => (s.setKeySlot n { s.keySlot n with state := 2 }, 0)
  | 3 => (State.rindShow { s with mram := { s.mram with minSeq := BitVec.ofNat 64 (blkAt b 0 8) } }, 0)
  | 4 =>
    let fw := bytesAt b 72 (blkPay b - 8)
    let m := if n = 0 then { s.mram with bankA := fw } else { s.mram with bankB := fw }
    ({ s with mram := { m with active := n, trial := true, attempts := 0 } }, 0)
  | 5 => (State.rindShow { s with mram := { s.mram with minSvn := max s.mram.minSvn (blkAt b 0 2) } }, 0)
  | 6 => ((s.rindErase.setFld RIND_STAT.DEBUG 1).keptSync.fault (rindRec 0x6A 0), 0)
  | 7 => (s.rindDecommission, 0)
  | 8 =>
    let r := s.report (bytesAt b 64 48)
    match s.rindWrite (s.reg RIND_RSP_ADDR) (r ++ Config.reportTail s.runBank r) with
    | some t => (t, 0)
    | none => (s, 0x0B)
  | _ => (s, 0)

/-- A command ends: its status, `DONE`, source 232. -/
def State.rindDone (s : State) (status : Nat) : State :=
  let s := ((s.setFld RIND_CMD_STAT.STATUS status).setFld RIND_CMD_STAT.DONE 1).setFld RIND_STAT.STATE 1
  (s.bump RIND_PC_CMD).dicLatch 232

/-- A command is turned away (21 R629). -/
def State.rindReject (s : State) : State := (s.setFld RIND_CMD_STAT.REJ 1).dicLatch 232

/-- Run a command (21 R626). -/
def State.rindRun (s : State) (blk : Option (List Byte)) : State :=
  if s.fld RIND_STAT.STATE = 3 then s.rindReject
  else
    let b := blk.getD []
    let (step, status) := s.blkCheck blk
    let (s, status) := if step = 8 then s.rindEffect b else (s, status)
    let s := if 4 ≤ step ∧ blkCode b ≠ 8 then s.freshNonce else s
    let s := if status = 0 then s
      else if 3 ≤ step ∧ step ≤ 6 then
        (s.bumpErr RIND_ERR.AUTH_FAIL).fault (rindRec 0x68 (status + blkCode b * 2 ^ 8 + blkSlot b * 2 ^ 16))
      else s.bumpErr RIND_ERR.CMD_FAIL
    s.rindDone status

/-- The Rind takes a block whose `GO` was written: it runs, or waits for the management core (21 R629). -/
def State.rindTake (s : State) (blk : Option (List Byte)) : State :=
  let st := s.fld RIND_STAT.STATE
  if s.rindWait ∨ st = 1 then
    let s : State := { s with rindWait := false }
    if s.mcRun.isSome ∨ s.mcQueue ≠ [] then State.setFld { s with mcQueue := s.mcQueue ++ [.rind blk] } RIND_STAT.STATE 2
    else s.rindRun blk
  else s.rindReject

/-- A write of `GO`. -/
def State.rindGo (s : State) : State :=
  if s.fld RIND_STAT.STATE = 1 then State.setFld { s with rindWait := true } RIND_STAT.STATE 2 else s.rindReject

/-- A block of one of the command codes. -/
def State.rindCode (s : State) (code : Nat) (blk : List Byte) : State := if blkCode blk = code then s.rindTake (some blk) else s

/-- `ENROLL` (21 R624, R625). -/
def execEnroll (blk : List Byte) (s : State) : Host.Outcome State Fault Refusal := .next (s.rindCode 1 blk)

/-- `REVOKE` (21 R624). -/
def execRevoke (blk : List Byte) (s : State) : Host.Outcome State Fault Refusal := .next (s.rindCode 2 blk)

/-- `SET_MINSEQ` (21 R624, 03 R101). -/
def execSetMinseq (blk : List Byte) (s : State) : Host.Outcome State Fault Refusal := .next (s.rindCode 3 blk)

/-- `FW_UPDATE` (21 R624, R627). -/
def execFwUpdate (blk : List Byte) (s : State) : Host.Outcome State Fault Refusal := .next (s.rindCode 4 blk)

/-- `SET_FWSVN` (21 R624). -/
def execSetFwsvn (blk : List Byte) (s : State) : Host.Outcome State Fault Refusal := .next (s.rindCode 5 blk)

/-- `DEBUG_UNLOCK` (21 R635). -/
def execDebugUnlock (blk : List Byte) (s : State) : Host.Outcome State Fault Refusal := .next (s.rindCode 6 blk)

/-- `DECOMMISSION` (21 R632). -/
def execDecommission (blk : List Byte) (s : State) : Host.Outcome State Fault Refusal := .next (s.rindCode 7 blk)

/-- `ATTEST` (21 R634). -/
def execAttest (blk : List Byte) (s : State) : Host.Outcome State Fault Refusal := .next (s.rindCode 8 blk)

/-- `RIND_CMD_RESERVED` (21 R624, R626): a block with a reserved code, or one that cannot be read. -/
def execRindCmdReserved (blk : Option (List Byte)) (s : State) : Host.Outcome State Fault Refusal :=
  .next (match blk with
    | none => s.rindTake none
    | some b => if 1 ≤ blkCode b ∧ blkCode b ≤ 8 then s else s.rindTake (some b))

/-! ### Self-tests (21 R617 to R619) -/

/-- A self-test fails after phase 2 of a start: the failed state, a record, and the device is fatal. -/
def State.rindFailed (s : State) (row : Nat) : State :=
  if s.fld RIND_STAT.STATE = 3 then s
  else
    let s := (s.setFld RIND_STAT.STATE 3).setFld RIND_STAT.VALIDATED 0
    State.goFatal { s with rindWait := false } 3 (rindRec 0x69 row)

/-- `RIND_SELFTEST` (21 R618, R619): row 0 of the table. A write outside `IDLE` is ignored. -/
def execRindSelftest (fail : Option (Fin 8)) (s : State) : Host.Outcome State Fault Refusal :=
  .next (if s.fld RIND_STAT.STATE = 1 ∧ fail.isSome then s.rindFailed 0 else s)

/-- `RIND_ENTROPY_SAMPLE` (21 R618, R619): the continuous tests, row 3 of the table. -/
def execRindEntropySample (ok : Bool) (s : State) : Host.Outcome State Fault Refusal :=
  .next (if ok ∨ s.fld RIND_STAT.STATE = 0 then s else s.rindFailed 3)

/-- `DRBG_RESEED` (21 R617). -/
def execDrbgReseed (s : State) : Host.Outcome State Fault Refusal := .next (if 2 ^ 20 ≤ s.drbg then { s with drbg := 0 } else s)

end Sys2Proof.Machine
end

