-- ==== Sys2Proof/Machine/Queue.lean ====
section
/-! DEFINITION. The queue of the management core: image loads, zeroisation, twin synchronisation and authenticated commands run
one at a time, in the order they were accepted (03 R94, 21 R629, R631). -/

namespace Sys2Proof.Machine

open Sys2Proof

/-- `ZEROISE` runs (21 R631, 16 R508): units that the ring's partition no longer holds fail it. -/
def State.zeroiseRun (s : State) (handle : Nat) (ws : List Dword) : State :=
  let w := fun i => ws.getD i 0
  let cellar := (w 1).getLsbD 0
  let pos := bvBits (w 1) 1 3
  let base := bvBits (w 2) 0 16
  let n := bvBits (w 2) 16 16
  if (List.range n).all (fun i => s.holdsUnit (handle / 2 ^ 26) cellar pos (base + i)) then
    (if n = 0 then s else if cellar then s.zeroCellar pos base n else s.zeroCrock base n).ringDone handle 3 0 0
  else s.ringDone handle 3 5 0

/-- Start one operation. -/
def State.mcStart (s : State) (o : McOp) : State :=
  match o with
  | .image h len b => s.imageStart h len b
  | .zeroise h ws => s.zeroiseRun h ws
  | .sync h sink nocopy => s.syncStart h sink nocopy
  | .rind blk => s.rindRun blk

/-- Start waiting operations until one runs on. -/
def State.queueGo : Nat → State → State
  | 0, s => s
  | n + 1, s =>
    if s.mcRun.isSome then s
    else match s.mcQueue with
      | [] => s
      | o :: os => State.queueGo n (State.mcStart { s with mcQueue := os } o)

/-- An operation is accepted: it starts, or waits for those before it. -/
def State.mcAccept (s : State) (o : McOp) : State :=
  if s.mcRun.isSome ∨ s.mcQueue ≠ [] then { s with mcQueue := s.mcQueue ++ [o] } else s.mcStart o

/-- `IMAGE_LOAD` (16 R508, 03 R94 to R100): the checking pass, and the start of the load or reload. -/
def execImageLoad (r : RingId) (img : List Byte) (s : State) : Host.Outcome State Fault Refusal :=
  .next (match s.ringTake r 2 with
    | none => s
    | some (i, s) => s.mcAccept (.image (some i.handle) (bvBits (i.w 2) 0 32) img))

/-- `ZEROISE` (16 R508, 21 R631). -/
def execZeroise (r : RingId) (s : State) : Host.Outcome State Fault Refusal :=
  .next (match s.ringTake r 3 with
    | none => s
    | some (i, s) => s.mcAccept (.zeroise i.handle i.words))

/-- `MC_QUEUE_NEXT` (03 R94): the image load that runs ends, with the image as its applying pass reads it; then the operations
that wait start. -/
def execMcQueueNext (img : List Byte) (unitFail : Bool) (s : State) : Host.Outcome State Fault Refusal :=
  let s' := match s.mcRun with
    | some (.image h _ b) => s.imageEnd h b img unitFail
    | some _ => none
    | none => some s
  .next (match s' with
    | some t => State.queueGo t.mcQueue.length t
    | none => s)

end Sys2Proof.Machine
end

