-- ==== Sys2Proof/Machine/BringUp.lean ====
section
/-! DEFINITION. Supplies, resets and starts, yield recovery, core tests, the end of the topology check (19, 22 R647 to
R650). -/

namespace Sys2Proof.Machine

open Sys2Proof

/-! ### Supplies and causes of a start (19 R565, 22 R647 to R650) -/

/-- `AUX_POWER_ON` (22 R647, 02 R56, 16 R515): `PD_AON` starts, `MC_TSC` from zero; the next start is a power-on, and marks
every keep entry `LOST`. -/
def execAuxPowerOn (s : State) : Host.Outcome State Fault Refusal :=
  .next (if s.sup.aux then s
    else State.setFld { s with sup := { aux := true, due := some 0, lost := s.keep.map Prod.fst } } PWR_DOM_STAT.STATE 2 79)

/-- `AUX_POWER_LOSS` (16 R515): everything is lost but MRAM. -/
def execAuxPowerLoss (s : State) : Host.Outcome State Fault Refusal :=
  let t : State := { ({} : State) with
    pending := s.pending
    free := s.free
    refs := s.refs
    keep := s.keep
    mram := s.mram
    regs := s.regs.filter (fun e => MC_JRNL.addr ≤ e.1 && e.1 < MC_JRNL.addr + 0x10000) }
  .next ((t.setFld MC_JRNL_STAT.USED (s.fld MC_JRNL_STAT.USED)).setFld MC_BOOT_STAT.START_CNT (s.fld MC_BOOT_STAT.START_CNT))

/-- `POWER_OK_RISE` (22 R647, R649, 18 R553): a start is due. `vret` says whether the retention rail is present, `noCel` which
cellar stacks lost their supply in the keep state. -/
def execPowerOkRise (vret : Bool) (noCel : BitVec 8) (s : State) : Host.Outcome State Fault Refusal :=
  .next (if !s.sup.aux ∨ s.sup.pwrOk then s
    else
      let gone := (s.keep.filter (fun (_, k) => !vret || (k.cellar && noCel.getLsbD k.pos))).map Prod.fst
      { s with sup := { s.sup with
          pwrOk := true
          tripped := false
          due := some (if s.sup.due = some 0 then 0 else 1)
          lost := s.sup.lost ++ gone
          noVret := !vret } })

/-- A device reset (19 R565, R588): accepted writes complete, every domain but `PD_AON` goes off, and a start of this cause is
due. -/
def State.deviceReset (s : State) (cause : Nat) : State :=
  if !s.sup.pwrOk ∨ s.sup.tripped then s
  else
    let s := s.finishWrites
    let s := s.powerDown s.sup.lost
    { s with sup := { s.sup with due := some cause } }

/-- `SYS_RESET_PIN` (22 R647, R649): where a start is due already, it has its own cause. -/
def execSysResetPin (s : State) : Host.Outcome State Fault Refusal := .next (if s.sup.due.isSome then s else s.deviceReset 2)

/-- `MC_BOOT_RESET` (19 R591). -/
def State.bootCtl (s : State) (data : Nat) : State := if data % 256 = 0xB0 then s.deviceReset 3 else s
def execMcBootReset (data : Word) (s : State) : Host.Outcome State Fault Refusal := .next (s.bootCtl data.toNat)

/-- `BOOT_WATCHDOG_EXPIRY` (19 R571). -/
def execBootWatchdogExpiry (s : State) : Host.Outcome State Fault Refusal :=
  .next (if s.fld MC_BOOT_STAT.RESULT = 0 then s.deviceReset 4 else s)

/-- `SYS_REFCLK_LOST` (22 R650): the device is fatal; what its record says beside that is a free value (log 3). -/
def execSysRefclkLost (s : State) : Host.Outcome State Fault Refusal :=
  .next (if !s.sup.pwrOk ∨ s.sup.refLost then s
    else
      let x := Config.freeDword s.free
      State.goFatal { s.drawn with sup := { s.sup with refLost := true } } 3
        { cls := bvBits x 0 8, sub := bvBits x 8 8, unit := bvBits x 16 8, inst := bvBits x 24 8, info := bvBits x 32 32 })

/-! ### Phases 1 and 2 (19 R570, R571, R575, 21 R615 to R621) -/

/-- What a phase answers: the device, and whether the start goes on. -/
abbrev Phase := State × Bool

/-- Domains are on. -/
def State.domsOn (s : State) (ds : List Nat) : State := ds.foldl (fun (s : State) d => s.setFld PWR_DOM_STAT.STATE 2 d) s

/-- A start ends with a result, before its phase 7. -/
def State.startStop (s : State) (result : Nat) (r : StartRun) : State :=
  ((s.setFld MC_BOOT_STAT.RESULT result).setFld MC_BOOT_STAT.PHASE 0).setFld MC_BOOT_TIME.TREADY r.ready.toNat

/-- A start error (19 R587): the device answers its host and keeps its memory controllers refreshing. -/
def State.startFail (s : State) (err : Nat) (r : StartRun) : Phase :=
  (((s.domsOn [77, 78]).setFld MC_BOOT_STAT.ERR err).startStop 5 r, false)

/-- The defective cores of the fuse map in a vat, as bits. -/
def fuseCores (r : StartRun) (v : Nat) : Nat := r.fuse.cores.foldl (fun m e => if e.1.val = v then m ||| e.2.toNat else m) 0

/-- The indices of the bits of a mask of physical cores. -/
def coreBits (m : Nat) : List Nat := (List.range 72).filter (fun i => m.testBit i)

/-- Phase 1: the fuse map, and the count of starts. -/
def State.startFuses (s : State) (r : StartRun) (cause : Nat) : State :=
  let s := (s.setFld MC_BOOT_STAT.START_CNT ((s.fld MC_BOOT_STAT.START_CNT + 1) % 2 ^ 32)).setFld MC_BOOT_STAT.CAUSE cause
  let s := ((s.setReg RIND_UID r.fuse.uid).setReg RIND_FUSE (r.fuse.rind.setWidth 64)).domsOn [78]
  let s := (List.range 8).foldl (fun (s : State) k =>
    s.setFld CRK_REPAIR.FUSE_ROWS ((r.fuse.spares.filter (fun w => bvBits w 0 3 = k)).length) k) s
  (List.range 64).foldl (fun (s : State) v => s.setFld MC_DEF_VAT.FUSE (coreBits (fuseCores r v)).length v) s

/-- Keep entries are `LOST`. -/
def State.loseKept (s : State) (p : Nat → KeepEnt → Bool) : State :=
  { s with keep := s.keep.map (fun (n, k) => if p n k then (n, { k with lost := true }) else (n, k)) }

/-- A fault record `BOOT_MRAM` (19 R590). -/
def mramRec (kind off : Nat) : FRec := { cls := 0x5B, unit := 9, info := kind + off * 2 ^ 8 }

/-- A record of MRAM with no valid copy (19 R575, 21 R621). A bank has no `KIND`: a free value stands for it (log 3). -/
def State.badRecord (s : State) (b : BadRecord) : State :=
  let m := s.mram
  match b with
  | .bank b => s.drawn.fault (mramRec ((Config.freeDword s.free).toNat % 256) (if b.val = 0 then 0x4000 else 0x20000))
  | .boot => State.fault { s with mram := { m with active := 0, trial := false, attempts := 0, autoload := false } } (mramRec 1 0)
  | .cal block => State.fault { s with mram := { m with laneCal := [], celRate := 0 } } (mramRec 2 (0x40 + block.toNat))
  | .jrnl slot => (s.jrnlDrop slot.toNat).fault (mramRec 3 (0x1000 + slot.toNat))
  | .keep e => (s.loseKept (fun n _ => n = e.toNat)).fault (mramRec 4 (0x2000 + 2 * e.toNat))
  | .rind i =>
    let s : State := match i.val with
      | 0 => { s with mram := { m with slots := [] } }
      | 1 => { s with mram := { m with claimed := false, minSeq := 0, minSvn := 0 } }
      | 2 => { s with mram := { m with wrapped := [] } }
      | _ => s
    s.fault { cls := 0x6B, unit := 0x0A, info := i.val }

/-- The keep table at a start (16 R514 to R516, 18 R553, 21 R621, 22 R649): entries whose region lost its supply, or whose
key is missing, are `LOST`; no image runs. -/
def State.startKeep (s : State) : State :=
  let s := s.loseKept (fun n k => s.sup.lost.contains n || (k.cellar && k.encrypt && (smFind s.mram.wrapped k.part).isNone))
  { s with keep := s.keep.map (fun (n, k) => (n, { k with active := false })), sup := { s.sup with lost := [] } }

/-- The supplies as firmware sees them (18 R552, R553, 22 R649). -/
def State.startSupply (s : State) (r : StartRun) : State :=
  let s := if r.shortHold ∨ s.sup.noVret then s.setFld PWR_EVT.HOLDUP 1 else s
  if s.sup.tripRec then State.fault { s with sup := { s.sup with tripRec := false } } (pwrRec 0x54 0 (bvBits (s.reg PWR_TRIP_REC) 0 32))
  else s

/-- Is a firmware bank authentic (19 R570, R575)? -/
def State.bankGood (s : State) (r : StartRun) (b : Nat) : Bool :=
  !r.bad.any (fun e => match e with
    | .bank n => n.val = b
    | _ => false) && s.fwStatus (s.bank b) = 0

/-- Trying a bank of a trial counts its attempts (19 R570). -/
def State.tryBank (s : State) (b : Nat) : State :=
  if s.mram.trial ∧ b = s.mram.active then { s with mram := { s.mram with attempts := s.mram.attempts + 1 } } else s

/-- The choice of a bank (19 R570). -/
def State.chooseBank (s : State) (r : StartRun) : State × Option Nat :=
  let first := if s.mram.trial ∧ 2 ≤ s.mram.attempts then 1 - s.mram.active else s.mram.active
  let s := s.tryBank first
  if s.bankGood r first then (s, some first)
  else
    let s := s.tryBank (1 - first)
    if s.bankGood r (1 - first) then (s, some (1 - first)) else (s, none)

/-- The Rind begins to serve (21 R616, R624, R636). -/
def State.startRind (s : State) (svn : Nat) (flag : Bool) : State :=
  let s := s.rindShow.freshNonce
  let s := (s.setFld RIND_FWSVN.RUN_SVN svn).setFld RIND_STAT.VALIDATED (flag && s.bit RIND_FUSE.CODE_V).toNat
  { s.setFld RIND_STAT.STATE 1 with drbg := 0, rindWait := false }

/-- Phase 2 of a start, its bank chosen or recovery: the flag `recovery` says which. -/
def State.phase2 (s : State) (r : StartRun) (cause : Nat) : Phase × Bool :=
  if r.kat.isSome then ((s.setFld RIND_STAT.STATE 3).startFail 2 r, false)
  else if r.mramDead then (s.startFail 3 r, false)
  else
    let s := (s.bumpErr MC_MRAM_ERR.CORR (n := bvBits r.mramErr 0 16)).bumpErr MC_MRAM_ERR.UNCORR (n := bvBits r.mramErr 16 16)
    let s : State := { s with mram := { s.mram with wdStarts := if cause = 4 then s.mram.wdStarts + 1 else 0 } }
    let s := (r.bad.foldl State.badRecord s).startKeep.startSupply r
    let s := s.setFld MC_BOOT_STAT.AUTOLOAD s.mram.autoload.toNat
    let recover := fun (s : State) (err : Nat) =>
      if r.recovery then (((s.setFld MC_BOOT_STAT.ERR err).startRind 0 false, true), true) else (s.startFail 1 r, true)
    if 3 ≤ s.mram.wdStarts then recover s 7
    else match s.chooseBank r with
      | (s, none) => recover s 0
      | (s, some b) =>
        let fw := s.bank b
        let s := (s.setFld MC_BOOT_STAT.BANK b).setFld MC_BOOT_STAT.TRIAL (s.mram.trial && b = s.mram.active).toNat
        ((s.startRind (fwSvn fw) (fwFlag fw), true), false)

/-! ### Phase 3 (19 R566, R576, 18 R540, R545) -/

/-- A router's slice that failed its test: replaced by the spare, or the start stops. -/
def State.routerFind (s : State) (f : RouterFind) : Phase :=
  let w := f.loc.toNat + f.net.val * 2 ^ 13
  if f.lost ∨ (s.journalOf 5).any (fun e => e % 2 ^ 16 = w) then (s, false)
  else ((s.journal 5 w).fault { cls := 0x58, unit := 3, inst := f.loc.toNat, info := w }, true)

/-- A sensor that failed the comparison of 18 R545. -/
def State.sensorFail (s : State) (n : Nat) : State :=
  ((s.setFld PWR_SENS.FAILED 1 n).setFld PWR_EVT.SENSOR 1).fault (pwrRec 0x53 0 n)

/-- Phase 3: clocks and networks. -/
def State.phase3 (s : State) (r : StartRun) : Phase :=
  let s := s.domsOn [64, 65, 66, 67, 68, 69, 70, 71, 72, 73, 74, 75, 77]
  let s := (List.range 4).foldl (fun (s : State) g => if s.refs.getLsbD g then s.setGrp LNK_GRP_STAT.REF_OK 1 g else s) s
  match r.mesh with
  | some (v, why) => ((s.setFld PWR_EVT.REG 1).goFatal 3 (pwrRec 0x50 v (reasonCode why))).startFail 5 r
  | none =>
    let (s, ok) := r.routers.foldl (fun (a : Phase) f => if a.2 then a.1.routerFind f else a) (s, true)
    if !ok then s.startFail 4 r
    else (r.sensors.foldl (fun (s : State) n => s.sensorFail n.val) s, true)

/-! ### Phase 4 (19 R577, 10 R334 to R337, 12 R384) -/

/-- The lowest spare row that is free in the bank and layer of a row, in the layout of 10 R335. -/
def spareFree (used : List Nat) (row : Nat) : Option Nat :=
  (List.range 16).find? (fun n => !used.any (fun w => w % 2 ^ 16 = row % 2 ^ 16 && w / 2 ^ 27 % 16 = n))

/-- The channel of a row, and the row as its controller's list of erasures names it (10 R337). -/
def rowChan (w : Nat) : Nat := w % 8 * 16 + w / 8 % 16
def rowKey (w : Nat) : Nat × Nat × Nat := (w / 2 ^ 7 % 8, w / 2 ^ 10 % 64, w / 2 ^ 16 % 2048)

/-- A spare row is switched in. -/
def State.softRow (s : State) (w : Nat) : State := s.setFld CRK_REPAIR.SOFT_ROWS (s.fld CRK_REPAIR.SOFT_ROWS (w % 8) + 1) (w % 8)

/-- A row without a spare: its layer's symbols are erasures (10 R337). -/
def State.unrepRow (s : State) (w : Nat) : State :=
  let c := rowChan w
  let x := s.crk c
  (s.setCrk c { x with unrep := x.unrep ++ [rowKey w] }).setFld CRK_REPAIR.UNREP (s.fld CRK_REPAIR.UNREP (w % 8) + 1) (w % 8)

/-- A row takes a free spare with a new entry, or has none: the state, the spares in use, and whether it was repaired. -/
def State.repairRow (s : State) (used : List Nat) (row : Nat) : State × List Nat × Bool :=
  match spareFree used row with
  | some n => ((s.journal 1 (row + n * 2 ^ 27)).softRow row, (row + n * 2 ^ 27) :: used, true)
  | none => (s, used, false)

/-- An entry of the soft repair list is applied; an `UNREP` one is tried again (10 R335, R337). -/
def State.applyRow (a : State × List Nat) (e : Nat × Nat × Nat) : State × List Nat :=
  let (s, used) := a
  let (row, slot, w) := e
  if 5 ≤ row / 2 ^ 7 % 8 then (s.fault { cls := 0x5C, unit := 9, info := slot }, used)
  else if !w.testBit 31 then (s.softRow row, used)
  else match s.repairRow used row with
    | (s, used, true) => (s, used)
    | (s, used, false) => (s.unrepRow row, used)

/-- A row that failed its test (10 R336, R337). -/
def State.failedRow (a : State × List Nat) (row : Nat) : State × List Nat :=
  let (s, used) := a
  if 5 ≤ row / 2 ^ 7 % 8 then a
  else match s.repairRow used row with
    | (s, used, true) => (s, used)
    | (s, used, false) => ((s.journal 1 (row + 2 ^ 31)).unrepRow row, used)

/-- A layer that the journal marks dead (12 R372). -/
def State.deadLayer (s : State) (w : Nat) : State := s.setFld CRK_CH_ECCSTAT.DEAD_LAYER (w / 2 ^ 7 % 8) (w % 8) (w / 8 % 16)

/-- A checker failed (12 R384). -/
def State.checkerFail (s : State) (u : CheckerUnit) (pat : Word) : State :=
  let (unit, inst) := match u with
    | .crock c => (4, c.val)
    | .cellar p pc => (5, p.val * 64 + pc.val)
    | .vat v => (2, v.val)
  (s.setFld MC_CHK_STAT.FAIL 1).fault { cls := 0x0C, unit := unit, inst := inst, info := pat.toNat }

/-- Phase 4: memories. -/
def State.phase4 (s : State) (r : StartRun) : Phase :=
  let s := s.keptSync
  let s := ((s.jrnlEntries.filter (fun e => 6 ≤ e.2.2)).foldl (fun (s : State) e => s.fault { cls := 0x5C, unit := 9, info := e.2.1 }) s)
  let es := s.jrnlKind 1
  let rows := es.foldl (fun m (e : Nat × Nat) => smPut m (e.2 % 2 ^ 27) e) []
  let used := r.fuse.spares.map BitVec.toNat ++ (es.map Prod.snd).filter (fun w => !w.testBit 31)
  let (s, used) := rows.foldl State.applyRow (s, used)
  let s := (s.journalOf 2).foldl State.deadLayer s
  let s := s.setFld MC_CHK_STAT.DONE 1
  match r.checker with
  | some (u, pat) => (s.checkerFail u pat).startFail 6 r
  | none =>
    let s := (r.rows.foldl (fun a w => State.failedRow a w.toNat) (s, used)).1
    ((List.range 8).foldl (fun (s : State) p => s.setFld CEL_STAT.STATE 1 p) s, true)

/-! ### Phases 5 to 7 (19 R578 to R582, R585) -/

/-- The cores of a vat that the journal marks. -/
def State.jrnlCores (s : State) (v : Nat) : Nat :=
  (s.journalOf 4).foldl (fun m w => if w / 128 % 64 = v then m ||| 2 ^ (w % 128) else m) 0

/-- A defective core is journaled and reported (19 R581). -/
def State.coreDefect (s : State) (v test i : Nat) : State :=
  let w := 128 * v + i + test * 2 ^ 13
  (s.journal 4 w).fault { cls := 0x58, unit := 1, inst := 128 * v + i, info := w }

/-- The tests of a vat's cores (19 R579 to R582). -/
def State.testVat (s : State) (r : StartRun) (v : Nat) : State :=
  let fuse := fuseCores r v
  let jrnl := s.jrnlCores v
  let hit := fun (f : CoreTest → BitVec 72) => r.cores.foldl (fun m t => if t.v.val = v then m ||| (f t).toNat else m) 0
  let ok := fun (m : Nat) => (coreBits m).filter (fun i => !(fuse ||| jrnl).testBit i)
  let st := ok (hit CoreTest.structural)
  let run := (ok (hit CoreTest.first)).filter (fun i => !st.contains i)
  let second := hit CoreTest.second
  let fn := run.filter (fun i => second.testBit i)
  let s := st.foldl (fun (s : State) i => s.coreDefect v 0 i) s
  let s := fn.foldl (fun (s : State) i => s.coreDefect v 1 i) s
  let all := (st ++ fn).foldl (fun m i => m ||| 2 ^ i) (fuse ||| jrnl)
  let total := (coreBits all).length
  let s := (s.setFld MC_DEF_MAP0.DEF (all % 2 ^ 64) v).setFld MC_DEF_MAP1.DEF (all / 2 ^ 64) v
  let s := ((s.setFld MC_DEF_VAT.JRNL (coreBits jrnl).length v).setFld MC_DEF_VAT.NEW (st.length + fn.length) v).setFld
    MC_DEF_VAT.RETRY (run.length - fn.length) v
  let s := s.setFld MC_DEF_VAT.TOTAL total v
  if total ≤ 8 then s
  else (s.setFld MC_DEF_VAT.WITHDRAWN 1 v).fault { cls := 0x59, unit := 2, inst := v, info := total }

/-- The durations of phases 1 to `n` (19 R591). -/
def State.startTimes (s : State) (r : StartRun) (n : Nat) : State :=
  (List.range n).foldl (fun (s : State) i => s.setFld MC_BOOT_PTIME.US (r.times.getD i 0).toNat (i + 1)) s

/-- Phases 5 to 7: links, cores, and the image of the SPI flash. -/
def State.phase5 (s : State) (r : StartRun) : State :=
  let s := (List.range 48).foldl (fun s p => s.portStart p) s
  let s := ((List.range 64).foldl (fun (s : State) v => s.testVat r v) s).startTimes r 6
  match (if s.mram.autoload then r.spi else none) with
  | some b => State.imageStart { s.setFld MC_BOOT_STAT.PHASE 7 with startEnd := some (r.times.getD 6 0, r.ready) } none b.length b
  | none => State.startFinish { s with startEnd := some (0, r.ready) } 3

/-- The phases of a start. Recovery firmware brings up phases 3 and 4 alone (19 R571). -/
def State.startRun (s : State) (r : StartRun) (cause : Nat) : State :=
  match (s.startFuses r cause).phase2 r cause with
  | ((s, false), _) => s
  | ((s, true), recovery) => match s.phase3 r with
    | (s, false) => s
    | (s, true) => match s.phase4 r with
      | (s, false) => s
      | (s, true) => if recovery then (s.startTimes r 4).startStop 4 r else s.phase5 r

/-- `DEVICE_START` (19 R566 to R587): a start that is due runs its phases, up to the image of the SPI flash, whose load ends
by `MC_QUEUE_NEXT`. -/
def execDeviceStart (r : StartRun) (s : State) : Host.Outcome State Fault Refusal :=
  .next (match s.sup.due with
    | none => s
    | some c => if !s.sup.pwrOk ∨ s.sup.tripped then s
      else State.startRun { s with sup := { s.sup with due := none, refLost := false } } r c)

/-! ### The core tests on demand (19 R579, R580, R593) -/

/-- A test starts, unless one runs or the vat's registers are dark. -/
def State.testGo (s : State) (v : Nat) : State :=
  if (s.domState v = 2 ∨ s.domState v = 3) ∧ !s.bit VAT_TEST_STAT.BUSY v then s.setFld VAT_TEST_STAT.BUSY 1 v else s

/-- `VAT_TEST_GO_S` (19 R579, R593). -/
def execVatTestGoS (v : VatId) (s : State) : Host.Outcome State Fault Refusal := .next (s.testGo v)

/-- `VAT_TEST_GO_F` (19 R580, R593). -/
def execVatTestGoF (v : VatId) (s : State) : Host.Outcome State Fault Refusal := .next (s.testGo v)

/-- `VAT_TEST_RUN_END` (19 R579, R580, R593): cores that `VAT_TEST_SKIP` names are not tested. -/
def execVatTestRunEnd (v : VatId) (fails : BitVec 72) (s : State) : Host.Outcome State Fault Refusal :=
  .next (if !s.bit VAT_TEST_STAT.BUSY v then s
    else
      let skip := s.fld VAT_TEST_SKIP0.SKIP v + s.fld VAT_TEST_SKIP1.SKIP v * 2 ^ 64
      let f := (fails &&& ~~~BitVec.ofNat 72 skip).toNat
      let s := (s.setFld VAT_TEST_FAIL0.FAIL (f % 2 ^ 64) v).setFld VAT_TEST_FAIL1.FAIL (f / 2 ^ 64) v
      (s.setFld VAT_TEST_STAT.BUSY 0 v).setFld VAT_TEST_STAT.DONE 1 v)

/-- `TOPOLOGY_CHECK_TIMEOUT` (19 R586): expected ports are missing when `TOPO_WAIT` has passed. -/
def execTopologyCheckTimeout (s : State) : Host.Outcome State Fault Refusal :=
  .next (if !s.topoRun then s
    else
      let s := (s.topoFields.setFld MC_TOPO_STAT.DONE 1).setFld MC_TOPO_STAT.PASS 0
      State.startFinish (State.fault { s with topoRun := false } { cls := 0x5A, unit := 9, info := s.topoMissing.length }) 2)

end Sys2Proof.Machine
end

