-- ==== Sys2Proof/Machine/Ledger.lean ====
section
/-! DEFINITION. The ledger (02 R60 to R66), and replies that come too late (02 R55). -/

namespace Sys2Proof.Machine

open Sys2Proof

/-! ### Audits (02 R63 to R66) -/

/-- Is a location a router's (01 R25)? -/
def isRouter (n : Nat) : Bool := n < 2 ^ 13 && n / 8 % 16 < 9

/-- Is an instance one of its pool (02 R65)? -/
def poolInst (pool inst : Nat) : Bool :=
  match pool with
  | 0 | 1 | 2 | 3 => inst < 2 ^ 15 && isRouter (inst % 2 ^ 13)
  | 4 => isRouter inst
  | 5 => inst ≤ 58
  | 6 => inst < 64
  | 7 => inst < 256
  | 8 => inst < 16384
  | 9 => inst < 64
  | 10 => inst < 128
  | 11 => inst < 8
  | 12 => inst < 6
  | 13 => inst < 48
  | 14 => inst = 0
  | _ => false

/-- Is the unit of an instance supplied (02 R63)? -/
def State.poolPowered (s : State) (pool inst : Nat) : Bool :=
  match pool with
  | 5 => if inst < 8 then s.domOn (64 + inst) else if inst < 56 then s.domOn (72 + (inst - 8) / 12)
    else s.domOn (if inst = 56 then 77 else if inst = 57 then 78 else 79)
  | 6 => s.vatOn inst
  | 7 => s.vatOn (inst / 4)
  | 8 => s.vatOn (inst / 256)
  | 9 => s.vatOn inst
  | 11 => s.domOn (64 + inst)
  | 12 => s.domOn 76
  | 13 => s.domOn (72 + inst / 12)
  | 14 => s.domOn 78
  | _ => true

/-- `LEDGER_AUDIT_START` (02 R63, 19 R566): audits run from phase 3 of a start on. -/
def execLedgerAuditStart (s : State) : Host.Outcome State Fault Refusal :=
  .next (if !s.domOn 77 ∨ s.audit.isSome then s
    else { s with audit := some { test := s.ledgerTest }, ledgerTest := none, rebased := [] })

/-- Add a unit's report to its instance. -/
def addReport (rs : List ((Nat × Nat) × Int)) (k : Nat × Nat) (d : Int) : List ((Nat × Nat) × Int) :=
  match rs with
  | [] => [(k, d)]
  | e :: es => if e.1 = k then (k, e.2 + d) :: es else e :: addReport es k d

/-- `LEDGER_MARKER_PASS` (02 R63): a unit reports what it counted of an instance, less its share of the base. -/
def execLedgerMarkerPass (pool : Fin 15) (inst : BitVec 16) (diff : Int) (s : State) : Host.Outcome State Fault Refusal :=
  .next (match s.audit with
    | none => s
    | some a => if poolInst pool inst.toNat ∧ s.poolPowered pool inst.toNat then
        { s with audit := some { a with reports := addReport a.reports (pool.val, inst.toNat) diff } }
      else s)

/-- A difference as 32 bits, held at its bounds (12 R391). -/
def satDiff (d : Int) : Nat := if 2 ^ 31 ≤ d then 2 ^ 31 - 1 else if d < -(2 ^ 31) then 2 ^ 31 else (d + 2 ^ 32).toNat % 2 ^ 32

/-- `LEDGER_MISMATCH` (02 R64): the first after power-on of `PD_AON` is recorded. -/
def State.ledgerMismatch (s : State) (k : Nat × Nat) (d : Int) : State :=
  let w := k.1 + k.2 * 2 ^ 4 + satDiff d * 2 ^ 20 + s.fld MC_LEDGER_AUDITS.COUNT % 2 ^ 12 * 2 ^ 52
  let s := if s.bit MC_LEDGER_STAT.MISMATCH then s else s.setReg MC_LEDGER_REC (BitVec.ofNat 64 w)
  (s.setFld MC_LEDGER_STAT.MISMATCH 1).goFatal 1 { cls := 9, unit := 0x0B, info := bvBits (s.reg MC_LEDGER_REC) 0 32 }

/-- The end of a self-test (02 R66). -/
def State.ledgerResult (s : State) (found : Bool) : State :=
  let s := s.setFld MC_LEDGER_STAT.BUSY 0
  if found then s.setFld MC_LEDGER_STAT.TEST_PASS 1 else (s.setFld MC_LEDGER_STAT.TEST_FAIL 1).dicLatch 194

/-- `LEDGER_COMPARE` (02 R62 to R66). -/
def execLedgerCompare (s : State) : Host.Outcome State Fault Refusal :=
  .next (match s.audit with
    | none => s
    | some a =>
      let rs := a.reports.filter (fun e => !s.excluded.contains e.1 && !s.rebased.contains e.1)
      let s : State := match rs.find? (fun e => e.2 ≠ 0) with
        | some (k, d) => s.ledgerMismatch k d
        | none => s
      let s := match a.test with
        | some t => s.ledgerResult (rs.any (fun e => e.1 = (t, 0) && e.2 + 1 ≠ 0))
        | none => s
      let (s, wrapped) := s.bumpRaw MC_LEDGER_AUDITS 0 0 0
      let s := if wrapped then s.dicLatch 194 else s
      { s with audit := none, rebased := [] })

/-- `LEDGER_TEST_GO` (02 R66): a write of `MC_LEDGER_CTL`. -/
def execLedgerTestGo (data : Word) (s : State) : Host.Outcome State Fault Refusal :=
  let pool := bvBits data 4 4
  let s := s.setFld MC_LEDGER_CTL.TEST_POOL pool
  .next (if !data.getLsbD 0 then s
    else if s.bit MC_LEDGER_STAT.BUSY ∨ pool = 15 then s.setFld MC_LEDGER_STAT.TEST_REJ 1
    else State.setFld { s with ledgerTest := some pool } MC_LEDGER_STAT.BUSY 1)

/-! ### Late replies (02 R55) -/

/-- Does a requester wait for a reply of a tag? -/
def State.awaits (s : State) (a : Agent) (tag : Nat) : Bool :=
  match a with
  | .core c =>
    let x := s.core c
    if tag < 16 then (s.core (s.leader c)).blk.any (fun b => b.waits.contains tag)
    else x.outst.any (fun o => 16 + o.tag = tag) || x.pref.any (fun e => prefTag e.1 = tag)
  | .ladle v l => (s.ladle v l).act.any (fun d => d.rd.any (fun e => e.1 = tag) || d.wrs.any (fun w => w.1 = tag))
  | .churn v => (s.churn v).run.any (fun r => match r.wait with
    | some (.ld _) => true
    | some .st => true
    | _ => false)
  | .redEntry v e l => (s.redLane v e l).out.any (fun o => o.1 = tag)
  | .specUnit v => (s.spec v).outs.any (fun o => o.1 = tag) || (s.spec v).rb.any (fun o => o.1 = tag)
  | .walker k => s.walks.any (fun w => w.walker = k && w.tag = tag)
  | .faultRing p => (s.ringFirst p).any (fun r => r.tag = some tag)
  | .site n => (s.site n).reqs.any (fun e => e.left.contains tag)
  | .fabric .. => true
  | .vatUnit _ => true
  | .migration => true
  | .ring _ => true
  | .host => true
  | .mgmt => true
  | .rind => true
  | .twin => true

/-- `LATE_REPLY_DISCARD` (02 R55). -/
def execLateReplyDiscard (dst : Agent) (tag : Nat) (res : Reply) (s : State) : Host.Outcome State Fault Refusal :=
  .next (if s.awaits dst tag then s
    else
      let s := s.recvMsg (.reply dst tag res)
      { s with late := s.late + 1, reasons := s.reasons.filter (fun e => !(e.1 = dst && e.2.1 = tag)) })

end Sys2Proof.Machine
end

