-- ==== Sys2Proof/Machine/Sideband.lean ====
section
/-! DEFINITION. The sideband targets and the IEEE 1149.1 port (22 R653, R654, R656, 21 R635). Their pins are supplied by
`VAUX`, so that nothing answers without it (22 R644). -/

namespace Sys2Proof.Machine

open Sys2Proof

/-! ### The sideband targets (22 R654) -/

/-- The registers that a sideband read reaches. -/
def sbRegs : List Reg := [MC_BOOT_STAT, MC_ERR_STAT, PWR_EVT, PWR_MEAS, PWR_TRIP_REC, PWR_SENS]

/-- The register that a sideband read of an offset reaches. -/
def sbFind (off : Nat) : Option RegAt :=
  match regFind off with
  | some r => if sbRegs.contains r.reg ∧ r.byte = 0 then some r else none
  | none => none

/-- Does a sideband read find its register's domain on? `PWR` lies in `PD_AON`, the two `MC` registers in `PD_MC`. -/
def State.sbOn (s : State) (r : RegAt) : Bool := 0x300000 ≤ r.reg.base || s.domOn 78

/-- The bytes of a size. -/
def sbBytes : SbSize → Nat
  | .four => 4
  | .eight => 8

/-- `SIDEBAND_READ` (22 R654): `PEAK` of a sensor is cleared by the read (00 R13, log 31). A read of another size than the
register's has no stated value: a free value (log 3). -/
def execSidebandRead (off : Word) (size : SbSize) (s : State) : Host.Outcome State Fault Refusal :=
  .next (if !s.sup.aux then s
    else match sbFind off.toNat with
      | none => { s with sbRsp := .data 0 }
      | some r =>
        if !s.sbOn r then { s with sbRsp := .data 0 }
        else if sbBytes size * 8 ≠ r.reg.width then { s.drawn with sbRsp := .data (Config.freeDword s.free) }
        else
          let x := s.reg r.reg r.i r.j r.k
          State.when { s with sbRsp := .data x } (r.reg = PWR_SENS) (fun s => s.setFld PWR_SENS.PEAK 0 r.i))

/-- `SIDEBAND_WRITE` (22 R654): only `MC_BOOT_CTL` is reached. -/
def execSidebandWrite (off data : Word) (s : State) : Host.Outcome State Fault Refusal :=
  .next (if !s.sup.aux then s
    else if off.toNat = MC_BOOT_CTL.base then { s.bootCtl data.toNat with sbRsp := .ack }
    else { s with sbRsp := .nak })

/-! ### The IEEE 1149.1 port (22 R656) -/

/-- Select a path. The bypass register captures 0, as IEEE 1149.1 has it (log 31), `IDCODE` the identification; what
another path captures is no state of this device: a free value (log 3). -/
def State.jtagTo (s : State) (p : JtagPath) : State :=
  match p with
  | .bypass => { s with jtag := p, jtagDr := 0 }
  | .idcode => { s with jtag := p, jtagDr := 0x1409656F }
  | _ => { s.drawn with jtag := p, jtagDr := (Config.freeDword s.free).setWidth 32 }

/-- An instruction of the port, if it is permitted; else it acts as `BYPASS`. -/
def State.jtagInsn (s : State) (permitted : Bool) (p : JtagPath) : State :=
  if !s.sup.aux then s else s.jtagTo (if permitted then p else .bypass)

/-- `EXTEST` (21 R635): permitted while `RESULT` is `FAILED` or `READY_UNCONF`. -/
def execExtest (s : State) : Host.Outcome State Fault Refusal :=
  .next (s.jtagInsn (s.fld MC_BOOT_STAT.RESULT = 5 || s.fld MC_BOOT_STAT.RESULT = 3) (.boundary true))

/-- `IDCODE`. -/
def execIdcode (s : State) : Host.Outcome State Fault Refusal := .next (s.jtagInsn true .idcode)

/-- `SAMPLE/PRELOAD`. -/
def execSamplePreload (s : State) : Host.Outcome State Fault Refusal := .next (s.jtagInsn true (.boundary false))

/-- `FACE_SEL` (16 R498). -/
def execFaceSel (n : SiteId) (s : State) : Host.Outcome State Fault Refusal := .next (s.jtagInsn true (.face n))

/-- `DIE_WRAP`: only while debug is unlocked, as the two below (21 R635). -/
def execDieWrap (s : State) : Host.Outcome State Fault Refusal := .next (s.jtagInsn (s.bit RIND_STAT.DEBUG) .wrapper)

/-- `IJTAG`. -/
def execIjtag (s : State) : Host.Outcome State Fault Refusal := .next (s.jtagInsn (s.bit RIND_STAT.DEBUG) .network)

/-- `MC_DEBUG`. -/
def execMcDebug (s : State) : Host.Outcome State Fault Refusal := .next (s.jtagInsn (s.bit RIND_STAT.DEBUG) .debug)

/-- `BYPASS`: code 0xFF and every reserved code. A code that another instruction has is not this command's. -/
def execBypass (code : BitVec 8) (s : State) : Host.Outcome State Fault Refusal :=
  let c := code.toNat
  .next (if c ≤ 2 ∨ (8 ≤ c ∧ c ≤ 13) ∨ c = 0x10 ∨ c = 0x20 ∨ c = 0x21 then s else s.jtagInsn true .bypass)

end Sys2Proof.Machine
end

