-- ==== Sys2Proof/Machine/Registers.lean ====
section
/-! DEFINITION. Accesses to register space (00 R12 to R16, 01 R40, R41, 13 R392): who may make them, what a write of each
register does, what a read of each returns, and the BARs of the host (16 R503, R504, R517). -/

namespace Sys2Proof.Machine

open Sys2Proof

/-! ### Who may access (01 R41, 13 R392, 15 R471, 16 R492) -/

/-- May a requester access an offset? -/
def State.regMay (s : State) (a : Agent) (off : Nat) (write : Bool) : Bool :=
  match a with
  | .mgmt | .host => true
  | .rind | .twin | .walker _ | .migration | .faultRing _ | .fabric .. => false
  | _ => match s.agentPart a with
    | some p => s.mapped p off write
    | none => match a with
      | .ladle .. => true
      | _ => false

/-- The 64 KiB page of a vat's block that an offset lies in. -/
def vatPage (off : Nat) : Option (Nat × Nat) :=
  if 0x1000000 ≤ off ∧ off < 0x5000000 then some ((off - 0x1000000) / 0x100000, off / 0x10000 % 16) else none

/-- Does a register lie in a part that is not powered (18 R539)? It reads as zero and takes no write (log 31). -/
def State.regDark (s : State) (off : Nat) : Bool :=
  if off < 0x300000 then !s.domOn 78
  else if off < 0x400000 then false
  else if off < 0x800000 then !s.domOn (72 + (off - 0x400000) / 0x10000 / 12)
  else if off < 0xA00000 then !s.domOn (64 + (off - 0x800000) / 0x40000)
  else if off < 0xC00000 then !s.domOn 78
  else if off < 0xD00000 then !s.domOn 76 && off % 0x10000 ≠ 0
  else if off < 0xE00000 then !s.domOn 77
  else if off < 0x1000000 then !s.domOn 78
  else match vatPage off with
    | some (v, p) => p ≠ 5 && !s.vatOn v
    | none => true

/-- Is an access withheld by a vat's reset (06 R219 phase 1)? The units of these pages are being reset. -/
def State.regHeld (s : State) (off : Nat) : Bool :=
  match vatPage off with
  | some (v, p) => s.vatOn v && s.bit VAT_STAT.RESETTING v && [1, 2, 3, 4, 6, 8, 9].contains p
  | none => false

/-- Does an access find nothing: the test page for other requesters than the management core (19 R593), the speculation
page of a vat that is no anchor (08 R295)? -/
def State.regHidden (s : State) (a : Agent) (off : Nat) : Bool :=
  match vatPage off with
  | some (v, p) => (p = 10 && a ≠ .mgmt) || (p = 6 && !s.hasSpec v)
  | none => false

/-! ### Writes of the vats' registers -/

/-- What a write of a register does: nothing while it is withheld. -/
abbrev WrAct := State → Agent → RegAt → Dword → Option State

/-- A write that is the whole of one command's effect. -/
def wr (f : RegAt → Dword → State → Host.Outcome State Fault Refusal) : WrAct := fun s _ r d => some (after (f r d s) s)

/-- Commands one after the other, each for a bit that is set. -/
def wrBits (d : Dword) (s : State) (acts : List (Nat × (State → Host.Outcome State Fault Refusal))) : State :=
  acts.foldl (fun s a => if d.getLsbD a.1 then after (a.2 s) s else s) s

def RegAt.vat (r : RegAt) : VatId := Fin.ofNat 64 r.i
def RegAt.tally (r : RegAt) : TallyId := BitVec.ofNat 14 (256 * r.i + r.j)
def RegAt.ladle (r : RegAt) : LadleIx := Fin.ofNat 4 r.j

/-- `VAT_TASK_CTL` (06 R192). -/
def wrTaskCtl : WrAct := fun s _ r d =>
  let k : SlotIx := Fin.ofNat 256 r.j
  match bvBits d 8 3 with
  | 0 => some s
  | 1 => some (after (execTaskLoad r.vat k s) s)
  | 2 => some (after (execTaskReady r.vat k s) s)
  | 3 => some (after (execTaskCancel r.vat k s) s)
  | 4 => some (after (execTaskRelease r.vat k s) s)
  | _ => some (after (execTaskCmdReserved r.vat k s) s)

/-- `VAT_CHURN_CALL` (06 R209): a full queue withholds the acknowledge. -/
def wrChurnCall : WrAct := fun s _ r d =>
  if s.accepts r.i ∧ !s.invFull r.i then some (after (execChurnCallWrite r.vat d s) s) else none

/-- `VAT_LADLE_STG` (06 R216). -/
def wrLadleStg : WrAct := fun s a r d =>
  match r.k with
  | 0 => some (after (execLadleStageStart r.vat r.ladle d s) s)
  | 7 => if s.accepts r.i then some (after (execLadleStageCommit r.vat r.ladle d (a = .mgmt || a = .host) s) s) else none
  | k => some (after (execLadleStageWord r.vat r.ladle (Fin.ofNat 8 k) d s) s)

/-- `VAT_SPEC_CTL` (08 R295): bits [7:0] that change nothing are no configuration write (log 31). -/
def wrSpecCtl : WrAct := fun s _ r d =>
  let v := r.vat
  let x := s.spec v
  let s1 := if bvBits d 0 8 = bvBits (s.reg VAT_SPEC_CTL v) 0 8 then s else after (execSpecConfigWrite v 0 d s) s
  let x8 := bvBits d 8 3
  if x8 = 0 then some s1
  else if !s.accepts v ∨ x.busy.isSome ∨ s.signBlocked v 128 ∨ (d.getLsbD 8 ∧ (x.todo ≠ [] ∨ x.outs ≠ [] ∨ x.rb.isSome)) then none
  else some (wrBits d s1 [(8, execSpecCtlStart v), (9, execSpecCtlStop v), (10, execSpecCtlClear v)])

/-- `VAT_SPEC_CMD` (08 R267). -/
def wrSpecCmd : WrAct := fun s _ r d =>
  let v := r.vat
  if !s.accepts v ∨ (s.spec v).busy.isSome ∨ s.specCmdHeld v d ∨ s.signBlocked v 128 then none
  else match cmdOp d with
    | 1 => some (after (execSpecOpen v d s) s)
    | 2 => some (after (execSpecToken v d s) s)
    | 3 => some (after (execSpecVerdict v d s) s)
    | 4 => some (after (execSpecEnd v d s) s)
    | _ => some (after (execSpecCmdReserved v d s) s)

/-- The other registers of a speculation unit (08 R295). -/
def wrSpecCfg : WrAct := wr (fun r d => execSpecConfigWrite r.vat (BitVec.ofNat 16 (r.reg.base + 8 * r.j)) d)

/-- `VAT_ECC_INJ` (12 R383): a reserved target or count arms nothing. -/
def wrVatInj : WrAct := fun s _ r d =>
  let ok := bvBits d 1 3 < 6 && (bvBits d 4 2 = 1 || bvBits d 4 2 = 2)
  let s := s.putFields [VAT_ECC_INJ.ARM, VAT_ECC_INJ.TARGET, VAT_ECC_INJ.BITS, VAT_ECC_INJ.CORE] d r.i
  some (if ok then s else s.setFld VAT_ECC_INJ.ARM 0 r.i)

/-- `VAT_TEST_CTL` (19 R593). -/
def wrVatTest : WrAct := fun s _ r d =>
  some (wrBits d (s.putFields [VAT_TEST_CTL.TO] d r.i) [(0, execVatTestGoS r.vat), (1, execVatTestGoF r.vat)])

/-- The writes of `VAT` registers that do more than set fields. -/
def wrVat : List (Reg × WrAct) := [
  (VAT_RESET, fun s _ r d => some (wrBits d s [(0, execVatReset r.vat)])),
  (VAT_TASK_DESC, wr (fun r d => execTaskDescWrite r.vat (Fin.ofNat 256 r.j) false d)),
  (VAT_TASK_ARG, wr (fun r d => execTaskDescWrite r.vat (Fin.ofNat 256 r.j) true d)),
  (VAT_TASK_CTL, wrTaskCtl),
  (VAT_TALLY_CNT, wr (fun r d => execTallyCntWrite r.tally (d.setWidth 32))),
  (VAT_TALLY_THR, wr (fun r d => execTallyThrWrite r.tally (d.setWidth 32))),
  (VAT_TALLY_STEP, wr (fun r d => execTallyStepWrite r.tally (d.setWidth 32))),
  (VAT_CHURN_CALL, wrChurnCall),
  (VAT_CHURN_SEED, wr (fun r d => execChurnSeedWrite r.vat (d.setWidth 32))),
  (VAT_CHURN_RSEED, wr (fun r d => execChurnRseedWrite r.vat d)),
  (VAT_RED_CFG, wr (fun r d => execRedCfgWrite r.vat (Fin.ofNat 64 r.j) d)),
  (VAT_RED_DST, wr (fun r d => execRedDstWrite r.vat (Fin.ofNat 64 r.j) d)),
  (VAT_RED_XFWD, wr (fun r d => execRedXfwdWrite r.vat (Fin.ofNat 64 r.j) d)),
  (VAT_LADLE_CTL, fun s _ r d => some (wrBits d s [(0, execLadleFlush r.vat r.ladle), (1, execLadleResume r.vat r.ladle)])),
  (VAT_LADLE_STG, wrLadleStg),
  (VAT_NET_DTAB, fun s a r d => some (after (execDtabWrite r.vat (Fin.ofNat 4096 r.j) (d.setWidth 32) (a = .mgmt) s) s)),
  (VAT_SPEC_CTL, wrSpecCtl),
  (VAT_SPEC_CMD, wrSpecCmd),
  (VAT_SPEC_CONS, wr (fun r d => execSpecConsWrite r.vat (d.setWidth 32)))]
  ++ [VAT_SPEC_SEED, VAT_SPEC_SAMP, VAT_SPEC_PLEN, VAT_SPEC_TALLY, VAT_SPEC_DBUF, VAT_SPEC_BTAB, VAT_SPEC_BCFG, VAT_SPEC_POOLC,
      VAT_SPEC_POOLH, VAT_SPEC_POOLN, VAT_SPEC_RING, VAT_SPEC_LEAD, VAT_SPEC_FOLLOW].map (fun r => (r, wrSpecCfg))
  ++ [
  (VAT_CRM_REG, wr (fun r d => execCreamRegulatorWrite r.vat (Fin.ofNat 8 r.j) d)),
  (VAT_ECC_INJ, wrVatInj),
  (VAT_EV_DBELL, wr (fun r d => execVatEvDbellWrite r.vat (d.setWidth 32))),
  (VAT_TEST_CTL, wrVatTest)]

/-! ### Writes of the memories' registers -/

def RegAt.chan (r : RegAt) : ChanId := Fin.ofNat 128 (16 * r.i + r.j)
def RegAt.cel (r : RegAt) : CelId := Fin.ofNat 8 r.i

/-- `CRK_TG_CTL` (10 R339): what an abort leaves is told by the abort's own command. -/
def wrCrkTg : WrAct := fun s _ r d =>
  if d.getLsbD 1 ∧ s.bit CRK_TG_STAT.BUSY r.i r.j then none else some (after (execCrkTgGo r.chan d s) s)

/-- `CEL_TG_CTL` (11 R366). -/
def wrCelTg : WrAct := fun s _ r d =>
  if d.getLsbD 1 ∧ s.bit CEL_TG_STAT.BUSY r.i r.j then none else some (after (execCelTgGo r.cel (Fin.ofNat 32 r.j) d s) s)

/-- `CRK_CH_INJ` (12 R381): a write while `ARM` is 1 is ignored, a reserved layer arms nothing. -/
def wrCrkInj : WrAct := fun s _ r d =>
  if s.bit CRK_CH_INJ.ARM r.i r.j then some s
  else
  let s := s.putFields [CRK_CH_INJ.ARM, CRK_CH_INJ.SYM, CRK_CH_INJ.CW, CRK_CH_INJ.XOR, CRK_CH_INJ.ERASE, CRK_CH_INJ.LAYER] d r.i r.j
  some (if bvBits d 32 3 < 5 then s else s.setFld CRK_CH_INJ.ARM 0 r.i r.j)

/-- `CEL_CTL` (11 R360, R365). -/
def wrCelCtl : WrAct := fun s _ r d =>
  some (wrBits d (after (execCelTestWrite r.cel d s) s) [(1, execCellarRetrain r.cel)])

/-- `CEL_REG` (09 R312, 11 R364): setting `EN` sets the level to `BURST`. -/
def wrCelReg : WrAct := fun s _ r d =>
  let was := s.bit CEL_REG.EN r.i r.j
  let t := s.putFields [CEL_REG.PART, CEL_REG.EN, CEL_REG.RATE, CEL_REG.BURST] d r.i r.j
  some (if !was ∧ t.bit CEL_REG.EN r.i r.j then t.setFld CEL_REG.LEVEL (t.fld CEL_REG.BURST r.i r.j) r.i r.j else t)

def wrMem : List (Reg × WrAct) := [
  (CRK_THR, wr (fun r d => execCrkThrWrite (Fin.ofNat 8 r.i) d)),
  (CRK_CH_CTL, wr (fun r d => execCrkChTestWrite r.chan d)),
  (CRK_TG_CTL, wrCrkTg),
  (CRK_CH_INJ, wrCrkInj),
  (CEL_CTL, wrCelCtl),
  (CEL_THR, wr (fun r d => execCelThrWrite r.cel d)),
  (CEL_REG, wrCelReg),
  (CEL_TG_CTL, wrCelTg)]

/-! ### Writes of the links' and the sites' registers -/

def RegAt.port (r : RegAt) : PortId := Fin.ofNat 48 r.i
def RegAt.lane (r : RegAt) : LaneIx := Fin.ofNat 8 r.j
def RegAt.site (r : RegAt) : SiteId := Fin.ofNat 6 r.i

/-- Write a field where its new value lies in a range. -/
def State.putIn (s : State) (f : Fld) (lo hi : Nat) (d : Dword) (i : Nat := 0) (j : Nat := 0) : State :=
  let x := bvBits d f.lo f.width
  if lo ≤ x ∧ x ≤ hi then s.setFld f x i j else s

/-- `LNK_CTL` (14 R445). -/
def wrLnkCtl : WrAct := fun s _ r d =>
  let p := r.port
  let s := wrBits d (after (execLnkLoopWrite p (BitVec.ofNat 2 (bvBits d 4 2)) s) s) [(0, execLnkCtlStart p), (1, execLnkCtlStop p)]
  some (match bvBits d 2 2 with
    | 1 => after (execLpreqShallow p s) s
    | 2 => after (execLpreqDeep p s) s
    | 3 => after (execLpreqWake p s) s
    | _ => s)

/-- `LNK_LN_EYE_CTL` (14 R440): what a running scan counted is told by the abort's own command. -/
def wrEye : WrAct := fun s _ r d =>
  if d.getLsbD 1 ∧ (s.ln r.i r.j).eye.isSome then none else some (after (execEyeScanGo r.port r.lane (d.setWidth 32) s) s)

/-- `LNK_GRP_STAT` (14 R448): one flag for the group, seen at each of its ports. -/
def wrGrpStat : WrAct := fun s _ r d => some (s.when (d.getLsbD 1) (fun s => s.setGrp LNK_GRP_STAT.REF_LOST 0 (r.i / 12)))

/-- `LNK_FAB_CTL` (15 R481). -/
def wrFabCtl : WrAct := fun s _ r d =>
  let p := r.port
  let m := BitVec.ofNat 8 (bvBits d 3 8)
  let s := wrBits d (s.putIn LNK_FAB_CTL.MIN_W 1 8 d p) [(0, execLnkFabRelease p), (1, execLnkFabHold p), (2, execLnkFabRetrain p)]
  some (if m = 0 then s else after (execLnkFabWmask p m s) s)

/-- `FACE_CTL` (16 R518). -/
def wrFaceCtl : WrAct := fun s _ r d =>
  let n := r.site
  let s := (s.putIn FACE_CTL.MIN_SL 1 20 d n).putFields [FACE_CTL.VIOL_LIM] d n
  some (wrBits d s [(0, execFaceCtlStart n), (1, execFaceCtlStop n), (2, execFaceCtlHold n), (3, execFaceCtlRelease n)])

def wrLnk : List (Reg × WrAct) := [
  (LNK_CTL, wrLnkCtl),
  (LNK_CFG, fun s _ r d => some ((s.putIn LNK_CFG.FILL_INT 32 512 d r.i).putFields [LNK_CFG.TX_PRESET, LNK_CFG.UE_LIM] d r.i)),
  (LNK_CAL, fun s _ r d => some (wrBits d s [(0, execLnkCalGo r.port)])),
  (LNK_LN_EYE_CTL, wrEye),
  (LNK_LN_PG, fun s _ r d => some ((s.putIn LNK_LN_PG.MODE 0 3 d r.i r.j).putFields [LNK_LN_PG.GEN_EN, LNK_LN_PG.CHK_EN] d r.i r.j)),
  (LNK_GRP_STAT, wrGrpStat),
  (LNK_FAB_CTL, wrFabCtl),
  (FACE_CTL, wrFaceCtl)]

/-! ### Writes of the device-wide blocks -/

def RegAt.ring (r : RegAt) : RingId := Fin.ofNat 64 r.i
def RegAt.part (r : RegAt) : PartId := Fin.ofNat 64 r.i
def RegAt.dom (r : RegAt) : DomId := Fin.ofNat 80 r.i

/-- The virtual function that a ring's producer is: the requester of a ring stands for its function's accesses. -/
def State.ringWho (s : State) (a : Agent) : Option (Fin 64) :=
  match a with
  | .ring p => (s.part p).map (fun r => Fin.ofNat 64 r.hostFn)
  | _ => none

/-- `CMD_W0` to `CMD_W7` (16 R506). -/
def wrCmd : WrAct := fun s a r d =>
  match r.j with
  | 0 => some (after (execCmdW0Write r.ring d s) s)
  | 7 => some (after (execCmdW7Commit r.ring (s.ringWho a) d s) s)
  | k => some (after (execCmdWordWrite r.ring (Fin.ofNat 6 (k - 1)) d s) s)

/-- `RING_CTL` (16 R509, R511). -/
def wrRingCtl : WrAct := fun s _ r d =>
  let s := wrBits d s [(0, execRingFlush r.ring)]
  some (after (execRingEnableWrite r.ring (d.setWidth 32) s) s)

/-- `PWR_DOM_CTL` (18 R562). -/
def wrDomCtl : WrAct := fun s _ r d =>
  some (match bvBits d 0 2 with
    | 1 => after (execDomainReqOff r.dom s) s
    | 2 => after (execDomainReqOn r.dom s) s
    | 3 => s.bumpErr PWR_ERR.REQ_REJ
    | _ => s)

/-- `PWR_LOOP` (18 R562): ignored where it leaves `BLO` above `BHI`. -/
def wrLoop : WrAct := fun s _ _ d =>
  some (if bvBits d 0 10 < bvBits d 16 10 then s else s.putFields [PWR_LOOP.BHI, PWR_LOOP.BLO] d)

/-- `TWIN_CFG` (20 R612). -/
def wrTwinCfg : WrAct := fun s _ _ d =>
  some (if s.twinState = 1 ∨ s.twinState = 6 ∨ s.twinState = 7 then
      (s.putIn TWIN_CFG.WLOG 6 12 d).putFields [TWIN_CFG.MATCH_T, TWIN_CFG.LOST_T, TWIN_CFG.SYNC_T] d
    else s)

/-- `TWIN_CTL` (20 R612): how an injected test ends is told by its own command. -/
def wrTwinCtl : WrAct := fun s _ _ d => if d.getLsbD 1 then none else some (wrBits d s [(0, execTwinLead)])

/-- `RIND_CTL` (21 R637): how the self-tests end is told by their own command. -/
def wrRind : WrAct := fun s _ _ d => if d.getLsbD 1 then none else some (s.when (d.getLsbD 0) State.rindGo)

def wrDev : List (Reg × WrAct) := [
  (MC_LEDGER_CTL, wr (fun _ d => execLedgerTestGo (d.setWidth 32))),
  (MC_FQ_HEAD, wr (fun _ d => execFqHeadWrite d)),
  (MC_FAB_RT, wr (fun r d => execFabRouteWrite (BitVec.ofNat 14 r.i) d)),
  (MC_BOOT_CTL, wr (fun _ d => execMcBootReset (d.setWidth 32))),
  (XLT_SHOOT, wr (fun _ d => execXltShoot d)),
  (XLT_RESUME, wr (fun _ d => execXltResume d)),
  (XLT_FR_CONS, wr (fun r d => execXltFrConsWrite r.part d)),
  (XLT_FR_CFG, fun s _ r d => some ((s.putIn XLT_FR_CFG.RLOG 6 12 d r.i).putFields [XLT_FR_CFG.EN] d r.i)),
  (XLT_MIG_CFG, fun s _ r d => some (s.putIn XLT_MIG_CFG.MLOG 0 12 d r.i)),
  (XLT_MIG_TAIL, wr (fun r d => execXltMigTailWrite r.part d)),
  (CMD_W, wrCmd),
  (RING_CTL, wrRingCtl),
  (CQ_CONS, wr (fun r d => execCqConsWrite r.ring (d.setWidth 32))),
  (DIC_SRC, wr (fun r d => execDicSrcWrite (Fin.ofNat 256 r.i) d)),
  (DIC_PEND, fun s _ r d => some (s.bankWrite DIC_PEND.PEND (r.i = 1) r.j d)),
  (DIC_MASK, wr (fun r d => execDicMaskWrite (r.i = 1) (Fin.ofNat 4 r.j) d)),
  (DIC_RESAMPLE, wr (fun r d => execDicResample (r.i = 1) (d.setWidth 32))),
  (DIC_COMPLETE, wr (fun r d => execDicComplete (Fin.ofNat 15 r.i) false (d.setWidth 32))),
  (DIC_FCOMPLETE, wr (fun r d => execDicComplete (Fin.ofNat 15 r.i) true (d.setWidth 32))),
  (PWR_DOM_CTL, wrDomCtl),
  (PWR_DOM_SHADOW, fun s a r d => some (if a = .mgmt then after (execPwrDomShadowWrite r.dom (d.setWidth 32) s) s else s)),
  (PWR_LOOP, wrLoop),
  (PWR_THR, fun s _ _ d => some (s.setFld PWR_THR.THROT (min (bvBits d 0 8) 0x5F))),
  (PWR_LIMIT, wr (fun _ d => execPwrLimitWrite (d.setWidth 32))),
  (PWR_SKEW_CFG, fun s _ _ d => some (s.setFld PWR_SKEW_CFG.SKEW_T (max (bvBits d 0 16) 100))),
  (PWR_G_CFG, wr (fun r d => execPwrGCfgWrite (Fin.ofNat 6 r.i) (d.setWidth 32))),
  (PWR_VAT_V, wr (fun r d => execPwrVatVWrite r.vat d)),
  (TWIN_CTL, wrTwinCtl),
  (TWIN_CFG, wrTwinCfg),
  (RIND_CTL, wrRind)]

/-! ### Any write -/

/-- A write that only follows the access codes of the register's fields (00 R13). The management core also writes the
read-only fields that a chapter lets it write. -/
def State.plainWrite (s : State) (a : Agent) (r : RegAt) (d : Dword) : State :=
  r.flds.foldl (fun (s : State) f =>
    let x := bvBits d f.lo f.width
    match f.acc with
    | .rw | .rws => s.setFld f x r.i r.j r.k
    | .rw1c => s.setFld f (s.fld f r.i r.j r.k &&& (2 ^ f.width - 1 ^^^ x)) r.i r.j r.k
    | .ro => if a = .mgmt ∧ r.reg.fw then s.setFld f x r.i r.j r.k else s
    | .wo | .rc => s) s

/-- The registers whose writes do more. -/
def wrTable : List (Reg × WrAct) := wrVat ++ wrMem ++ wrLnk ++ wrDev

/-- Write a register; none while the write is withheld. -/
def State.regDo (s : State) (a : Agent) (r : RegAt) (d : Dword) : Option State :=
  match wrTable.find? (fun e => e.1 = r.reg) with
  | some e => e.2 s a r d
  | none => some (s.plainWrite a r d)

/-! ### Reads -/

/-- A count of a list's entries. -/
def countOf {α : Type} (l : List α) (p : α → Bool) : Nat := (l.filter p).length

/-- `VAT_CORE_STAT` (04 R140): `RUNNING` follows the task of the core's cluster (log 31). -/
def State.coreStat (s : State) (v k : Nat) : Nat :=
  let c := 64 * v + k
  let x := s.core c
  let run : Bool := match (s.core (s.leader c)).task with
    | some t => s.taskState v t = 3
    | none => false
  run.toNat + x.inHandler.toNat * 2 + s.fld VAT_CORE_STAT.CC_INIT v k * 4
    + countOf x.cache (fun e => e.2.valid && e.2.pending) * 2 ^ 4 + x.sb.length * 2 ^ 10

/-- `XLT_WALK_STAT` (13 R412). -/
def State.walkStat (s : State) : Nat :=
  countOf s.walks (fun w => w.stage ≠ .queued) + countOf s.walks (fun w => w.stage = .queued) * 2 ^ 5
    + s.migq.length * 2 ^ 12 + s.mig.isSome.toNat * 2 ^ 19

/-- The registers whose fields follow from the state of their units. -/
def rdTable : List (Reg × (State → RegAt → Dword)) := [
  (VAT_CORE_STAT, fun s r => BitVec.ofNat 64 (s.coreStat r.i r.j)),
  (VAT_CHURN_STAT, fun s r =>
    let x := s.churn r.i
    BitVec.ofNat 64 (x.invq.length + x.run.isSome.toNat * 2 ^ 5 + s.fld VAT_CHURN_STAT.FAULT_PC r.i * 2 ^ 16)),
  (VAT_LADLE_STAT, fun s r => putBits (s.reg VAT_LADLE_STAT r.i r.j) 2 5 (s.ladle r.i r.j).queue.length),
  (XLT_WALK_STAT, fun s _ => BitVec.ofNat 64 s.walkStat),
  (VAT_SPEC_POOLF, fun s r => BitVec.ofNat 64 ((s.specFree r.i).1 % 2 ^ 32 + (s.specFree r.i).2 % 2 ^ 32 * 2 ^ 32)),
  (VAT_EV_STAT, fun s r => BitVec.ofNat 64 (s.vatSum r.i).toNat),
  (TWIN_STAT, fun s _ => s.twinView),
  (DIC_PEND, fun s r => s.bankView DIC_PEND.PEND (r.i = 1) r.j),
  (DIC_MASK, fun s r => s.bankView DIC_MASK.MASK (r.i = 1) r.j),
  (DIC_VIEW, fun s r => s.seenView r.i false r.j),
  (DIC_FVIEW, fun s r => s.seenView r.i true r.j)]

/-- What a read of a register returns. -/
def State.regSee (s : State) (r : RegAt) : Dword :=
  match rdTable.find? (fun e => e.1 = r.reg) with
  | some e => e.2 s r
  | none => s.reg r.reg r.i r.j r.k

/-- Clear the fields that a read clears (00 R13). -/
def State.regClear (s : State) (r : RegAt) : State :=
  r.flds.foldl (fun (s : State) f => if f.acc = .rc then s.setFld f 0 r.i r.j r.k else s) s

/-- Read a register: what it returns, and the state after. A read of a claim address claims (17 R529). -/
def State.regLook (s : State) (r : RegAt) : Dword × State :=
  if r.reg = DIC_CLAIM ∨ r.reg = DIC_FCLAIM then
    let s := after (execDicClaim (Fin.ofNat 15 r.i) (r.reg = DIC_FCLAIM) (Fin.ofNat 256 r.j) s) s
    (s.reg r.reg r.i r.j, s)
  else (s.regSee r, s.regClear r)

/-! ### Accesses and their answers -/

/-- Answer an access. The host's answer counts what it would report as an error (16 R503). -/
def State.regAnswer (s : State) (a : Agent) (tag : Nat) (write : Bool) (r : Reply) : State :=
  match a with
  | .mgmt => { s with mgmtRsp := some r }
  | .host => match r with
    | .word w => { s with hostRsp := .data w }
    | .busError => State.bumpErr { s with hostRsp := if write then .dropped else .completerAbort } HOST_ERR0.BAD_REQ
    | _ => { s with hostRsp := .written }
  | _ => s.send (.reply a tag r)

/-- The offset of a global address within register space (01 R35, R40). -/
def regOffset (ga : Dword) : Option Nat :=
  if 0x430000000 ≤ ga.toNat ∧ ga.toNat < 0x440000000 then some (ga.toNat - 0x430000000) else none

/-- A write of register space at an offset: its effect and its answer, or none while it is withheld. -/
def State.regStore (s : State) (a : Agent) (off size : Nat) (d : Dword) : Option (State × Reply) :=
  if !s.regMay a off true then some (s, .busError)
  else match s.regHit off size with
    | .error => some (s, .busError)
    | .empty => some (s, .done)
    | .at r =>
      let o := regAlias off
      if s.regDark o ∨ s.regHidden a o then some (s, .done)
      else if s.regHeld o then none
      else (s.regDo a r (if size = 4 then BitVec.ofNat 64 (bvBits d 0 32) else d)).map (fun s => (s, .done))

/-- A read of register space at an offset. -/
def State.regLoad (s : State) (a : Agent) (off size : Nat) : Option (State × Reply) :=
  if !s.regMay a off false then some (s, .busError)
  else match s.regHit off size with
    | .error => some (s, .busError)
    | .empty => some (s, .word 0)
    | .at r =>
      let o := regAlias off
      if s.regDark o ∨ s.regHidden a o then some (s, .word 0)
      else if s.regHeld o then none
      else
        let (w, s) := s.regLook r
        some (s, .word w)

/-- `REGISTER_WRITE` (00 R12 to R16, 01 R41). -/
def execRegisterWrite (src : Agent) (tag : Nat) (ga : Dword) (size : Nat) (data : Dword) (s : State) :
    Host.Outcome State Fault Refusal :=
  .next (match regOffset ga with
    | none => s
    | some off => match s.regStore src off size data with
      | none => s
      | some (t, r) => (t.recvMsg (.req src tag ga (.regWrite size data))).regAnswer src tag true r)

/-- `READ_CLEAR_REGISTER_READ` (00 R13): a read of a register. -/
def execReadClearRegisterRead (src : Agent) (tag : Nat) (ga : Dword) (size : Nat) (s : State) :
    Host.Outcome State Fault Refusal :=
  .next (match regOffset ga with
    | none => s
    | some off => match s.regLoad src off size with
      | none => s
      | some (t, r) => (t.recvMsg (.req src tag ga (.regRead size))).regAnswer src tag false r)

/-! ### The host's BARs (16 R502 to R504, R506, R517) -/

/-- Where an access through a BAR leads: the requester it acts as with an offset in register space, an MSI-X entry with
its vector (none for one that the function does not own or that is masked for good), nothing that answers, or outside
every BAR. -/
inductive BarTo where
  | reg (a : Agent) (off : Nat)
  | entry (v : Option Nat)
  | refused
  | outside
  deriving DecidableEq, Repr

/-- The ring pages' offset (16 R520). -/
def ringPage : Nat := 0xD40000

/-- Put an entry in its place among entries in ascending order. -/
def insertPage (e : RegmapRec) : List RegmapRec → List RegmapRec
  | [] => [e]
  | x :: xs => if e.offset ≤ x.offset then e :: x :: xs else x :: insertPage e xs

/-- The pages of register space that a partition may reach, in ascending order (16 R503). -/
def State.vfPages (s : State) (p : Nat) : List RegmapRec :=
  (s.img.regmap.filter (fun e => e.part = p)).foldr insertPage []

/-- Resolve an access through a BAR. -/
def State.barTo (s : State) (fn : Nat) (bar : HostBar) (off : Nat) (write : Bool) : BarTo :=
  if fn = 0 then
    match bar with
    | .bar0 => if off < 0x10000000 then .reg .host off else .outside
    | .bar2 => if off < 0x40000 then .reg .host (ringPage + off) else .outside
    | .msix => if off < 2048 * 16 then .entry (if s.vecFn (off / 16) = 0 then some (off / 16) else none) else .outside
  else
    match bar with
    | .bar0 =>
      if 0x1000000 ≤ off then .outside
      else match s.vfPart fn with
        | none => .refused
        | some p => match (s.vfPages p)[off / 0x10000]? with
          | none => .refused
          | some e => if write ∧ !e.rw then .refused else .reg (.ring p) (e.offset + off % 0x10000)
    | .bar2 =>
      if 0x1000 ≤ off then .outside
      else match s.vfPart fn with
        | none => .refused
        | some p => .reg (.ring p) (ringPage + 0x1000 * p + off)
    | .msix =>
      match (s.vfPart fn).bind s.part with
      | none => .refused
      | some r =>
        if off < max 1 r.msixCount * 16 then .entry (if off / 16 < r.msixCount then some (r.msixBase + off / 16) else none)
        else .outside

/-- A dword of an MSI-X entry: address in two, data, mask. -/
def Msix.dword (x : Msix) (i : Nat) : Nat :=
  match i with
  | 0 => x.addr.toNat % 2 ^ 32
  | 1 => x.addr.toNat / 2 ^ 32
  | 2 => x.data.toNat
  | _ => x.masked.toNat

/-- Write a dword of an MSI-X entry. -/
def Msix.put (x : Msix) (i d : Nat) : Msix :=
  match i with
  | 0 => { x with addr := BitVec.ofNat 64 (x.addr.toNat / 2 ^ 32 * 2 ^ 32 + d % 2 ^ 32) }
  | 1 => { x with addr := BitVec.ofNat 64 (x.addr.toNat % 2 ^ 32 + d % 2 ^ 32 * 2 ^ 32) }
  | 2 => { x with data := BitVec.ofNat 32 d }
  | _ => { x with masked := d % 2 = 1 }

/-- A register access for a function: a virtual function's is served as one of its partition's ring page or of a page
that the partition maps. -/
def State.barRead (s : State) (a : Agent) (off size : Nat) : Option (State × Reply) :=
  match a with
  | .ring _ => match s.regHit off size with
    | .at r => if s.regDark (regAlias off) ∨ s.regHidden a off then some (s, .word 0)
      else if s.regHeld off then none
      else
        let (w, s) := s.regLook r
        some (s, .word w)
    | .empty => some (s, .word 0)
    | .error => some (s, .busError)
  | _ => s.regLoad a off size

/-- The same for a write. -/
def State.barWrite (s : State) (a : Agent) (off size : Nat) (d : Dword) : Option (State × Reply) :=
  match a with
  | .ring _ => match s.regHit off size with
    | .at r => if s.regDark (regAlias off) ∨ s.regHidden a off then some (s, .done)
      else if s.regHeld off then none
      else (s.regDo a r (if size = 4 then BitVec.ofNat 64 (bvBits d 0 32) else d)).map (fun s => (s, .done))
    | .empty => some (s, .done)
    | .error => some (s, .busError)
  | _ => s.regStore a off size d

/-- One request of the host, once the endpoint serves (19 R568). -/
def State.hostReq (s : State) (fn : Nat) (req : HostReq) : State :=
  let bad := fun (r : HostRsp) => State.bumpErr { s with hostRsp := r } HOST_ERR0.BAD_REQ
  let put := fun (write : Bool) (o : Option (State × Reply)) => match o with
    | none => s
    | some (t, r) => t.regAnswer .host 0 write r
  match req with
  | .unsupported => bad .unsupported
  | .malformed => bad .dropped
  | .read bar off size => match s.barTo fn bar off false with
    | .outside => bad .unsupported
    | .refused => bad .completerAbort
    | .reg a o => put false (s.barRead a o size)
    | .entry v =>
      if !(size = 4 ∨ size = 8) ∨ off % size ≠ 0 then bad .completerAbort
      else
        let x : Msix := match v with
          | some v => s.vector v
          | none => { masked := fn ≠ 0 }
        let i := off % 16 / 4
        { s with hostRsp := .data (BitVec.ofNat 64 (x.dword i + (if size = 8 then x.dword (i + 1) * 2 ^ 32 else 0))) }
  | .write bar off size d poisoned => match s.barTo fn bar off true with
    | .outside => bad .unsupported
    | .refused => bad .dropped
    | t =>
      if poisoned then State.bumpErr { s with hostRsp := .dropped } HOST_ERR1.POISON
      else match t with
        | .reg a o => put true (s.barWrite a o size d)
        | .entry v =>
          if !(size = 4 ∨ size = 8) ∨ off % size ≠ 0 then bad .dropped
          else
            let s : State := { s with hostRsp := .written }
            match v with
            | none => s
            | some v =>
              let i := off % 16 / 4
              let x := (s.vector v).put i (bvBits d 0 32)
              s.vectorWrite v (if size = 8 then x.put (i + 1) (bvBits d 32 32) else x)
        | _ => s

/-- `HOST_BAR_ACCESS` (16 R503, R504, R506, R517): no function is reached before the endpoint serves, or while the link is
down. -/
def execHostBarAccess (fn : Fin 64) (req : HostReq) (s : State) : Host.Outcome State Fault Refusal :=
  .next (if !s.domOn 77 ∨ !s.bit HOST_STAT.DL_UP then s else (s.bump HOST_PC_RXREQ).hostReq fn req)

end Sys2Proof.Machine
end

