-- ==== Sys2Proof/Machine/Dispatch.lean ====
section
/-! DEFINITION. The dispatch of the block: one arm per command, each one direct call of its meaning. -/

namespace Sys2Proof.Machine

open Sys2Proof

def exec (i : Instr) (s : State) : Host.Outcome State Fault Refusal :=
  match i with
  | .registerWrite src tag ga size data => Sys2Proof.Machine.execRegisterWrite src tag ga size data s
  | .readClearRegisterRead src tag ga size => Sys2Proof.Machine.execReadClearRegisterRead src tag ga size s
  | .lateReplyDiscard dst tag res => Sys2Proof.Machine.execLateReplyDiscard dst tag res s
  | .ledgerAuditStart => Sys2Proof.Machine.execLedgerAuditStart s
  | .ledgerMarkerPass pool inst diff => Sys2Proof.Machine.execLedgerMarkerPass pool inst diff s
  | .ledgerCompare => Sys2Proof.Machine.execLedgerCompare s
  | .ledgerTestGo data => Sys2Proof.Machine.execLedgerTestGo data s
  | .mcQueueNext img unitFail => Sys2Proof.Machine.execMcQueueNext img unitFail s
  | .reloadCancelTimeout => Sys2Proof.Machine.execReloadCancelTimeout s
  | .undefinedOpcode c w => Sys2Proof.Machine.execUndefinedOpcode c w s
  | .alu c r fn => Sys2Proof.Machine.execAlu c r fn s
  | .addi c a => Sys2Proof.Machine.execAddi c a s
  | .andi c a => Sys2Proof.Machine.execAndi c a s
  | .ori c a => Sys2Proof.Machine.execOri c a s
  | .shi c a => Sys2Proof.Machine.execShi c a s
  | .lui c a => Sys2Proof.Machine.execLui c a s
  | .div c r fn => Sys2Proof.Machine.execDiv c r fn s
  | .divComplete c => Sys2Proof.Machine.execDivComplete c s
  | .lw c a => Sys2Proof.Machine.execLw c a s
  | .sw c a => Sys2Proof.Machine.execSw c a s
  | .lsub c r fn => Sys2Proof.Machine.execLsub c r fn s
  | .fld c a parity => Sys2Proof.Machine.execFld c a parity s
  | .fst c a => Sys2Proof.Machine.execFst c a s
  | .vld c vr a => Sys2Proof.Machine.execVld c vr a s
  | .vst c vr a => Sys2Proof.Machine.execVst c vr a s
  | .vldf c vr a parity => Sys2Proof.Machine.execVldf c vr a parity s
  | .vstf c vr a => Sys2Proof.Machine.execVstf c vr a s
  | .cachePref c a => Sys2Proof.Machine.execCachePref c a s
  | .cacheZero c a => Sys2Proof.Machine.execCacheZero c a s
  | .cacheInvl c a => Sys2Proof.Machine.execCacheInvl c a s
  | .cacheInvall c a => Sys2Proof.Machine.execCacheInvall c a s
  | .branch c op rs1 rs2 off => Sys2Proof.Machine.execBranch c op rs1 rs2 off s
  | .jal c off => Sys2Proof.Machine.execJal c off s
  | .jalr c a => Sys2Proof.Machine.execJalr c a s
  | .valu c v => Sys2Proof.Machine.execValu c v s
  | .vfp c v => Sys2Proof.Machine.execVfp c v s
  | .vmov c v => Sys2Proof.Machine.execVmov c v s
  | .vperm c v => Sys2Proof.Machine.execVperm c v s
  | .vcmp c v => Sys2Proof.Machine.execVcmp c v s
  | .dot c d => Sys2Proof.Machine.execDot c d s
  | .dotP c d => Sys2Proof.Machine.execDotP c d s
  | .dotmx c x => Sys2Proof.Machine.execDotmx c x s
  | .accClr c d => Sys2Proof.Machine.execAccClr c d s
  | .accRd c d => Sys2Proof.Machine.execAccRd c d s
  | .accRdc c d => Sys2Proof.Machine.execAccRdc c d s
  | .accAddv c d => Sys2Proof.Machine.execAccAddv c d s
  | .accPart c d => Sys2Proof.Machine.execAccPart c d s
  | .cvt c v => Sys2Proof.Machine.execCvt c v s
  | .send c r => Sys2Proof.Machine.execSend c r s
  | .sendu c r => Sys2Proof.Machine.execSendu c r s
  | .dbell c r => Sys2Proof.Machine.execDbell c r s
  | .recv c r => Sys2Proof.Machine.execRecv c r s
  | .recvnb c r => Sys2Proof.Machine.execRecvnb c r s
  | .tinc c r => Sys2Proof.Machine.execTinc c r s
  | .twait c r => Sys2Proof.Machine.execTwait c r s
  | .trd c r => Sys2Proof.Machine.execTrd c r s
  | .tsett c r => Sys2Proof.Machine.execTsett c r s
  | .lsubmit c r => Sys2Proof.Machine.execLsubmit c r s
  | .atom c r fn => Sys2Proof.Machine.execAtom c r fn s
  | .acas c r => Sys2Proof.Machine.execAcas c r s
  | .csr c a => Sys2Proof.Machine.execCsr c a s
  | .syncI c r => Sys2Proof.Machine.execSyncI c r s
  | .fence c r => Sys2Proof.Machine.execFence c r s
  | .yield c r => Sys2Proof.Machine.execYield c r s
  | .wfe c r => Sys2Proof.Machine.execWfe c r s
  | .trap c r => Sys2Proof.Machine.execTrap c r s
  | .rdtsc c r lag => Sys2Proof.Machine.execRdtsc c r lag s
  | .halt c r => Sys2Proof.Machine.execHalt c r s
  | .tret c r => Sys2Proof.Machine.execTret c r s
  | .farLoadReply c member res => Sys2Proof.Machine.execFarLoadReply c member res s
  | .storeBufferDrain c => Sys2Proof.Machine.execStoreBufferDrain c s
  | .farStoreAck c tag res => Sys2Proof.Machine.execFarStoreAck c tag res s
  | .zeroFillAck c tag res => Sys2Proof.Machine.execZeroFillAck c tag res s
  | .prefetchFill c line res => Sys2Proof.Machine.execPrefetchFill c line res s
  | .coreRequestTimeout c req => Sys2Proof.Machine.execCoreRequestTimeout c req s
  | .ladleInjectionArrival c line data rtime => Sys2Proof.Machine.execLadleInjectionArrival c line data rtime s
  | .coreStoreExternalAccess c src tag off op => Sys2Proof.Machine.execCoreStoreExternalAccess c src tag off op s
  | .coreCacheInitDone c => Sys2Proof.Machine.execCoreCacheInitDone c s
  | .messageDelivery c urgent sender payload => Sys2Proof.Machine.execMessageDelivery c urgent sender payload s
  | .taskDescWrite v slot arg data => Sys2Proof.Machine.execTaskDescWrite v slot arg data s
  | .taskLoad v slot => Sys2Proof.Machine.execTaskLoad v slot s
  | .taskReady v slot => Sys2Proof.Machine.execTaskReady v slot s
  | .taskCancel v slot => Sys2Proof.Machine.execTaskCancel v slot s
  | .taskRelease v slot => Sys2Proof.Machine.execTaskRelease v slot s
  | .taskCmdReserved v slot => Sys2Proof.Machine.execTaskCmdReserved v slot s
  | .taskDispatch v k => Sys2Proof.Machine.execTaskDispatch v k s
  | .tallyIncrement t n org => Sys2Proof.Machine.execTallyIncrement t n org s
  | .tallyRegistration t w org => Sys2Proof.Machine.execTallyRegistration t w org s
  | .tallyRegistrationAck w t => Sys2Proof.Machine.execTallyRegistrationAck w t s
  | .tallyRelease w t count kind answer => Sys2Proof.Machine.execTallyRelease w t count kind answer s
  | .tallyRead t c => Sys2Proof.Machine.execTallyRead t c s
  | .tallyReadReply c t count => Sys2Proof.Machine.execTallyReadReply c t count s
  | .tallySetThreshold t value org => Sys2Proof.Machine.execTallySetThreshold t value org s
  | .tallyCntWrite t value => Sys2Proof.Machine.execTallyCntWrite t value s
  | .tallyThrWrite t value => Sys2Proof.Machine.execTallyThrWrite t value s
  | .tallyStepWrite t value => Sys2Proof.Machine.execTallyStepWrite t value s
  | .churnPartial v src p => Sys2Proof.Machine.execChurnPartial v src p s
  | .redResultWriteAck v e lane va res => Sys2Proof.Machine.execRedResultWriteAck v e lane va res s
  | .redCfgWrite v e data => Sys2Proof.Machine.execRedCfgWrite v e data s
  | .redDstWrite v e data => Sys2Proof.Machine.execRedDstWrite v e data s
  | .redXfwdWrite v e data => Sys2Proof.Machine.execRedXfwdWrite v e data s
  | .churnInvocationStart v => Sys2Proof.Machine.execChurnInvocationStart v s
  | .churnCallWrite v data => Sys2Proof.Machine.execChurnCallWrite v data s
  | .churnSeedWrite v seed => Sys2Proof.Machine.execChurnSeedWrite v seed s
  | .churnRseedWrite v seed => Sys2Proof.Machine.execChurnRseedWrite v seed s
  | .churnAlu v op a => Sys2Proof.Machine.execChurnAlu v op a s
  | .churnAddi v a => Sys2Proof.Machine.execChurnAddi v a s
  | .churnShli v a => Sys2Proof.Machine.execChurnShli v a s
  | .churnLd v a => Sys2Proof.Machine.execChurnLd v a s
  | .churnSt v a => Sys2Proof.Machine.execChurnSt v a s
  | .churnMemoryReply v res => Sys2Proof.Machine.execChurnMemoryReply v res s
  | .churnLdl v a => Sys2Proof.Machine.execChurnLdl v a s
  | .churnStl v a => Sys2Proof.Machine.execChurnStl v a s
  | .churnFlt v a => Sys2Proof.Machine.execChurnFlt v a s
  | .churnFarith v op a => Sys2Proof.Machine.execChurnFarith v op a s
  | .churnFexp2 v a => Sys2Proof.Machine.execChurnFexp2 v a s
  | .churnFrcp v a => Sys2Proof.Machine.execChurnFrcp v a s
  | .churnRng v a => Sys2Proof.Machine.execChurnRng v a s
  | .churnTopk v a => Sys2Proof.Machine.execChurnTopk v a s
  | .churnBranch v op a => Sys2Proof.Machine.execChurnBranch v op a s
  | .churnTinc v a => Sys2Proof.Machine.execChurnTinc v a s
  | .churnDbell v a => Sys2Proof.Machine.execChurnDbell v a s
  | .churnSend v a => Sys2Proof.Machine.execChurnSend v a s
  | .churnEnd v a => Sys2Proof.Machine.execChurnEnd v a s
  | .churnReservedOp v w => Sys2Proof.Machine.execChurnReservedOp v w s
  | .churnInstructionLimit v => Sys2Proof.Machine.execChurnInstructionLimit v s
  | .churnRequestTimeout v req => Sys2Proof.Machine.execChurnRequestTimeout v req s
  | .ladleStageStart v l data => Sys2Proof.Machine.execLadleStageStart v l data s
  | .ladleStageWord v l w data => Sys2Proof.Machine.execLadleStageWord v l w data s
  | .ladleStageCommit v l data privileged => Sys2Proof.Machine.execLadleStageCommit v l data privileged s
  | .ladleCopy v l => Sys2Proof.Machine.execLadleCopy v l s
  | .ladleFill v l => Sys2Proof.Machine.execLadleFill v l s
  | .ladleInject v l => Sys2Proof.Machine.execLadleInject v l s
  | .ladleUnpack6 v l => Sys2Proof.Machine.execLadleUnpack6 v l s
  | .ladlePack6 v l => Sys2Proof.Machine.execLadlePack6 v l s
  | .ladleCall v l => Sys2Proof.Machine.execLadleCall v l s
  | .ladleReadReply v l res => Sys2Proof.Machine.execLadleReadReply v l res s
  | .ladleWriteAck v l tag res => Sys2Proof.Machine.execLadleWriteAck v l tag res s
  | .ladleRequestTimeout v l tag => Sys2Proof.Machine.execLadleRequestTimeout v l tag s
  | .ladleFlush v l => Sys2Proof.Machine.execLadleFlush v l s
  | .ladleFlushComplete v l => Sys2Proof.Machine.execLadleFlushComplete v l s
  | .ladleResume v l => Sys2Proof.Machine.execLadleResume v l s
  | .vatReset v => Sys2Proof.Machine.execVatReset v s
  | .vatResetComplete v => Sys2Proof.Machine.execVatResetComplete v s
  | .routerPacket cnet v pcol prow hdr err parity msg => Sys2Proof.Machine.execRouterPacket cnet v pcol prow hdr err parity msg s
  | .routerPartial v pcol prow src p => Sys2Proof.Machine.execRouterPartial v pcol prow src p s
  | .reductionSlotHoldExpiry v pcol prow slot => Sys2Proof.Machine.execReductionSlotHoldExpiry v pcol prow slot s
  | .reductionSlotForward v pcol prow slot => Sys2Proof.Machine.execReductionSlotForward v pcol prow slot s
  | .creditReturn pool inst vc => Sys2Proof.Machine.execCreditReturn pool inst vc s
  | .firmwareBroadcast off vats lines => Sys2Proof.Machine.execFirmwareBroadcast off vats lines s
  | .tnetMessage v bits err link msg => Sys2Proof.Machine.execTnetMessage v bits err link msg s
  | .dtabWrite v n data firmware => Sys2Proof.Machine.execDtabWrite v n data firmware s
  | .specOpen v data => Sys2Proof.Machine.execSpecOpen v data s
  | .specToken v data => Sys2Proof.Machine.execSpecToken v data s
  | .specVerdict v data => Sys2Proof.Machine.execSpecVerdict v data s
  | .specEnd v data => Sys2Proof.Machine.execSpecEnd v data s
  | .specCmdReserved v data => Sys2Proof.Machine.execSpecCmdReserved v data s
  | .specPeerOpen v data => Sys2Proof.Machine.execSpecPeerOpen v data s
  | .specOpenAnswer v accept => Sys2Proof.Machine.execSpecOpenAnswer v accept s
  | .specPeerToken v data => Sys2Proof.Machine.execSpecPeerToken v data s
  | .specPeerEnd v data => Sys2Proof.Machine.execSpecPeerEnd v data s
  | .specFollowerVerdict v dev data e st n => Sys2Proof.Machine.execSpecFollowerVerdict v dev data e st n s
  | .specDrafterVerdict v data e st n => Sys2Proof.Machine.execSpecDrafterVerdict v data e st n s
  | .specPeerLost v => Sys2Proof.Machine.execSpecPeerLost v s
  | .specMemoryWriteAck v tag res => Sys2Proof.Machine.execSpecMemoryWriteAck v tag res s
  | .specRequestTimeout v tag => Sys2Proof.Machine.execSpecRequestTimeout v tag s
  | .specPresent v => Sys2Proof.Machine.execSpecPresent v s
  | .specRingReadback v res => Sys2Proof.Machine.execSpecRingReadback v res s
  | .specCtlStart v => Sys2Proof.Machine.execSpecCtlStart v s
  | .specCtlStop v => Sys2Proof.Machine.execSpecCtlStop v s
  | .specCtlClear v => Sys2Proof.Machine.execSpecCtlClear v s
  | .specConsWrite v data => Sys2Proof.Machine.execSpecConsWrite v data s
  | .specConfigWrite v off data => Sys2Proof.Machine.execSpecConfigWrite v off data s
  | .specEndDrained v => Sys2Proof.Machine.execSpecEndDrained v s
  | .sliceRequest src tag ga op err => Sys2Proof.Machine.execSliceRequest src tag ga op err s
  | .sliceFill v id res => Sys2Proof.Machine.execSliceFill v id res s
  | .scratchpadAccess src tag ga op err => Sys2Proof.Machine.execScratchpadAccess src tag ga op err s
  | .atomicRequest src tag ga fn operand expected err => Sys2Proof.Machine.execAtomicRequest src tag ga fn operand expected err s
  | .victimOffer c ga data rtime => Sys2Proof.Machine.execVictimOffer c ga data rtime s
  | .creamRegulatorTick v j => Sys2Proof.Machine.execCreamRegulatorTick v j s
  | .creamRegulatorWrite v j data => Sys2Proof.Machine.execCreamRegulatorWrite v j data s
  | .crockRead ch line errs share acts => Sys2Proof.Machine.execCrockRead ch line errs share acts s
  | .crockWrite ch line errs share acts => Sys2Proof.Machine.execCrockWrite ch line errs share acts s
  | .crockRefresh ch => Sys2Proof.Machine.execCrockRefresh ch s
  | .crockTempSample ch t0 t1 t2 t3 t4 => Sys2Proof.Machine.execCrockTempSample ch t0 t1 t2 t3 t4 s
  | .crockSrIdleTimeout ch => Sys2Proof.Machine.execCrockSrIdleTimeout ch s
  | .crockSrExitDone ch => Sys2Proof.Machine.execCrockSrExitDone ch s
  | .crockScrubRead ch line errs => Sys2Proof.Machine.execCrockScrubRead ch line errs s
  | .crkChTestWrite ch data => Sys2Proof.Machine.execCrkChTestWrite ch data s
  | .crkThrWrite k data => Sys2Proof.Machine.execCrkThrWrite k data s
  | .crkTgGo ch data => Sys2Proof.Machine.execCrkTgGo ch data s
  | .crkTgAbort ch data done errs => Sys2Proof.Machine.execCrkTgAbort ch data done errs s
  | .crkTgRunEnd ch errs => Sys2Proof.Machine.execCrkTgRunEnd ch errs s
  | .cellarRead p pc line errs odec acts => Sys2Proof.Machine.execCellarRead p pc line errs odec acts s
  | .cellarWrite p pc line errs odec acts => Sys2Proof.Machine.execCellarWrite p pc line errs odec acts s
  | .cellarTrainingComplete p t => Sys2Proof.Machine.execCellarTrainingComplete p t s
  | .cellarRetrain p => Sys2Proof.Machine.execCellarRetrain p s
  | .cellarRetrainComplete p => Sys2Proof.Machine.execCellarRetrainComplete p s
  | .cellarTempRead p temp hot => Sys2Proof.Machine.execCellarTempRead p temp hot s
  | .cellarTempTimeout p => Sys2Proof.Machine.execCellarTempTimeout p s
  | .cellarCaParity p cmd => Sys2Proof.Machine.execCellarCaParity p cmd s
  | .cellarScrubRead p pc line errs odec => Sys2Proof.Machine.execCellarScrubRead p pc line errs odec s
  | .celTestWrite p data => Sys2Proof.Machine.execCelTestWrite p data s
  | .cellarInitComplete p => Sys2Proof.Machine.execCellarInitComplete p s
  | .celTgGo p c data => Sys2Proof.Machine.execCelTgGo p c data s
  | .celTgAbort p c data done errs => Sys2Proof.Machine.execCelTgAbort p c data done errs s
  | .celTgRunEnd p c errs => Sys2Proof.Machine.execCelTgRunEnd p c errs s
  | .celThrWrite p data => Sys2Proof.Machine.execCelThrWrite p data s
  | .celRegulatorTick p j => Sys2Proof.Machine.execCelRegulatorTick p j s
  | .vatScrubRead v target a err => Sys2Proof.Machine.execVatScrubRead v target a err s
  | .fqHeadWrite data => Sys2Proof.Machine.execFqHeadWrite data s
  | .walkStart p vpage => Sys2Proof.Machine.execWalkStart p vpage s
  | .walkTableReadReply k res ue => Sys2Proof.Machine.execWalkTableReadReply k res ue s
  | .walkReadTimeout k => Sys2Proof.Machine.execWalkReadTimeout k s
  | .walkResult p vpage => Sys2Proof.Machine.execWalkResult p vpage s
  | .migrationStart => Sys2Proof.Machine.execMigrationStart s
  | .migrationCopyComplete lines => Sys2Proof.Machine.execMigrationCopyComplete lines s
  | .xltShoot data => Sys2Proof.Machine.execXltShoot data s
  | .shootdownVatDrained v => Sys2Proof.Machine.execShootdownVatDrained v s
  | .shootdownComplete => Sys2Proof.Machine.execShootdownComplete s
  | .xltResume data => Sys2Proof.Machine.execXltResume data s
  | .xltFrConsWrite p data => Sys2Proof.Machine.execXltFrConsWrite p data s
  | .xltMigTailWrite p data => Sys2Proof.Machine.execXltMigTailWrite p data s
  | .faultRingWriteAck p res => Sys2Proof.Machine.execFaultRingWriteAck p res s
  | .faultRingWriteTimeout p => Sys2Proof.Machine.execFaultRingWriteTimeout p s
  | .laneRefLost g => Sys2Proof.Machine.execLaneRefLost g s
  | .laneFrameTransmit p => Sys2Proof.Machine.execLaneFrameTransmit p s
  | .laneFrameReceive p j units e => Sys2Proof.Machine.execLaneFrameReceive p j units e s
  | .filler p j occ => Sys2Proof.Machine.execFiller p j occ s
  | .enterShallow p j => Sys2Proof.Machine.execEnterShallow p j s
  | .enterDeep p j => Sys2Proof.Machine.execEnterDeep p j s
  | .retrain p j => Sys2Proof.Machine.execRetrain p j s
  | .capx p j rec => Sys2Proof.Machine.execCapx p j rec s
  | .controlBlockReserved p j type comp second => Sys2Proof.Machine.execControlBlockReserved p j type comp second s
  | .laneTrainingMarker p j payload sent inverted => Sys2Proof.Machine.execLaneTrainingMarker p j payload sent inverted s
  | .lanePartnerDetect p lanes => Sys2Proof.Machine.execLanePartnerDetect p lanes s
  | .portStateTimeout p => Sys2Proof.Machine.execPortStateTimeout p s
  | .laneSignalLoss p signal boundary => Sys2Proof.Machine.execLaneSignalLoss p signal boundary s
  | .laneWakeDetect p => Sys2Proof.Machine.execLaneWakeDetect p s
  | .laneRefreshBurst p => Sys2Proof.Machine.execLaneRefreshBurst p s
  | .laneCalComplete p j res trim => Sys2Proof.Machine.execLaneCalComplete p j res trim s
  | .lnkCalGo p => Sys2Proof.Machine.execLnkCalGo p s
  | .lnkCtlStart p => Sys2Proof.Machine.execLnkCtlStart p s
  | .lnkCtlStop p => Sys2Proof.Machine.execLnkCtlStop p s
  | .lpreqShallow p => Sys2Proof.Machine.execLpreqShallow p s
  | .lpreqDeep p => Sys2Proof.Machine.execLpreqDeep p s
  | .lpreqWake p => Sys2Proof.Machine.execLpreqWake p s
  | .lnkLoopWrite p loop => Sys2Proof.Machine.execLnkLoopWrite p loop s
  | .sequencerFault g => Sys2Proof.Machine.execSequencerFault g s
  | .eyeScanGo p j data => Sys2Proof.Machine.execEyeScanGo p j data s
  | .eyeScanAbort p j data smp err => Sys2Proof.Machine.execEyeScanAbort p j data smp err s
  | .eyeScanComplete p j err => Sys2Proof.Machine.execEyeScanComplete p j err s
  | .linkDataUnitReceive p bits bad => Sys2Proof.Machine.execLinkDataUnitReceive p bits bad s
  | .ack p seq => Sys2Proof.Machine.execAck p seq s
  | .nack p seq => Sys2Proof.Machine.execNack p seq s
  | .replay p seq => Sys2Proof.Machine.execReplay p seq s
  | .credit p pool count => Sys2Proof.Machine.execCredit p pool count s
  | .idle p => Sys2Proof.Machine.execIdle p s
  | .wreq p mask => Sys2Proof.Machine.execWreq p mask s
  | .wack p mask => Sys2Proof.Machine.execWack p mask s
  | .wsw p => Sys2Proof.Machine.execWsw p s
  | .controlUnitReserved p bits => Sys2Proof.Machine.execControlUnitReserved p bits s
  | .linkReplayTimeout p => Sys2Proof.Machine.execLinkReplayTimeout p s
  | .wreqResendTimeout p => Sys2Proof.Machine.execWreqResendTimeout p s
  | .heldRetrainTimer p => Sys2Proof.Machine.execHeldRetrainTimer p s
  | .lnkFabRelease p => Sys2Proof.Machine.execLnkFabRelease p s
  | .lnkFabHold p => Sys2Proof.Machine.execLnkFabHold p s
  | .lnkFabRetrain p => Sys2Proof.Machine.execLnkFabRetrain p s
  | .lnkFabWmask p mask => Sys2Proof.Machine.execLnkFabWmask p mask s
  | .fabricPacketReceive p vc => Sys2Proof.Machine.execFabricPacketReceive p vc s
  | .remoteRequest src txn => Sys2Proof.Machine.execRemoteRequest src txn s
  | .linkRequestSlotTimeout txn => Sys2Proof.Machine.execLinkRequestSlotTimeout txn s
  | .fabRouteWrite dev data => Sys2Proof.Machine.execFabRouteWrite dev data s
  | .faceDataPacketReceive n sl beats short => Sys2Proof.Machine.execFaceDataPacketReceive n sl beats short s
  | .faceRead n sl => Sys2Proof.Machine.execFaceRead n sl s
  | .faceWrite n sl => Sys2Proof.Machine.execFaceWrite n sl s
  | .faceWriteMasked n sl => Sys2Proof.Machine.execFaceWriteMasked n sl s
  | .faceAtomic n sl => Sys2Proof.Machine.execFaceAtomic n sl s
  | .faceDoorbell n sl => Sys2Proof.Machine.execFaceDoorbell n sl s
  | .faceReplyReturn n tag r => Sys2Proof.Machine.execFaceReplyReturn n tag r s
  | .faceAck n sl seq => Sys2Proof.Machine.execFaceAck n sl seq s
  | .faceNack n sl seq => Sys2Proof.Machine.execFaceNack n sl seq s
  | .faceReplay n sl seq => Sys2Proof.Machine.execFaceReplay n sl seq s
  | .faceCredit n sl vc count => Sys2Proof.Machine.execFaceCredit n sl vc count s
  | .faceCap n sl version depth => Sys2Proof.Machine.execFaceCap n sl version depth s
  | .faceControlReserved n sl ctype => Sys2Proof.Machine.execFaceControlReserved n sl ctype s
  | .faceReplayTimeout n sl => Sys2Proof.Machine.execFaceReplayTimeout n sl s
  | .faceStrobeRetrim n => Sys2Proof.Machine.execFaceStrobeRetrim n s
  | .faceCtlStart n => Sys2Proof.Machine.execFaceCtlStart n s
  | .faceCtlStop n => Sys2Proof.Machine.execFaceCtlStop n s
  | .faceCtlHold n => Sys2Proof.Machine.execFaceCtlHold n s
  | .faceCtlRelease n => Sys2Proof.Machine.execFaceCtlRelease n s
  | .faceFpgRise n gsGood => Sys2Proof.Machine.execFaceFpgRise n gsGood s
  | .faceFpgFall n => Sys2Proof.Machine.execFaceFpgFall n s
  | .facePowerTimeout n => Sys2Proof.Machine.execFacePowerTimeout n s
  | .faceResetRelease n => Sys2Proof.Machine.execFaceResetRelease n s
  | .faceSliceTrained n sl => Sys2Proof.Machine.execFaceSliceTrained n sl s
  | .faceTrainTimeout n => Sys2Proof.Machine.execFaceTrainTimeout n s
  | .faceAlarm n => Sys2Proof.Machine.execFaceAlarm n s
  | .faceOvercurrent n amps => Sys2Proof.Machine.execFaceOvercurrent n amps s
  | .faceOvercurrentTimeout n amps => Sys2Proof.Machine.execFaceOvercurrentTimeout n amps s
  | .guestSupplyShort n amps => Sys2Proof.Machine.execGuestSupplyShort n amps s
  | .faceStallTimeout n sl => Sys2Proof.Machine.execFaceStallTimeout n sl s
  | .hostBarAccess fn req => Sys2Proof.Machine.execHostBarAccess fn req s
  | .cmdW0Write r data => Sys2Proof.Machine.execCmdW0Write r data s
  | .cmdWordWrite r w data => Sys2Proof.Machine.execCmdWordWrite r w data s
  | .cmdW7Commit r who data => Sys2Proof.Machine.execCmdW7Commit r who data s
  | .nop r => Sys2Proof.Machine.execNop r s
  | .imageLoad r img => Sys2Proof.Machine.execImageLoad r img s
  | .zeroise r => Sys2Proof.Machine.execZeroise r s
  | .migrate r copies => Sys2Proof.Machine.execMigrate r copies s
  | .test r crk cel => Sys2Proof.Machine.execTest r crk cel s
  | .twinSync r => Sys2Proof.Machine.execTwinSync r s
  | .keepQuery r => Sys2Proof.Machine.execKeepQuery r s
  | .keepTag r => Sys2Proof.Machine.execKeepTag r s
  | .keepDrop r => Sys2Proof.Machine.execKeepDrop r s
  | .cmdReservedOpcode r who data => Sys2Proof.Machine.execCmdReservedOpcode r who data s
  | .cqRecordReadback r => Sys2Proof.Machine.execCqRecordReadback r s
  | .cqConsWrite r data => Sys2Proof.Machine.execCqConsWrite r data s
  | .ringFlush r => Sys2Proof.Machine.execRingFlush r s
  | .ringEnableWrite r data => Sys2Proof.Machine.execRingEnableWrite r data s
  | .hostLinkDown => Sys2Proof.Machine.execHostLinkDown s
  | .flrVf n => Sys2Proof.Machine.execFlrVf n s
  | .flrPf => Sys2Proof.Machine.execFlrPf s
  | .hostCompletion tag c => Sys2Proof.Machine.execHostCompletion tag c s
  | .hostCompletionTimeout tag => Sys2Proof.Machine.execHostCompletionTimeout tag s
  | .powerFailWarning noCrk noCel => Sys2Proof.Machine.execPowerFailWarning noCrk noCel s
  | .doorbell v src => Sys2Proof.Machine.execDoorbell v src s
  | .vatEvDbellWrite v data => Sys2Proof.Machine.execVatEvDbellWrite v data s
  | .vatEvent v src => Sys2Proof.Machine.execVatEvent v src s
  | .dicLevelChange n => Sys2Proof.Machine.execDicLevelChange n s
  | .dicClaim t fast n => Sys2Proof.Machine.execDicClaim t fast n s
  | .dicComplete t fast data => Sys2Proof.Machine.execDicComplete t fast data s
  | .dicResample fast data => Sys2Proof.Machine.execDicResample fast data s
  | .dicMaskWrite fast w data => Sys2Proof.Machine.execDicMaskWrite fast w data s
  | .dicSrcWrite n data => Sys2Proof.Machine.execDicSrcWrite n data s
  | .dicCoalTimeout t fast => Sys2Proof.Machine.execDicCoalTimeout t fast s
  | .dicAutoComplete n => Sys2Proof.Machine.execDicAutoComplete n s
  | .vatVoltageLoop v b => Sys2Proof.Machine.execVatVoltageLoop v b s
  | .powerGovernor bodra guest gloss => Sys2Proof.Machine.execPowerGovernor bodra guest gloss s
  | .dieCapStep v => Sys2Proof.Machine.execDieCapStep v s
  | .vatCurrentLimit v amps => Sys2Proof.Machine.execVatCurrentLimit v amps s
  | .sensorSample n temp => Sys2Proof.Machine.execSensorSample n temp s
  | .powerOverLimit => Sys2Proof.Machine.execPowerOverLimit s
  | .thermalTrip src temp mram => Sys2Proof.Machine.execThermalTrip src temp mram s
  | .regulatorFault u reason => Sys2Proof.Machine.execRegulatorFault u reason s
  | .domainReqOn d => Sys2Proof.Machine.execDomainReqOn d s
  | .domainReqOff d => Sys2Proof.Machine.execDomainReqOff d s
  | .domainRampComplete d => Sys2Proof.Machine.execDomainRampComplete d s
  | .domainDrainComplete d => Sys2Proof.Machine.execDomainDrainComplete d s
  | .pwrDomShadowWrite d data => Sys2Proof.Machine.execPwrDomShadowWrite d data s
  | .stateSkew d => Sys2Proof.Machine.execStateSkew d s
  | .pwrVatVWrite v data => Sys2Proof.Machine.execPwrVatVWrite v data s
  | .pwrLimitWrite data => Sys2Proof.Machine.execPwrLimitWrite data s
  | .pwrGCfgWrite n data => Sys2Proof.Machine.execPwrGCfgWrite n data s
  | .auxPowerOn => Sys2Proof.Machine.execAuxPowerOn s
  | .auxPowerLoss => Sys2Proof.Machine.execAuxPowerLoss s
  | .powerOkRise vret noCel => Sys2Proof.Machine.execPowerOkRise vret noCel s
  | .sysResetPin => Sys2Proof.Machine.execSysResetPin s
  | .sysRefclkLost => Sys2Proof.Machine.execSysRefclkLost s
  | .deviceStart r => Sys2Proof.Machine.execDeviceStart r s
  | .mcBootReset data => Sys2Proof.Machine.execMcBootReset data s
  | .bootWatchdogExpiry => Sys2Proof.Machine.execBootWatchdogExpiry s
  | .vatTestGoS v => Sys2Proof.Machine.execVatTestGoS v s
  | .vatTestGoF v => Sys2Proof.Machine.execVatTestGoF v s
  | .vatTestRunEnd v fails => Sys2Proof.Machine.execVatTestRunEnd v fails s
  | .topologyCheckTimeout => Sys2Proof.Machine.execTopologyCheckTimeout s
  | .twinOwnRecord v st err agree => Sys2Proof.Machine.execTwinOwnRecord v st err agree s
  | .twinPartnerRecord rec err agree => Sys2Proof.Machine.execTwinPartnerRecord rec err agree s
  | .twinMatchTimeout e => Sys2Proof.Machine.execTwinMatchTimeout e s
  | .twinInjectedTest good => Sys2Proof.Machine.execTwinInjectedTest good s
  | .twinTestGo good => Sys2Proof.Machine.execTwinTestGo good s
  | .twinLead => Sys2Proof.Machine.execTwinLead s
  | .twinNotice code peer => Sys2Proof.Machine.execTwinNotice code peer s
  | .twinLinkLostTimeout => Sys2Proof.Machine.execTwinLinkLostTimeout s
  | .twinSyncPairTimeout => Sys2Proof.Machine.execTwinSyncPairTimeout s
  | .twinSyncWrite addr => Sys2Proof.Machine.execTwinSyncWrite addr s
  | .twinSyncCopyDone => Sys2Proof.Machine.execTwinSyncCopyDone s
  | .enroll blk => Sys2Proof.Machine.execEnroll blk s
  | .revoke blk => Sys2Proof.Machine.execRevoke blk s
  | .setMinseq blk => Sys2Proof.Machine.execSetMinseq blk s
  | .fwUpdate blk => Sys2Proof.Machine.execFwUpdate blk s
  | .setFwsvn blk => Sys2Proof.Machine.execSetFwsvn blk s
  | .debugUnlock blk => Sys2Proof.Machine.execDebugUnlock blk s
  | .decommission blk => Sys2Proof.Machine.execDecommission blk s
  | .attest blk => Sys2Proof.Machine.execAttest blk s
  | .rindCmdReserved blk => Sys2Proof.Machine.execRindCmdReserved blk s
  | .rindSelftest fail => Sys2Proof.Machine.execRindSelftest fail s
  | .rindEntropySample ok => Sys2Proof.Machine.execRindEntropySample ok s
  | .drbgReseed => Sys2Proof.Machine.execDrbgReseed s
  | .sidebandRead off size => Sys2Proof.Machine.execSidebandRead off size s
  | .sidebandWrite off data => Sys2Proof.Machine.execSidebandWrite off data s
  | .extest => Sys2Proof.Machine.execExtest s
  | .idcode => Sys2Proof.Machine.execIdcode s
  | .samplePreload => Sys2Proof.Machine.execSamplePreload s
  | .faceSel n => Sys2Proof.Machine.execFaceSel n s
  | .dieWrap => Sys2Proof.Machine.execDieWrap s
  | .ijtag => Sys2Proof.Machine.execIjtag s
  | .mcDebug => Sys2Proof.Machine.execMcDebug s
  | .bypass code => Sys2Proof.Machine.execBypass code s
  | .blockLock p j hdr => Sys2Proof.Machine.execBlockLock p j hdr s
  | .laneRefPresent g => Sys2Proof.Machine.execLaneRefPresent g s
  | .hostLinkUp width speed flit => Sys2Proof.Machine.execHostLinkUp width speed flit s
  | .configurationRequest fn => Sys2Proof.Machine.execConfigurationRequest fn s
  | .cellarRefresh p => Sys2Proof.Machine.execCellarRefresh p s
  | .falmNDeassert n => Sys2Proof.Machine.execFalmNDeassert n s

end Sys2Proof.Machine
end

