-- ==== Sys2Proof/Machine/Tick.lean ====
section
/-! DEFINITION. What one period of 10 ns of `MC_TSC` does by itself (02 R56): the counter advances, and the counters of such
periods count (10 R342, 11 R368, 14 R447, 20 R613). Every other effect of time is a command (log 32). -/

namespace Sys2Proof.Machine

open Sys2Proof

/-- Count a period in a counter of each instance that meets a condition. -/
def State.tickEach (s : State) (r : Reg) (ix : List (Nat × Nat)) (on : State → Nat → Nat → Bool) : State :=
  ix.foldl (fun (s : State) e => if on s e.1 e.2 then s.bump r e.1 e.2 else s) s

/-- The pairs of indices of an array of two dimensions. -/
def pairsOf (m n : Nat) : List (Nat × Nat) := (List.range m).flatMap (fun i => (List.range n).map (fun j => (i, j)))

/-- Does `MC_TSC` run (02 R56, 22 R647, R650)? -/
def State.tscRuns (s : State) : Bool := s.sup.aux && !s.sup.refLost

/-- One period of `MC_TSC`. -/
def State.tick (s : State) : State :=
  if !s.tscRuns then s
  else
    let s := s.setReg MC_TSC (s.reg MC_TSC + 1)
    let s := s.tickEach CRK_CH_PC_THROT (pairsOf 8 16) (fun s k j => s.fld CRK_CH_STAT.TLVL k j ≠ 0)
    let s := s.tickEach CEL_PC_THROT (pairsOf 8 1) (fun s p _ => s.fld CEL_STAT.TLVL p ≠ 0)
    let s := s.tickEach LNK_PC_LP_TIME (pairsOf 48 1) (fun s p _ => s.portState p = 7 || s.portState p = 8)
    if s.twinWait = [] then s else s.bump TWIN_PC_STALL

end Sys2Proof.Machine
end

