-- ==== Sys2Proof/Safety.lean ====
section
/-! DEFINITION. What claims about runs speak of: steps that answer, states in canonical form. -/

namespace Sys2Proof.Machine

open Sys2Proof

/-- An outcome is a next state. -/
def Answers (o : Host.Outcome State Fault Refusal) : Prop := ∃ t, o = .next t

/-- The maps of a state that claims read through are in canonical form (log 5): memory, the registers, the cores. -/
def State.canon (s : State) : Bool := Memory.wf s.mem && smWf 0 s.regs && smWf {} s.cores

/-- A run of n steps that meets neither a fault nor a refusal. -/
def SafeRun : Nat → State → Prop
  | 0, _ => True
  | n + 1, s => ∃ t, step s = .next t ∧ SafeRun n t

/-- Core `c` is about to execute the instruction word `w`: it may issue, the word stands at its `PC`, no store error waits, no
division runs, no injected error is armed for its registers (04 R105, R109, R126, 12 R383). -/
def Ready (s : State) (c : CoreId) (w : Word) : Prop :=
  s.canIssue c = true ∧ (s.core c).fbuf.head? = some (w, false) ∧ (s.core c).storeErrs = [] ∧ (s.core c).div = none
    ∧ s.injBits c 1 = 0

/-- The churn of vat `v` is about to execute the instruction word `w` of its run `r` (06 R209, R212). -/
def ChurnReady (s : State) (v : Nat) (w : Word) (r : ChurnRun) : Prop :=
  s.vatLive v = true ∧ (s.churn v).run = some r ∧ r.wait = none ∧ r.count < 65536 ∧ smGet 0 r.prog r.pc = w
    ∧ churnReserved w = false

/-- Ladle `l` of vat `v` may begin the descriptor `d` at the head of its queue (06 R213). -/
def LadleReady (s : State) (v l : Nat) (d : LItem) : Prop :=
  s.accepts v = true ∧ s.fld VAT_LADLE_STAT.STATE v l = 1 ∧ (s.ladle v l).act = none ∧ (s.ladle v l).queue.head? = some d

/-- The speculation unit of vat `v` takes work now (08 R259, R267, 20 R598). -/
def SpecReady (s : State) (v : Nat) : Prop :=
  s.accepts v = true ∧ s.hasSpec v = true ∧ (s.spec v).busy = none ∧ s.signBlocked v 128 = false

/-- A message may reach the speculation unit of vat `v` now (08 R259, R269). -/
def SpecArrives (s : State) (v : Nat) (m : SpecMsg) : Prop := SpecReady s v ∧ s.specOrder (.spec s.devId v m) = true

/-- The Rind runs a command block at once: it waits for one or is idle, and the management core runs nothing (21 R629). -/
def RindReady (s : State) : Prop :=
  (s.rindWait = true ∨ s.fld RIND_STAT.STATE = 1) ∧ s.fld RIND_STAT.STATE ≠ 3 ∧ s.mcRun = none ∧ s.mcQueue = []

/-- The core and the destination register of an instruction that only writes a scalar register: a branch writes none, which
`s0` stands for; `JAL` links in `s31` (04 R103, R114). -/
def scalarDest : Instr → Option (CoreId × BitVec 5)
  | .alu c r _ => some (c, r.rd)
  | .addi c a => some (c, a.rd)
  | .andi c a => some (c, a.rd)
  | .ori c a => some (c, a.rd)
  | .shi c a => some (c, a.rd)
  | .lui c a => some (c, a.rd)
  | .branch c _ _ _ _ => some (c, 0)
  | .jal c _ => some (c, 31)
  | .jalr c a => some (c, a.rd)
  | _ => none

end Sys2Proof.Machine
end

