-- ==== Sys2Proof/WellFormed.lean ====
section
/-! DEFINITION. Which terms of `Instr` are commands that the block can meet: the bounds that the types of the operands do
not carry. -/

namespace Sys2Proof

open Sys2Proof.Machine

/-- Does a global address lie in register space (01 R35, R40)? -/
def inRegs (ga : Dword) : Bool := 0x430000000 ≤ ga.toNat && ga.toNat < 0x440000000

/-- Is a request one of memory, not of a register? -/
def plainMem (op : MemOp) : Bool :=
  match op with
  | .read n => 0 < n && n ≤ 64
  | .regRead _ => false
  | .regWrite .. => false
  | _ => true

/-- Is a partial one that 05 R179 allows: 1 to 5 windows, 1 to 256 contributions merged? -/
def partialOk (p : Partial) : Bool := 1 ≤ p.wins.length && p.wins.length ≤ 5 && 1 ≤ p.merged && p.merged ≤ 256

/-- Is a code of the IEEE 1149.1 port one of another instruction than `BYPASS` (22 R656)? -/
def namedCode (code : BitVec 8) : Bool :=
  let c := code.toNat
  c ≤ 2 || (8 ≤ c && c ≤ 13) || c = 0x10 || c = 0x20 || c = 0x21

/-- Is a request of the host at most one line? -/
def hostReqOk (r : HostReq) : Bool :=
  match r with
  | .read _ _ n => 0 < n && n ≤ 64
  | .write _ _ n _ _ => 0 < n && n ≤ 64
  | _ => true

/-- Is a term a command? -/
def wellFormed (i : Instr) : Bool :=
  match i with
  | .registerWrite _ _ ga size _ => inRegs ga && 0 < size && size ≤ 64
  | .readClearRegisterRead _ _ ga size => inRegs ga && 0 < size && size ≤ 64
  | .undefinedOpcode c w => decide (coreDecode c w = .undefinedOpcode c w)
  | .coreStoreExternalAccess _ _ _ off op => off < 0x10000 && plainMem op
  | .sliceRequest _ _ _ op _ => plainMem op
  | .scratchpadAccess _ _ _ op _ => plainMem op
  | .churnPartial _ src p => src < 4096 && partialOk p
  | .routerPartial _ _ _ src p => src < 4096 && partialOk p
  | .churnReservedOp _ w => fieldOf w 26 6 = 0 || 0x20#6 < fieldOf w 26 6
  | .crockRead _ _ errs share _ => errs.length ≤ 4 && share.all (fun e => e.length ≤ 4)
  | .crockWrite _ _ errs share _ => errs.length ≤ 4 && share.all (fun e => e.length ≤ 4)
  | .crockScrubRead _ _ errs => errs.length ≤ 4
  | .laneFrameReceive _ _ units _ => units.length = 80
  | .firmwareBroadcast _ _ lines => lines ≠ []
  | .faceDataPacketReceive _ _ beats _ => beats ≠ []
  | .hostLinkUp width speed _ => (width = 4 || width = 8 || width = 16) && 1 ≤ speed && speed ≤ 6
  | .bypass code => !namedCode code
  | .hostBarAccess _ req => hostReqOk req
  | .deviceStart r => r.times.length ≤ 7
  | .lateReplyDiscard .. | .ledgerAuditStart | .ledgerMarkerPass .. | .ledgerCompare | .ledgerTestGo ..
  | .mcQueueNext .. | .reloadCancelTimeout | .alu .. | .addi .. | .andi .. | .ori .. | .shi .. | .lui .. | .div ..
  | .divComplete .. | .lw .. | .sw .. | .lsub .. | .fld .. | .fst .. | .vld .. | .vst .. | .vldf .. | .vstf ..
  | .cachePref .. | .cacheZero .. | .cacheInvl .. | .cacheInvall .. | .branch .. | .jal .. | .jalr .. | .valu ..
  | .vfp .. | .vmov .. | .vperm .. | .vcmp .. | .dot .. | .dotP .. | .dotmx .. | .accClr .. | .accRd .. | .accRdc ..
  | .accAddv .. | .accPart .. | .cvt .. | .send .. | .sendu .. | .dbell .. | .recv .. | .recvnb .. | .tinc ..
  | .twait .. | .trd .. | .tsett .. | .lsubmit .. | .atom .. | .acas .. | .csr .. | .syncI .. | .fence .. | .yield ..
  | .wfe .. | .trap .. | .rdtsc .. | .halt .. | .tret .. | .farLoadReply .. | .storeBufferDrain .. | .farStoreAck ..
  | .zeroFillAck .. | .prefetchFill .. | .coreRequestTimeout .. | .ladleInjectionArrival .. | .coreCacheInitDone ..
  | .messageDelivery .. | .taskDescWrite .. | .taskLoad .. | .taskReady .. | .taskCancel .. | .taskRelease ..
  | .taskCmdReserved .. | .taskDispatch .. | .tallyIncrement .. | .tallyRegistration .. | .tallyRegistrationAck ..
  | .tallyRelease .. | .tallyRead .. | .tallyReadReply .. | .tallySetThreshold .. | .tallyCntWrite ..
  | .tallyThrWrite .. | .tallyStepWrite .. | .redResultWriteAck .. | .redCfgWrite .. | .redDstWrite ..
  | .redXfwdWrite .. | .churnInvocationStart .. | .churnCallWrite .. | .churnSeedWrite .. | .churnRseedWrite ..
  | .churnAlu .. | .churnAddi .. | .churnShli .. | .churnLd .. | .churnSt .. | .churnMemoryReply .. | .churnLdl ..
  | .churnStl .. | .churnFlt .. | .churnFarith .. | .churnFexp2 .. | .churnFrcp .. | .churnRng .. | .churnTopk ..
  | .churnBranch .. | .churnTinc .. | .churnDbell .. | .churnSend .. | .churnEnd .. | .churnInstructionLimit ..
  | .churnRequestTimeout .. | .ladleStageStart .. | .ladleStageWord .. | .ladleStageCommit .. | .ladleCopy ..
  | .ladleFill .. | .ladleInject .. | .ladleUnpack6 .. | .ladlePack6 .. | .ladleCall .. | .ladleReadReply ..
  | .ladleWriteAck .. | .ladleRequestTimeout .. | .ladleFlush .. | .ladleFlushComplete .. | .ladleResume ..
  | .vatReset .. | .vatResetComplete .. | .routerPacket .. | .reductionSlotHoldExpiry .. | .reductionSlotForward ..
  | .creditReturn .. | .tnetMessage .. | .dtabWrite .. | .specOpen .. | .specToken .. | .specVerdict .. | .specEnd ..
  | .specCmdReserved .. | .specPeerOpen .. | .specOpenAnswer .. | .specPeerToken .. | .specPeerEnd ..
  | .specFollowerVerdict .. | .specDrafterVerdict .. | .specPeerLost .. | .specMemoryWriteAck ..
  | .specRequestTimeout .. | .specPresent .. | .specRingReadback .. | .specCtlStart .. | .specCtlStop ..
  | .specCtlClear .. | .specConsWrite .. | .specConfigWrite .. | .specEndDrained .. | .sliceFill ..
  | .atomicRequest .. | .victimOffer .. | .creamRegulatorTick .. | .creamRegulatorWrite .. | .crockRefresh ..
  | .crockTempSample .. | .crockSrIdleTimeout .. | .crockSrExitDone .. | .crkChTestWrite .. | .crkThrWrite ..
  | .crkTgGo .. | .crkTgAbort .. | .crkTgRunEnd .. | .cellarRead .. | .cellarWrite .. | .cellarTrainingComplete ..
  | .cellarRetrain .. | .cellarRetrainComplete .. | .cellarTempRead .. | .cellarTempTimeout .. | .cellarCaParity ..
  | .cellarScrubRead .. | .celTestWrite .. | .cellarInitComplete .. | .celTgGo .. | .celTgAbort .. | .celTgRunEnd ..
  | .celThrWrite .. | .celRegulatorTick .. | .vatScrubRead .. | .fqHeadWrite .. | .walkStart ..
  | .walkTableReadReply .. | .walkReadTimeout .. | .walkResult .. | .migrationStart | .migrationCopyComplete ..
  | .xltShoot .. | .shootdownVatDrained .. | .shootdownComplete | .xltResume .. | .xltFrConsWrite ..
  | .xltMigTailWrite .. | .faultRingWriteAck .. | .faultRingWriteTimeout .. | .laneRefLost .. | .laneFrameTransmit ..
  | .filler .. | .enterShallow .. | .enterDeep .. | .retrain .. | .capx .. | .controlBlockReserved ..
  | .laneTrainingMarker .. | .lanePartnerDetect .. | .portStateTimeout .. | .laneSignalLoss .. | .laneWakeDetect ..
  | .laneRefreshBurst .. | .laneCalComplete .. | .lnkCalGo .. | .lnkCtlStart .. | .lnkCtlStop .. | .lpreqShallow ..
  | .lpreqDeep .. | .lpreqWake .. | .lnkLoopWrite .. | .sequencerFault .. | .eyeScanGo .. | .eyeScanAbort ..
  | .eyeScanComplete .. | .linkDataUnitReceive .. | .ack .. | .nack .. | .replay .. | .credit .. | .idle .. | .wreq ..
  | .wack .. | .wsw .. | .controlUnitReserved .. | .linkReplayTimeout .. | .wreqResendTimeout ..
  | .heldRetrainTimer .. | .lnkFabRelease .. | .lnkFabHold .. | .lnkFabRetrain .. | .lnkFabWmask ..
  | .fabricPacketReceive .. | .remoteRequest .. | .linkRequestSlotTimeout .. | .fabRouteWrite .. | .faceRead ..
  | .faceWrite .. | .faceWriteMasked .. | .faceAtomic .. | .faceDoorbell .. | .faceReplyReturn .. | .faceAck ..
  | .faceNack .. | .faceReplay .. | .faceCredit .. | .faceCap .. | .faceControlReserved .. | .faceReplayTimeout ..
  | .faceStrobeRetrim .. | .faceCtlStart .. | .faceCtlStop .. | .faceCtlHold .. | .faceCtlRelease .. | .faceFpgRise ..
  | .faceFpgFall .. | .facePowerTimeout .. | .faceResetRelease .. | .faceSliceTrained .. | .faceTrainTimeout ..
  | .faceAlarm .. | .faceOvercurrent .. | .faceOvercurrentTimeout .. | .guestSupplyShort .. | .faceStallTimeout ..
  | .cmdW0Write .. | .cmdWordWrite .. | .cmdW7Commit .. | .nop .. | .imageLoad .. | .zeroise .. | .migrate ..
  | .test .. | .twinSync .. | .keepQuery .. | .keepTag .. | .keepDrop .. | .cmdReservedOpcode ..
  | .cqRecordReadback .. | .cqConsWrite .. | .ringFlush .. | .ringEnableWrite .. | .hostLinkDown | .flrVf .. | .flrPf
  | .hostCompletion .. | .hostCompletionTimeout .. | .powerFailWarning .. | .doorbell .. | .vatEvDbellWrite ..
  | .vatEvent .. | .dicLevelChange .. | .dicClaim .. | .dicComplete .. | .dicResample .. | .dicMaskWrite ..
  | .dicSrcWrite .. | .dicCoalTimeout .. | .dicAutoComplete .. | .vatVoltageLoop .. | .powerGovernor ..
  | .dieCapStep .. | .vatCurrentLimit .. | .sensorSample .. | .powerOverLimit | .thermalTrip .. | .regulatorFault ..
  | .domainReqOn .. | .domainReqOff .. | .domainRampComplete .. | .domainDrainComplete .. | .pwrDomShadowWrite ..
  | .stateSkew .. | .pwrVatVWrite .. | .pwrLimitWrite .. | .pwrGCfgWrite .. | .auxPowerOn | .auxPowerLoss
  | .powerOkRise .. | .sysResetPin | .sysRefclkLost | .mcBootReset .. | .bootWatchdogExpiry | .vatTestGoS ..
  | .vatTestGoF .. | .vatTestRunEnd .. | .topologyCheckTimeout | .twinOwnRecord .. | .twinPartnerRecord ..
  | .twinMatchTimeout .. | .twinInjectedTest .. | .twinTestGo .. | .twinLead | .twinNotice .. | .twinLinkLostTimeout
  | .twinSyncPairTimeout | .twinSyncWrite .. | .twinSyncCopyDone | .enroll .. | .revoke .. | .setMinseq ..
  | .fwUpdate .. | .setFwsvn .. | .debugUnlock .. | .decommission .. | .attest .. | .rindCmdReserved ..
  | .rindSelftest .. | .rindEntropySample .. | .drbgReseed | .sidebandRead .. | .sidebandWrite .. | .extest | .idcode
  | .samplePreload | .faceSel .. | .dieWrap | .ijtag | .mcDebug | .blockLock .. | .laneRefPresent ..
  | .configurationRequest .. | .cellarRefresh .. | .falmNDeassert .. => true

end Sys2Proof
end

