-- ==== Sys2Proof/Certificates/Slice0/Obligations.lean ====
section
/-! DEFINITION. The statements for the provers. A statement of a group of commands gives, command by command, the next
state of its own effect, where the commands can act; the next state is written with the operations of Machine/, so that
what it does not name is unchanged. -/

open Sys2Proof Sys2Proof.Machine


/-! ### Steps, reset, words -/

/-- A step runs the command at the front of the queue on the rest of the queue. -/
def Obligations.StepRunsFront : Prop :=
  ∀ (c : Instr) (cs : List Instr) (s : State), s.pending = c :: cs → step s = exec c { s with pending := cs }

/-- No command stops the block, and a step of an empty queue is one period of `MC_TSC` (the model's choice, log 32): while
the reference runs the counter advances by one (02 R56). -/
def Obligations.EveryStepAnswers : Prop :=
  (∀ (c : Instr) (s : State), Answers (exec c s)) ∧ (∀ (s : State), Answers (step s))
  ∧ (∀ (s : State), s.pending = [] → s.sup.aux = false → step s = .next s)
  ∧ (∀ (s : State), s.pending = [] → s.canon = true → s.sup.aux = true → s.sup.refLost = false →
    ∃ t, step s = .next t ∧ t.reg MC_TSC = s.reg MC_TSC + 1 ∧ t.mem = s.mem)

/-- R14: registers after reset, at values of the reset columns written out from the tables; fields that an image or a fuse map
loads read zero; the maps are in canonical form (log 5). -/
def Obligations.ResetState : Prop :=
  State.reset.canon = true ∧ State.reset.pending = [] ∧ State.reset.fatal = false
  ∧ (∀ v < 64, ∀ k < 64, State.reset.reg VAT_CORE_CTL v k = 1 ∧ State.reset.reg VAT_CORE_STAT v k = 4)
  ∧ (∀ v < 64, State.reset.reg VAT_NET_CTL v = 0x10 ∧ State.reset.fld PWR_VAT_V.HWCAP v = 0x46)
  ∧ (∀ k < 8, State.reset.reg CRK_THR k = 0x5F55 ∧ State.reset.reg CEL_THR k = 0x40645A)
  ∧ (∀ p < 48, State.reset.fld LNK_CFG.FILL_INT p = 0x200 ∧ State.reset.fld LNK_CFG.UE_LIM p = 0x10)
  ∧ State.reset.reg MC_FAB_CTL = 0x081040 ∧ (∀ r < 64, State.reset.fld RING_CTL.CLOG r = 6)
  ∧ (∀ i < 2, ∀ w < 4, State.reset.reg DIC_MASK i w = 0xFFFFFFFFFFFFFFFF)
  ∧ (∀ n < 256, State.reset.fld DIC_SRC.OWNER n = 15)
  ∧ State.reset.reg PWR_LOOP = 0x036603C3 ∧ State.reset.reg PWR_THR = 0x5F ∧ State.reset.reg TWIN_CFG = 0x03E80064_0064000C
  ∧ State.reset.reg MC_TOPO_CFG = 0x1F4 ∧ State.reset.reg MC_TSC = 0 ∧ State.reset.reg MC_IMG_ID = 0

/-- R113 to R119: words written out from the encoding tables stand for their instructions. -/
def Obligations.CoreWordsWrittenOut : Prop := ∀ c : CoreId,
  coreDecode c 0b000010_00001_00010_1111111111111111 = .addi c ⟨1, 2, 0xFFFF⟩
  ∧ coreDecode c 0b000001_00011_00100_00101_00000_000001 = .alu c ⟨3, 4, 5, 0⟩ 1
  ∧ coreDecode c 0b001001_00110_00111_0000000000001000 = .sw c ⟨6, 7, 8⟩
  ∧ coreDecode c 0b011001_00001_00000_1111111111111100 = .branch c .bne 1 0 0xFFFC
  ∧ coreDecode c 0b011110_00000000000000000000000100 = .jal c 4
  ∧ coreDecode c 0b100001_0001_0010_0011_101_0010_0000100 = .vfp c ⟨1, 2, 3, 5, 2, 4⟩
  ∧ coreDecode c 0b010000_0111_1_00010_0000000001000000 = .vld c 7 ⟨1, 2, 0x40⟩
  ∧ coreDecode c 0b101001_10_00100_0110_0111_0101_01_011_00 = .dotmx c ⟨2, 4, 6, 7, 5, 1, 3, 0⟩
  ∧ coreDecode c 0b110100_00001_00010_00011_00000_000010 = .atom c ⟨1, 2, 3, 0⟩ .aor
  ∧ coreDecode c 0b110110_00000_00000_00000_00111_000100 = .trap c ⟨0, 0, 0, 7⟩
  ∧ coreDecode c 0b111111_00000_00000_00000_00000_000000 = .undefinedOpcode c 0xFC000000

/-- R113 to R119: the decoder of core words gives back every instruction from its word, with every operand. -/
def Obligations.CoreWordsDecode : Prop :=
  ∀ (i : Instr) (c : CoreId) (w : Word), coreWord i = some (c, w) → plainInsn i = true → coreDecode c w = i

/-- R113 to R119: a word that is an instruction is the word of what it decodes to: no two words are one instruction, and no bit
of a word is dropped. -/
def Obligations.CoreWordsEncode : Prop :=
  ∀ (c : CoreId) (w : Word), coreDecode c w ≠ .undefinedOpcode c w →
    coreWord (coreDecode c w) = some (c, w) ∧ plainInsn (coreDecode c w) = true

/-- R105, R138, R390, R603: a core that may not issue, because no task runs on it, it waits, its vat is resetting or the device
is fatal, and a core whose word at `PC` is another one, executes no instruction: the state stays as it is. -/
def Obligations.IdleCoreExecutesNothing : Prop :=
  ∀ (i : Instr) (c : CoreId) (w : Word) (s : State), coreWord i = some (c, w) →
    (s.fatal = true ∨ (s.core c).task = none ∨ s.canIssue c = false ∨ (s.core c).fbuf.head?.map Prod.fst ≠ some w) →
    exec i s = .next s

/-- R103, R114: what an instruction that only writes a scalar register leaves unchanged, whether it completes or traps: all of
memory, every other scalar register, the vector and predicate registers, the accumulators, the vector of the handler. -/
def Obligations.ScalarFrame : Prop :=
  ∀ (i : Instr) (c : CoreId) (d : BitVec 5) (s t : State), scalarDest i = some (c, d) → s.canon = true → exec i s = .next t →
    (∀ a, Memory.get t.mem a = Memory.get s.mem a)
    ∧ (∀ r, r ≠ d → (t.core c).s r = (s.core c).s r)
    ∧ (t.core c).vreg = (s.core c).vreg ∧ (t.core c).preg = (s.core c).preg ∧ (t.core c).acc = (s.core c).acc
    ∧ (t.core c).tvec = (s.core c).tvec ∧ (t.core c).s 0 = 0

/-- R128, R129: a load of a word that a buffered store has written gets the stored word, before the store drains; memory holds
the old bytes until then. -/
def Obligations.StoreThenLoad : Prop :=
  ∀ (c : CoreId) (a : SArg) (b : IArg) (x : Nat) (s : State), Ready s c (encS 0x09 a) → s.canon = true →
    x = localAddr (s.core c) a.rs1 a.imm → x ≤ 0xFFFF → x % 4 = 0 → s.sbFull c = false →
    ∃ t, exec (.sw c a) s = .next t ∧ t.mem = s.mem
      ∧ (Ready t c (encI 0x08 b) → localAddr (t.core c) b.rs1 b.imm = x → t.injBits c 0 = 0 →
        ∃ u, exec (.lw c b) t = .next u ∧ u.mem = s.mem
          ∧ (u.core c).s b.rd = if b.rd = 0 then 0 else (s.core c).s a.rs2)

/-- R125: every trap writes its record; it goes to the handler, suspends the task on a page fault, or ends the task; `TRET` goes back from a
handler. Each core of
a vat runs a task of its own (06 R193). -/
def Obligations.TrapDelivery : Prop :=
  ∀ (c : CoreId) (r : Trap) (w : Word) (s t : State), s.canon = true → (∀ k, (s.core c).task = some k → k < 256) →
    (∀ d, d ≠ c.val → (s.core d).task ≠ none → vatOf d = vatOf c → (s.core d).task ≠ (s.core c).task) →
    t = s.takeTrap c r w →
    ((t.core c).tcause = r.word0 (s.core c).pc ∧ (t.core c).tinsn = w ∧ (t.core c).taddrlo = BitVec.ofNat 32 r.addr
      ∧ (t.core c).taddrhi = r.word3 ∧ (t.core c).sb = (s.core c).sb ∧ t.mem = s.mem
      ∧ t.reg VAT_CORE_TREC0 (vatOf c) (idxOf c) = w ++ r.word0 (s.core c).pc
      ∧ t.reg VAT_CORE_TREC1 (vatOf c) (idxOf c) = r.word3 ++ BitVec.ofNat 32 r.addr)
    ∧ (r.cause ≠ causePageFault → r.cause ≠ causeMachineCheck → (s.core c).tvec.getLsbD 0 = true → (s.core c).inHandler = false →
      (t.core c).tepc = (s.core c).pc.setWidth 32 ∧ (t.core c).inHandler = true
      ∧ (t.core c).pc = (s.core c).tvec.setWidth 16 &&& 0xFFFC ∧ (t.core c).task = (s.core c).task)
    ∧ (r.cause = causePageFault → (t.core c).wait = some (.page r.addr) ∧ (t.core c).pc = (s.core c).pc
      ∧ ∀ k, (s.core c).task = some k → t.taskState (vatOf c) k = 4)
    ∧ (r.cause ≠ causePageFault → (r.cause = causeMachineCheck ∨ (s.core c).tvec.getLsbD 0 = false ∨ (s.core c).inHandler = true) →
      (t.core c).task = none ∧ t.wordBit VAT_EV_PEND.PEND (vatOf c) 0 = true
      ∧ ∀ k, (s.core c).task = some k → t.taskState (vatOf c) k = 7)
    ∧ (∀ ra : RArg, Ready t c (encR 0x36 ra 7) → resR ra = false → (t.core c).inHandler = true →
      ∃ u, exec (.tret c ra) t = .next u ∧ (u.core c).pc = (t.core c).tepc.setWidth 16 ∧ (u.core c).inHandler = false)

/-- An invariant of the cores' steps: a step that takes a core's instruction keeps the canonical form of the maps, from every
state that has it, whether the instruction completes, waits or traps (the form is the model's, log 5). -/
def Obligations.CoreStepsKeepForm : Prop :=
  ∀ (c : CoreId) (w : Word) (i : Instr) (cs : List Instr) (s t : State), coreWord i = some (c, w) → s.pending = i :: cs →
    s.canon = true → step s = .next t → t.canon = true

/-! ### Curd cores -/

/-- R114, R115: the scalar arithmetic instructions, at every value of their operands. -/
def Obligations.ScalarArithmetic : Prop :=
  (∀ (c : CoreId) (r : RArg) (fn : BitVec 6) (s : State) (v : Word), Ready s c (encR 0x01 r fn) → r.fx = 0 →
    aluOp fn.toNat ((s.core c).s r.rs1) ((s.core c).s r.rs2) = some v →
    exec (.alu c r fn) s = .next ((s.updCore c (fun x => x.setS r.rd v)).retire c))
  ∧ (∀ (c : CoreId) (a : IArg) (s : State), Ready s c (encI 0x02 a) →
    exec (.addi c a) s = .next ((s.updCore c (fun x => x.setS a.rd (x.s a.rs1 + a.imm.signExtend 32))).retire c))
  ∧ (∀ (c : CoreId) (a : IArg) (s : State), Ready s c (encI 0x03 a) →
    exec (.andi c a) s = .next ((s.updCore c (fun x => x.setS a.rd (x.s a.rs1 &&& a.imm.zeroExtend 32))).retire c))
  ∧ (∀ (c : CoreId) (a : IArg) (s : State), Ready s c (encI 0x04 a) →
    exec (.ori c a) s = .next ((s.updCore c (fun x => x.setS a.rd (x.s a.rs1 ||| a.imm.zeroExtend 32))).retire c))
  ∧ (∀ (c : CoreId) (a : IArg) (s : State), Ready s c (encI 0x05 a) → bvBits a.imm 5 2 ≠ 3 → bvBits a.imm 7 9 = 0 →
    exec (.shi c a) s = .next ((s.updCore c (fun x => x.setS a.rd
      (if bvBits a.imm 5 2 = 0 then x.s a.rs1 <<< bvBits a.imm 0 5
       else if bvBits a.imm 5 2 = 1 then x.s a.rs1 >>> bvBits a.imm 0 5
       else (x.s a.rs1).sshiftRight (bvBits a.imm 0 5)))).retire c))
  ∧ (∀ (c : CoreId) (a : IArg) (s : State), Ready s c (encI 0x06 a) → a.rs1 = 0 →
    exec (.lui c a) s = .next ((s.updCore c (fun x => x.setS a.rd (a.imm.zeroExtend 32 <<< 16))).retire c))
  ∧ (∀ (c : CoreId) (r : RArg) (fn : BitVec 6) (s : State), Ready s c (encR 0x07 r fn) → r.fx = 0 → fn.toNat ≤ 3 →
    exec (.div c r fn) s = .next ((s.updCore c (fun x =>
      { x with div := some (r.rd, divOp fn.toNat (x.s r.rs1) (x.s r.rs2)) })).retire c))
  ∧ (∀ (c : CoreId) (rd : BitVec 5) (q : Word) (s : State), (s.core c).div = some (rd, q) →
    exec (.divComplete c) s = .next (s.updCore c (fun x => { x.setS rd q with div := none })))

/-- R114, R128, R129: the accesses of a core to its own store that stay inside it, are aligned and need not wait; and the
head of the store buffer goes to the core store. -/
def Obligations.LocalMemory : Prop :=
  (∀ (c : CoreId) (a : IArg) (s : State) (d : Nat), Ready s c (encI 0x08 a) →
    localAddr (s.core c) a.rs1 a.imm ≤ 0xFFFF → localAddr (s.core c) a.rs1 a.imm % 4 = 0 →
    localLoad s c (localAddr (s.core c) a.rs1 a.imm) 4 = some d → s.injBits c 0 = 0 →
    exec (.lw c a) s = .next ((s.updCore c (fun x => x.setS a.rd (BitVec.ofNat 32 d))).retire c))
  ∧ (∀ (c : CoreId) (a : SArg) (s : State), Ready s c (encS 0x09 a) →
    localAddr (s.core c) a.rs1 a.imm ≤ 0xFFFF → localAddr (s.core c) a.rs1 a.imm % 4 = 0 → (s.core c).sb.length < 8 →
    exec (.sw c a) s = .next ((s.pushSb c
      { far := false
        line := localAddr (s.core c) a.rs1 a.imm / 64
        mask := byteMask (localAddr (s.core c) a.rs1 a.imm % 64) 4
        data := placeAt (localAddr (s.core c) a.rs1 a.imm % 64) ((s.core c).s a.rs2).toNat }).retire c))
  ∧ (∀ (c : CoreId) (r : RArg) (half : Bool) (s : State) (d : Nat), Ready s c (encR 0x0A r (if half then 0x10 else 0x00)) →
    r.fx = 0 → r.rs2 = 0 → ((s.core c).s r.rs1).toNat ≤ 0xFFFF → ((s.core c).s r.rs1).toNat % (if half then 2 else 1) = 0 →
    localLoad s c ((s.core c).s r.rs1).toNat (if half then 2 else 1) = some d → s.injBits c 0 = 0 →
    exec (.lsub c r (if half then 0x10 else 0x00)) s = .next ((s.updCore c (fun x => x.setS r.rd (BitVec.ofNat 32 d))).retire c))
  ∧ (∀ (c : CoreId) (r : RArg) (half : Bool) (s : State) (d : Nat), Ready s c (encR 0x0A r (if half then 0x14 else 0x04)) →
    r.fx = 0 → r.rs2 = 0 → ((s.core c).s r.rs1).toNat ≤ 0xFFFF → ((s.core c).s r.rs1).toNat % (if half then 2 else 1) = 0 →
    localLoad s c ((s.core c).s r.rs1).toNat (if half then 2 else 1) = some d → s.injBits c 0 = 0 →
    exec (.lsub c r (if half then 0x14 else 0x04)) s =
      .next ((s.updCore c (fun x => x.setS r.rd (BitVec.ofInt 32 (sextNat d (if half then 16 else 8))))).retire c))
  ∧ (∀ (c : CoreId) (r : RArg) (half : Bool) (s : State), Ready s c (encR 0x0A r (if half then 0x18 else 0x08)) →
    r.fx = 0 → r.rd = 0 → ((s.core c).s r.rs1).toNat ≤ 0xFFFF → ((s.core c).s r.rs1).toNat % (if half then 2 else 1) = 0 →
    (s.core c).sb.length < 8 →
    exec (.lsub c r (if half then 0x18 else 0x08)) s = .next ((s.pushSb c
      { far := false
        line := ((s.core c).s r.rs1).toNat / 64
        mask := byteMask (((s.core c).s r.rs1).toNat % 64) (if half then 2 else 1)
        data := placeAt (((s.core c).s r.rs1).toNat % 64) (((s.core c).s r.rs2).toNat % 2 ^ (if half then 16 else 8)) }).retire c))
  ∧ (∀ (c : CoreId) (vr : BitVec 4) (a : VMArg) (s : State), Ready s c (encVM 0x10 vr a) → vmRes a true = false →
    localAddr (s.core c) a.rs1 a.imm ≤ 0xFFFF → localAddr (s.core c) a.rs1 a.imm % 64 = 0 →
    (∀ m ∈ s.members c, localLoad s m (localAddr (s.core c) a.rs1 a.imm) 64 ≠ none ∧ s.injBits m 0 = 0) →
    exec (.vld c vr a) s = .next (((s.members c).foldl (fun t m => t.updCore m (fun x =>
      x.setV vr.toNat (BitVec.ofNat 512 ((localLoad s m (localAddr (s.core c) a.rs1 a.imm) 64).getD 0)))) s).retire c))
  ∧ (∀ (c : CoreId) (vr : BitVec 4) (a : VMArg) (s : State), Ready s c (encVM 0x11 vr a) → vmRes a true = false → localAddr (s.core c) a.rs1 a.imm ≤ 0xFFFF → localAddr (s.core c) a.rs1 a.imm % 64 = 0 →
    (∀ m ∈ s.members c, (s.core m).sb.length < 8) →
    exec (.vst c vr a) s = .next (((s.members c).foldl (fun t m => t.pushSb m
      { far := false, line := localAddr (s.core c) a.rs1 a.imm / 64, mask := BitVec.allOnes 64, data := (t.core m).v vr.toNat })
      s).retire c))
  ∧ (∀ (c : CoreId) (e : SbEntry) (es : List SbEntry) (s : State), (s.core c).sb = e :: es → e.far = false →
    exec (.storeBufferDrain c) s = .next { s.updCore c (fun x => { x with sb := es }) with
      mem := Memory.write s.mem (csBase c + 64 * e.line) e.mask.toNat e.data.toNat 64 })

/-- R112, R114, R122 to R126: transfers of control; a trap is taken by an undefined word and by `TRAP`. -/
def Obligations.ControlFlow : Prop :=
  (∀ (c : CoreId) (op : BrOp) (r1 r2 : BitVec 5) (off : BitVec 16) (s : State), Ready s c (encB (brCode op) r1 r2 off) →
    exec (.branch c op r1 r2 off) s = .next (if brTaken op ((s.core c).s r1) ((s.core c).s r2) then
      s.retireTo c ((s.core c).pc + (off.signExtend 32 <<< 2).setWidth 16) else s.retire c))
  ∧ (∀ (c : CoreId) (off : BitVec 26) (s : State), Ready s c (encJ 0x1E off) →
    exec (.jal c off) s = .next ((s.updCore c (fun x => x.setS 31 ((x.pc + 4).zeroExtend 32))).retireTo c
      ((s.core c).pc + (off.signExtend 32 <<< 2).setWidth 16)))
  ∧ (∀ (c : CoreId) (a : IArg) (s : State), Ready s c (encI 0x1F a) → localAddr (s.core c) a.rs1 a.imm % 4 = 0 →
    localAddr (s.core c) a.rs1 a.imm ≤ 0xFFFF →
    exec (.jalr c a) s = .next ((s.updCore c (fun x => x.setS a.rd ((x.pc + 4).zeroExtend 32))).retireTo c
      (BitVec.ofNat 16 (localAddr (s.core c) a.rs1 a.imm))))
  ∧ (∀ (c : CoreId) (r : RArg) (s : State), Ready s c (encR 0x36 r 0) → resR r = false → (s.core c).sb = [] →
    exec (.syncI c r) s = .next (s.retireTo c ((s.core c).pc + 4)))
  ∧ (∀ (c : CoreId) (r : RArg) (s : State), Ready s c (encR 0x36 r 7) → resR r = false → (s.core c).inHandler = true →
    exec (.tret c r) s = .next ((s.updCore c (fun x => { x with inHandler := false })).retireTo c
      ((s.core c).tepc.setWidth 16)))
  ∧ (∀ (c : CoreId) (r : RArg) (s : State), Ready s c (encR 0x36 r 4) → r.rd = 0 → r.rs1 = 0 → r.rs2 = 0 →
    exec (.trap c r) s = .next (s.takeTrap c { cause := 8, sub := r.fx.toNat } (encR 0x36 r 4)))
  ∧ (∀ (c : CoreId) (w : Word) (sub : Nat) (s : State), Ready s c w → undefWord w = some sub →
    exec (.undefinedOpcode c w) s = .next (s.takeTrap c { cause := 1, sub := sub } w))

/-- R121, R126, R194, R196, R523, R56: control registers, `FENCE`, the yield points and the time. -/
def Obligations.SystemOperations : Prop :=
  (∀ (c : CoreId) (a : IArg) (s : State) (old : Word), Ready s c (encI 0x35 a) → bvBits a.imm 12 2 = 0 → bvBits a.imm 14 2 = 3 →
    a.rs1 = 0 → csrRead c (s.core c) (bvBits a.imm 0 12) = some old →
    exec (.csr c a) s = .next ((s.updCore c (fun x => x.setS a.rd old)).retire c))
  ∧ (∀ (c : CoreId) (a : IArg) (s : State) (old : Word), Ready s c (encI 0x35 a) → bvBits a.imm 12 2 = 0 → bvBits a.imm 14 2 ≠ 3 →
    csrRead c (s.core c) (bvBits a.imm 0 12) = some old → csrRo (bvBits a.imm 0 12) = false →
    csrOk (bvBits a.imm 0 12) (csrNew (bvBits a.imm 14 2) old ((s.core c).s a.rs1)) = true →
    exec (.csr c a) s = .next ((s.updCore c (fun x =>
      (csrWrite x (bvBits a.imm 0 12) (csrNew (bvBits a.imm 14 2) old ((s.core c).s a.rs1))).setS a.rd old)).retire c))
  ∧ (∀ (c : CoreId) (r : RArg) (s : State), Ready s c (encR 0x36 r 1) → resR r = false →
    exec (.fence c r) s = .next (if s.fenced c then s.retire c else s))
  ∧ (∀ (c : CoreId) (r : RArg) (s : State), Ready s c (encR 0x36 r 2) → resR r = false →
    exec (.yield c r) s = .next (if s.aborting c then s.endTask c 6 else s.retire c))
  ∧ (∀ (c : CoreId) (r : RArg) (s : State), Ready s c (encR 0x36 r 3) → resR r = false → s.aborting c = false →
    exec (.wfe c r) s = .next (if (s.core c).evLatch then
      (s.updCore c (fun x => { x with evLatch := false })).retire c else s.suspend c 3 .wfe))
  ∧ (∀ (c : CoreId) (r : RArg) (lag : Fin 5) (s : State), Ready s c (encR 0x36 r 5) → r.rs1 = 0 → r.rs2 = 0 → r.fx = 0 →
    oddReg r.rd = false →
    exec (.rdtsc c r lag) s = .next ((State.updCore { s with tscCopy := smSet 0 s.tscCopy (vatOf c) (s.vatTsc (vatOf c) lag) } c
      (fun x => x.setPair r.rd (BitVec.ofNat 64 (s.vatTsc (vatOf c) lag)))).retire c))

/-- R115, R119, R120, R166, R167: lane-wise instructions act on every member of the cluster. -/
def Obligations.LaneWise : Prop :=
  (∀ (c : CoreId) (v : VArg) (s : State), Ready s c (encV 0x20 v) → lowFn v ≤ 10 → v.fn.getLsbD 6 = false → v.fmt.toNat ≤ 2 →
    exec (.valu c v) s = .next (s.eachMember c false (valuMember v)))
  ∧ (∀ (c : CoreId) (v : VArg) (s : State), Ready s c (encV 0x21 v) → lowFn v ≤ 5 → v.fn.getLsbD 6 = false →
    2 ≤ v.fmt.toNat → v.fmt.toNat ≤ 4 → exec (.vfp c v) s = .next (s.eachMember c true (vfpMember v)))
  ∧ (∀ (c : CoreId) (v : VSArg) (s : State), Ready s c (encVS 0x22 v) → v.fn = 0 → v.res = 0 → v.rs = 0 → v.lane = 0 →
    exec (.vmov c v) s = .next (s.eachMember c false (fun _ _ x => (x.setV v.vd.toNat (x.v v.vs1.toNat), 0))))
  ∧ (∀ (c : CoreId) (v : VSArg) (s : State), Ready s c (encVS 0x22 v) → v.fn = 1 → v.res = 0 → v.vs1 = 0 → v.lane = 0 →
    exec (.vmov c v) s = .next (s.eachMember c false (fun _ _ x =>
      (x.setV v.vd.toNat (ofLanes (fun _ => ((s.core c).s v.rs).toNat)), 0))))
  ∧ (∀ (c : CoreId) (v : VSArg) (s : State), Ready s c (encVS 0x22 v) → v.fn = 2 → v.res = 0 → v.vs1 = 0 →
    exec (.vmov c v) s = .next (s.eachMember c false (fun _ _ x => (x.setV v.vd.toNat (ofLanes (fun l =>
      if l = v.lane.toNat then ((s.core c).s v.rs).toNat else laneOf (x.v v.vd.toNat) l)), 0))))
  ∧ (∀ (c : CoreId) (v : VSArg) (s : State), Ready s c (encVS 0x22 v) → v.fn = 3 → v.res = 0 → v.vd = 0 →
    exec (.vmov c v) s = .next ((s.updCore c (fun x =>
      x.setS v.rs (BitVec.ofNat 32 (laneOf (x.v v.vs1.toNat) v.lane.toNat)))).retire c))
  ∧ (∀ (c : CoreId) (v : VSArg) (s : State), Ready s c (encVS 0x22 v) → v.fn = 4 → v.res = 0 → v.vd.getLsbD 3 = false →
    v.vs1 = 0 → v.lane = 0 →
    exec (.vmov c v) s = .next (s.eachMember c false (fun _ _ x =>
      (x.setP (bvBits v.vd 0 3) (BitVec.ofNat 16 ((s.core c).s v.rs).toNat), 0))))
  ∧ (∀ (c : CoreId) (v : VSArg) (s : State), Ready s c (encVS 0x22 v) → v.fn = 5 → v.res = 0 → v.vs1.getLsbD 3 = false →
    v.vd = 0 → v.lane = 0 →
    exec (.vmov c v) s = .next ((s.updCore c (fun x => x.setS v.rs ((x.p (bvBits v.vs1 0 3)).setWidth 32))).retire c))
  ∧ (∀ (c : CoreId) (v : VArg) (s : State), Ready s c (encV 0x23 v) → lowFn v ≤ 1 → v.fmt = 0 →
    (v.fn.getLsbD 6 = true → (s.core c).kind = 2) →
    exec (.vperm c v) s = .next (s.eachMember c false (vpermMember v ((s.members c).map (fun m => s.core m)))))
  ∧ (∀ (c : CoreId) (v : VArg) (s : State), Ready s c (encV 0x24 v) → v.fn.toNat ≤ 8 → v.vd.getLsbD 3 = false →
    (v.fn.toNat < 6 → v.fmt = 0) → (6 ≤ v.fn.toNat → 2 ≤ v.fmt.toNat ∧ v.fmt.toNat ≤ 4) →
    exec (.vcmp c v) s = .next (s.eachMember c false (vcmpMember v)))
  ∧ (∀ (c : CoreId) (v : VArg) (s : State), Ready s c (encV 0x2B v) → cvtFmt v.fmt.toNat = true → cvtFmt (bvBits v.fn 3 4) = true →
    bvBits v.fn 0 3 = 0 → v.pm = 0 →
    (512 < cvtCount v.fmt.toNat (bvBits v.fn 3 4) * fmtWidth v.fmt.toNat → oddReg v.vs1 = false) →
    (512 < cvtCount v.fmt.toNat (bvBits v.fn 3 4) * fmtWidth (bvBits v.fn 3 4) → oddReg v.vd = false) →
    exec (.cvt c v) s = .next (s.convert c v))

/-- R117, R118, R120, R155, R168: dot products and accumulator operations act on every member of the cluster. -/
def Obligations.Accumulators : Prop :=
  (∀ (c : CoreId) (d : DArg) (s : State), Ready s c (encD 0x28 d 0) → dotIll d [] = none →
    exec (.dot c d) s = .next (s.eachMember c false (fun _ _ x => addTerms x d.ad.toNat (dotLanes x d)
      (dotTerms d.fmt.toNat d.sel.toNat (dotWeights x d) (x.v d.vB.toNat).toNat))))
  ∧ (∀ (c : CoreId) (d : DArg) (s : State), Ready s c (encD 0x28 d 1) → dotIll d [] = none → (s.core c).kind = 1 →
    exec (.dotP c d) s = .next (s.eachMember c false (fun lead _ x => addTerms x d.ad.toNat (dotLanes x d)
      (dotTerms d.fmt.toNat d.sel.toNat (dotWeights lead d) (x.v d.vB.toNat).toNat))))
  ∧ (∀ (c : CoreId) (f : XArg) (s : State), Ready s c (encX 0x29 f) → f.fn = 0 → 5 ≤ f.fmt.toNat → f.fmt.toNat ≤ 11 → f.afmt ≠ 3 →
    oddReg f.vs1 = false → f.ss.toNat + 1 ≤ 31 →
    (f.fmt = 9 → f.sel.getLsbD 0 = false ∧ f.ss.toNat + 2 ≤ 31 ∧ oddReg f.ss = false) →
    (f.fmt = 11 → f.sel.getLsbD 0 = false ∧ f.ss.toNat + 4 ≤ 31 ∧ f.ss.toNat % 4 = 0) →
    exec (.dotmx c f) s = .next (s.eachMember c false (fun lead _ x =>
      addTerms x f.ad.toNat (List.range 16) (dotmxTerms lead f (x.vpair f.vs1.toNat) (x.v f.vs2.toNat).toNat))))
  ∧ (∀ (c : CoreId) (d : DArg) (s : State), Ready s c (encD 0x2A d 0) → accRes d = false →
    exec (.accClr c d) s = .next (s.eachMember c false (fun _ _ x => (clearLanes x d, 0))))
  ∧ (∀ (c : CoreId) (d : DArg) (s : State), Ready s c (encD 0x2A d 1) → accIll d = none →
    exec (.accRd c d) s = .next (s.eachMember c true (fun lead m x => readLanes lead m x d)))
  ∧ (∀ (c : CoreId) (d : DArg) (s : State), Ready s c (encD 0x2A d 2) → accIll d = none →
    exec (.accRdc c d) s = .next (s.eachMember c true (fun lead m x =>
      (clearLanes (readLanes lead m x d).1 d, (readLanes lead m x d).2))))
  ∧ (∀ (c : CoreId) (d : DArg) (s : State), Ready s c (encD 0x2A d 3) → accIll d = none →
    exec (.accAddv c d) s = .next (s.eachMember c false (fun _ _ x => addTerms x d.ad.toNat (predLanes x d.pm)
      (fun i => [termOf (decodeElem d.fmt.toNat (laneOf (x.v d.vA.toNat) i % 2 ^ fmtWidth d.fmt.toNat))]))))

/-- R105, R114, R120, R129 to R131: far accesses and atomics of a core that its vat translates. A far load whose members
find their data in the store buffer or the curd cache completes; one that must go to memory sends its requests and waits. -/
def Obligations.FarAccesses : Prop :=
  (∀ (c : CoreId) (a : IArg) (parity : Bool) (s t : State) (d : Nat), Ready s c (encI 0x0B a) → oddReg a.rs1 = false →
    farSum (s.core c) a.rs1 a.imm < 2 ^ 48 → farSum (s.core c) a.rs1 a.imm % 4 = 0 →
    s.farPeek c (encI 0x0B a) 0 c (farSum (s.core c) a.rs1 a.imm) 4 parity = .hit d t →
    exec (.fld c a parity) s = .next (((t.bump VAT_CORE_PC_CC_HIT (vatOf c) (idxOf c)).updCore c
      (fun x => x.setS a.rd (BitVec.ofNat 32 d))).retire c))
  ∧ (∀ (c : CoreId) (a : IArg) (parity : Bool) (s : State) (d : Nat), Ready s c (encI 0x0B a) → oddReg a.rs1 = false →
    farSum (s.core c) a.rs1 a.imm < 2 ^ 48 → farSum (s.core c) a.rs1 a.imm % 4 = 0 →
    s.farPeek c (encI 0x0B a) 0 c (farSum (s.core c) a.rs1 a.imm) 4 parity = .fwd d →
    exec (.fld c a parity) s = .next ((s.updCore c (fun x => x.setS a.rd (BitVec.ofNat 32 d))).retire c))
  ∧ (∀ (c : CoreId) (a : IArg) (parity : Bool) (s t u : State) (fa : Nat) (ga : Dword), Ready s c (encI 0x0B a) →
    oddReg a.rs1 = false → fa = farSum (s.core c) a.rs1 a.imm → fa < 2 ^ 48 → fa % 4 = 0 →
    s.farPeek c (encI 0x0B a) 0 c fa 4 parity = .go ga false t →
    u = (t.bump VAT_CORE_PC_CC_MISS (vatOf c) (idxOf c)).send (.req (.core c) 0 (ga &&& ~~~63) (.read 64)) →
    exec (.fld c a parity) s = .next (u.updCore c (fun x =>
      { x with blk := some { kind := .fld a.rd, fa := fa, word := encI 0x0B a, waits := [0], regWin := regWindow ≤ fa, rtime := u.tsc32 } })))
  ∧ (∀ (c : CoreId) (vr : BitVec 4) (a : VMArg) (parity : Bool) (s : State) (fa : Nat), Ready s c (encVM 0x12 vr a) →
    vmRes a false = false → oddReg a.rs1 = false → fa = farSum (s.core c) a.rs1 a.imm → fa < 2 ^ 48 → fa % 64 = 0 →
    (∀ e ∈ indexed (s.members c),
      (∃ d t, s.farPeek c (encVM 0x12 vr a) e.1 e.2 ((fa + 64 * e.1) % 2 ^ 48) 64 parity = .hit d t)
        ∨ (∃ ga t, s.farPeek c (encVM 0x12 vr a) e.1 e.2 ((fa + 64 * e.1) % 2 ^ 48) 64 parity = .go ga false t)) →
    exec (.vldf c vr a parity) s = .next (let r := (indexed (s.members c)).foldl (fun (acc : State × List Nat) e =>
        let q := acc.1.farTake c (encVM 0x12 vr a) e.1 e.2 ((fa + 64 * e.1) % 2 ^ 48) 64 parity
          (fun d x => x.setV vr.toNat (BitVec.ofNat 512 d))
        (q.1, if q.2 then acc.2 ++ [e.1] else acc.2)) (s, [])
      if r.2 = [] then r.1.retire c
      else r.1.updCore c (fun x => { x with blk := some { kind := .vldf vr (a.st = 1), fa := fa, word := encVM 0x12 vr a, waits := r.2, regWin := regWindow ≤ fa, rtime := r.1.tsc32 } })))
  ∧ (∀ (c : CoreId) (a : SArg) (s t : State) (fa : Nat) (ga : Dword), Ready s c (encS 0x0C a) → oddReg a.rs1 = false →
    fa = farSum (s.core c) a.rs1 a.imm → fa < 2 ^ 48 → fa % 4 = 0 → s.sbFull c = false →
    s.signBlocked (vatOf c) (idxOf c) = false → s.farAddr c (encS 0x0C a) fa true 0 = .ga ga t →
    exec (.fst c a) s = .next (let e := farEntry fa 4 ((s.core c).s a.rs2).toNat (ga &&& ~~~63) false
      ((if t.ownCore c ga then t else t.sign (vatOf c) (idxOf c) (evLine ga e.mask e.data)).pushSb c e).retire c))
  ∧ (∀ (c : CoreId) (vr : BitVec 4) (a : VMArg) (s t : State) (fa : Nat) (ga : Dword), Ready s c (encVM 0x13 vr a) →
    vmRes a true = false → oddReg a.rs1 = false → s.members c = [c.val] → fa = farSum (s.core c) a.rs1 a.imm → fa < 2 ^ 48 →
    fa % 64 = 0 → s.sbFull c = false → s.signBlocked (vatOf c) (idxOf c) = false →
    s.farAddr c (encVM 0x13 vr a) fa true 0 = .ga ga t →
    exec (.vstf c vr a) s = .next (let e := farEntry fa 64 ((s.core c).v vr.toNat).toNat ga false
      ((if t.ownCore c ga then t else t.sign (vatOf c) (idxOf c) (evLine ga e.mask e.data)).pushSb c e).retire c))
  ∧ (∀ (c : CoreId) (r : RArg) (fn : AmoFn) (s t : State) (fa : Nat) (ga : Dword), Ready s c (encR 0x34 r (amoCode fn)) →
    r.fx = 0 → oddReg r.rs1 = false → fa = ((s.core c).pair r.rs1).toNat → fa < 2 ^ 48 → fa % 4 = 0 → (s.core c).sb = [] →
    s.farAddr c (encR 0x34 r (amoCode fn)) fa true 0 = .ga ga t → t.signBlocked (vatOf c) (idxOf c) = false →
    exec (.atom c r fn) s = .next ((((t.sign (vatOf c) (idxOf c) (evAtomic ga (amoCode fn).toNat ((s.core c).s r.rs2) 0)).updCore c
        (fun x => x.invalidate (fun e => e.line = fa / 64) false)).updCore c (fun x => { x with blk := some { kind := .atom r.rd, fa := fa, word := encR 0x34 r (amoCode fn), waits := [0], regWin := false } })).send
      (.req (.core c) 0 ga (.atomic (amoCode fn).toNat ((s.core c).s r.rs2) 0))))
  ∧ (∀ (c : CoreId) (r : RArg) (s t : State) (fa : Nat) (ga : Dword), Ready s c (encR 0x34 r 9) →
    r.fx = 0 → oddReg r.rs1 = false → fa = ((s.core c).pair r.rs1).toNat → fa < 2 ^ 48 → fa % 4 = 0 → (s.core c).sb = [] →
    s.farAddr c (encR 0x34 r 9) fa true 0 = .ga ga t → t.signBlocked (vatOf c) (idxOf c) = false →
    exec (.acas c r) s = .next ((((t.sign (vatOf c) (idxOf c) (evAtomic ga 9 ((s.core c).s r.rs2) ((s.core c).s r.rd))).updCore c
        (fun x => x.invalidate (fun e => e.line = fa / 64) false)).updCore c (fun x => { x with blk := some { kind := .atom r.rd, fa := fa, word := encR 0x34 r 9, waits := [0], regWin := false } })).send
      (.req (.core c) 0 ga (.atomic 9 ((s.core c).s r.rs2) ((s.core c).s r.rd)))))

/-- R131 to R138: the curd cache instructions, a prefetched line, the end of the initialisation. -/
def Obligations.CurdCache : Prop :=
  (∀ (c : CoreId) (a : VMArg) (s t : State) (fa : Nat) (ga : Dword), Ready s c (encVM 0x14 0 a) → vmRes a true = false →
    oddReg a.rs1 = false → fa = farSum (s.core c) a.rs1 a.imm → fa < regWindow → (s.core c).wantsPref (fa / 64) = true →
    s.xlate (vatOf c) fa false = .ga ga t →
    exec (.cachePref c a) s = .next ((t.sendPrefetch c (fa / 64) ga).retire c))
  ∧ (∀ (c : CoreId) (a : VMArg) (s t u : State) (fa : Nat) (ga : Dword), Ready s c (encVM 0x14 1 a) → vmRes a true = false →
    oddReg a.rs1 = false → fa = farSum (s.core c) a.rs1 a.imm → fa < 2 ^ 48 → s.sbFull c = false →
    s.farAddr c (encVM 0x14 1 a) (fa / 64 * 64) true 0 = .ga ga t → t.signBlocked (vatOf c) (idxOf c) = false →
    t.install c .z { valid := true, line := fa / 64, pending := true, rtime := t.tsc32 } = .done u →
    exec (.cacheZero c a) s = .next
      (((if u.ownCore c ga then u else u.sign (vatOf c) (idxOf c) (evLine ga (BitVec.allOnes 64) 0)).pushSb c
        { far := true, line := fa / 64, mask := BitVec.allOnes 64, data := 0, zero := true, ga := ga }).retire c))
  ∧ (∀ (c : CoreId) (a : VMArg) (s : State) (fa : Nat), Ready s c (encVM 0x14 2 a) → vmRes a true = false →
    oddReg a.rs1 = false → fa = farSum (s.core c) a.rs1 a.imm → fa < regWindow →
    exec (.cacheInvl c a) s = .next ((s.updCore c (fun x =>
      (x.invalidate (fun e => e.line = fa / 64) false).clearSide (fun l => l = fa / 64))).retire c))
  ∧ (∀ (c : CoreId) (a : VMArg) (s : State), Ready s c (encVM 0x14 3 a) → a.st = 0 → a.rs1 = 0 → a.imm = 0 →
    (s.core c).pref = [] →
    exec (.cacheInvall c a) s = .next ((s.updCore c (fun x =>
      (x.invalidate (fun _ => true) true).clearSide (fun _ => true))).retire c))
  ∧ (∀ (c : CoreId) (line time : Nat) (d : Line) (s : State), (s.core c).pref.find? (fun e => e.1 = line) = some (line, time) →
    exec (.prefetchFill c line (.line d)) s = .next ((s.recvMsg (.reply (.core c) (prefTag line) (.data d))).setCore c
      (let x := { s.core c with pref := (s.core c).pref.erase (line, time) }
       if x.wantsPref line then x.pushSide line d time else x)))
  ∧ (∀ (c : CoreId) (s : State), s.bit VAT_CORE_STAT.CC_INIT (vatOf c) (idxOf c) = true →
    exec (.coreCacheInitDone c) s = .next ((s.updCore c (fun x => { x with cache := [], side := [], pref := [] })).setFld
      VAT_CORE_STAT.CC_INIT 0 (vatOf c) (idxOf c)))

/-- R108, R111, R126, R127, R131 to R135: what answers a core's requests, and the external port of its core store. -/
def Obligations.CoreReplies : Prop :=
  (∀ (c : CoreId) (s t : State) (b : Blocked) (rd : BitVec 5) (d : Line), (s.core c).blk = some b → b.kind = .fld rd →
    0 ∈ b.waits → b.regWin = false → b.noFill = false →
    (s.recvMsg (.reply (.core ((s.members c).getD 0 c)) 0 (.data d))).install ((s.members c).getD 0 c) .d
      { valid := true, line := b.fa % 2 ^ 48 / 64, data := d, age := 0, streaming := false, rtime := b.rtime } = .done t →
    exec (.farLoadReply c 0 (.line d)) s = .next (t.blkData c 0 b (fun x =>
      x.setS rd (BitVec.ofNat 32 (takeAt d (b.fa % 2 ^ 48 % 64) 4)))))
  ∧ (∀ (c : CoreId) (m : Fin 4) (s t : State) (b : Blocked) (vr : BitVec 4) (st : Bool) (d : Line), (s.core c).blk = some b →
    b.kind = .vldf vr st → m.val ∈ b.waits → b.regWin = false → b.noFill = false →
    (s.recvMsg (.reply (.core ((s.members c).getD m c)) m (.data d))).install ((s.members c).getD m c) .d
      { valid := true, line := (b.fa + 64 * m.val) % 2 ^ 48 / 64, data := d, age := if st then 3 else 0, streaming := st,
        rtime := b.rtime } = .done t →
    exec (.farLoadReply c m (.line d)) s = .next (t.blkData c m b (fun x => x.setV vr.toNat d)))
  ∧ (∀ (c : CoreId) (s : State) (b : Blocked) (rd : BitVec 5) (w : Word), (s.core c).blk = some b →
    (b.kind = .fld rd ∨ b.kind = .atom rd) → 0 ∈ b.waits →
    exec (.farLoadReply c 0 (.word w)) s = .next ((s.recvMsg (.reply (.core ((s.members c).getD 0 c)) 0
      (.word (w.setWidth 64)))).blkData c 0 b (fun x => x.setS rd w)))
  ∧ (∀ (c : CoreId) (m : Fin 4) (s : State) (b : Blocked), (s.core c).blk = some b → m.val ∈ b.waits →
    exec (.farLoadReply c m .err) s = .next ((s.recvMsg (.reply (.core ((s.members c).getD m c)) m .busError)).takeTrap c
      { cause := 4, addr := (b.fa + 64 * m.val) % 2 ^ 48, member := m } b.word))
  ∧ (∀ (c : CoreId) (tag : Nat) (o : OutStore) (s : State), (s.core c).outst.find? (fun o => o.tag = tag && !o.zero) = some o →
    exec (.farStoreAck c tag .ok) s = .next ((s.recvMsg (.reply (.core c) (16 + tag) .done)).updCore c
      (fun x => { x with outst := x.outst.erase o })))
  ∧ (∀ (c : CoreId) (tag i : Nat) (o : OutStore) (s : State), (s.core c).outst.find? (fun o => o.tag = tag && o.zero) = some o →
    ((s.core c).outst.erase o).any (fun p => p.zero && p.line = o.line) = false →
    (s.core c).sb.any (fun e => e.zero && e.line = o.line) = false → (s.core c).findLine o.line = some i →
    ((s.core c).ent i).drop = false →
    exec (.zeroFillAck c tag .ok) s = .next ((s.recvMsg (.reply (.core c) (16 + tag) .done)).setCore c
      (({ s.core c with outst := (s.core c).outst.erase o } : CoreSt).setEnt i { (s.core c).ent i with pending := false })))
  ∧ (∀ (c : CoreId) (m : Nat) (b : Blocked) (s : State), (s.core c).blk = some b → m ∈ b.waits →
    exec (.coreRequestTimeout c (.blocking m)) s = .next (s.takeTrap c
      { cause := 4, sub := 1, addr := (b.fa + 64 * m) % 2 ^ 48, member := m } b.word))
  ∧ (∀ (c : CoreId) (line : Nat) (s : State), exec (.coreRequestTimeout c (.prefetch line)) s =
    .next (s.updCore c (fun x => { x with pref := x.pref.filter (fun e => e.1 ≠ line) })))
  ∧ (∀ (c : CoreId) (src : Agent) (tag off n : Nat) (s : State), s.partOf (vatOf c) ≠ none → off < 0x10000 → s.injBits c 0 = 0 →
    exec (.coreStoreExternalAccess c src tag off (.read n)) s = .next
      ((s.recvMsg (.req src tag (BitVec.ofNat 64 (csBase c + off)) (.read n))).send (.reply src tag
        (.data (BitVec.ofNat 512 (Memory.read s.mem (csBase c + off) (min n 64)))))))
  ∧ (∀ (c : CoreId) (src : Agent) (tag off : Nat) (m : Mask) (d : Line) (s : State), s.partOf (vatOf c) ≠ none → off < 0x10000 →
    s.injBits c 0 = 0 →
    exec (.coreStoreExternalAccess c src tag off (.write m d)) s = .next
      (State.send { s.recvMsg (.req src tag (BitVec.ofNat 64 (csBase c + off)) (.write m d)) with
        mem := Memory.write s.mem (csBase c + off / 64 * 64) m.toNat d.toNat 64 } (.reply src tag .done)))

/-- R194, R196, R231, R241 to R243, R522: messages and doorbells of a core, and `HALT`. -/
def Obligations.Messages : Prop :=
  (∀ (c : CoreId) (r : RArg) (s : State), Ready s c (encR 0x30 r 0) → r.rd = 0 → r.fx = 0 →
    s.srcCheck (vatOf c) (bvBits ((s.core c).s r.rs1) 0 12) = none → s.signBlocked (vatOf c) (idxOf c) = false →
    exec (.send c r) s = .next (((s.sign (vatOf c) (idxOf c) (evMsg (bvBits ((s.core c).s r.rs1) 0 12)
        ((s.partOf (vatOf c)).getD 0) (((s.core c).s r.rs2).setWidth 64))).send
      (.cnet (bvBits ((s.core c).s r.rs1) 0 12) false (BitVec.ofNat 32 c) ((s.core c).s r.rs2))).retire c))
  ∧ (∀ (c : CoreId) (r : RArg) (s : State), Ready s c (encR 0x30 r 1) → r.rd = 0 → r.fx = 0 →
    s.srcCheck (vatOf c) (bvBits ((s.core c).s r.rs1) 0 12) = none → s.signBlocked (vatOf c) (idxOf c) = false →
    exec (.sendu c r) s = .next (((s.sign (vatOf c) (idxOf c) (evMsg (bvBits ((s.core c).s r.rs1) 0 12)
        ((s.partOf (vatOf c)).getD 0) (((s.core c).s r.rs2).setWidth 64))).send
      (.cnet (bvBits ((s.core c).s r.rs1) 0 12) true (BitVec.ofNat 32 c) ((s.core c).s r.rs2))).retire c))
  ∧ (∀ (c : CoreId) (r : RArg) (s : State), Ready s c (encR 0x30 r 2) → r.rd = 0 → r.fx = 0 →
    s.samePart (vatOf c) (bvBits ((s.core c).s r.rs1) 0 6) = true → s.signBlocked (vatOf c) (idxOf c) = false →
    exec (.dbell c r) s = .next (((s.sign (vatOf c) (idxOf c) (evBell (bvBits ((s.core c).s r.rs1) 0 6)
        (bvBits ((s.core c).s r.rs2) 0 8))).send
      (.doorbell (bvBits ((s.core c).s r.rs1) 0 6) (bvBits ((s.core c).s r.rs2) 0 8))).retire c))
  ∧ (∀ (c : CoreId) (r : RArg) (s : State) (m : Word × Word) (x : CoreSt), Ready s c (encR 0x31 r 0) → r.rs2 = 0 → r.fx = 0 →
    s.aborting c = false → (s.core c).takeMsg = some (m, x) →
    exec (.recv c r) s = .next ((s.setCore c (x.putMsg r.rd r.rs1 m)).retire c))
  ∧ (∀ (c : CoreId) (r : RArg) (s : State), Ready s c (encR 0x31 r 0) → r.rs2 = 0 → r.fx = 0 →
    s.aborting c = false → (s.core c).takeMsg = none →
    exec (.recv c r) s = .next (s.suspend c 3 (.recv r.rd r.rs1)))
  ∧ (∀ (c : CoreId) (r : RArg) (s : State), Ready s c (encR 0x31 r 1) → r.rs2 = 0 → r.fx = 0 →
    exec (.recvnb c r) s = .next (match (s.core c).takeMsg with
      | some (m, x) => (s.setCore c (x.putMsg r.rd r.rs1 m)).retire c
      | none => (s.updCore c (fun x => x.setS r.rs1 0xFFFFFFFF)).retire c))
  ∧ (∀ (c : CoreId) (sender payload : Word) (s : State), (s.core c).rx0.length < 6 → (s.core c).wait = none →
    exec (.messageDelivery c false sender payload) s = .next ((s.recvMsg (.cnet c false sender payload)).updCore c
      (fun x => { x with rx0 := x.rx0 ++ [(sender, payload)] })))
  ∧ (∀ (c : CoreId) (sender payload : Word) (s : State), (s.core c).rx1.length < 2 → (s.core c).wait = none →
    exec (.messageDelivery c true sender payload) s = .next ((s.recvMsg (.cnet c true sender payload)).updCore c
      (fun x => { x with rx1 := x.rx1 ++ [(sender, payload)] })))
  ∧ (∀ (c : CoreId) (r : RArg) (s : State) (k : Nat), Ready s c (encR 0x36 r 6) → resR r = false → s.aborting c = false →
    s.fenced c = true → (s.core c).task = some k →
    (descRearm (s.task (vatOf c) k).desc && descGateEn (s.task (vatOf c) k).desc) = false →
    exec (.halt c r) s = .next (s.haltEnd c false))
  ∧ (∀ (c : CoreId) (d : DArg) (s : State), Ready s c (encD 0x2A d 4) → accRes d = false →
    s.samePart (vatOf c) (tagVat ((s.core c).ptag.setWidth 16)) = true → s.signBlocked (vatOf c) (idxOf c) = false →
    exec (.accPart c d) s = .next (((s.members c).foldl (fun t m => (predLanes (t.core m) d.pm).foldl (fun u i =>
      (u.sign (vatOf c) (idxOf c) (evPart (((t.core m).lane d.ad.toNat i).toPartial (s.core c).ptag i))).send
        (.part m (((t.core m).lane d.ad.toNat i).toPartial (s.core c).ptag i))) t) s).retire c))

/-- R190 to R197: task slots and the dispatcher. -/
def Obligations.Tasks : Prop :=
  (∀ (v : VatId) (k : SlotIx) (data : Dword) (s : State), s.vatLive v = true → s.taskState v k = 0 →
    exec (.taskDescWrite v k false data) s = .next (s.setReg VAT_TASK_DESC (data &&& 0x007FFFFFFF3FFFFF) v k))
  ∧ (∀ (v : VatId) (k : SlotIx) (data : Dword) (s : State), s.vatLive v = true → s.taskState v k = 0 →
    exec (.taskDescWrite v k true data) s = .next (s.setReg VAT_TASK_ARG (BitVec.ofNat 64 (bvBits data 0 32)) v k))
  ∧ (∀ (v : VatId) (k : SlotIx) (d : Dword) (s : State), s.vatLive v = true → s.taskState v k = 0 → d = s.reg VAT_TASK_DESC v k →
    descEntry d % 4 = 0 → s.isTarget v (descTarget d) = true → descGateEn d = false →
    (descOutEn d = true → s.tallyOk v (descOut d) = true) →
    exec (.taskLoad v k) s = .next ((s.setTaskSt v k
      { desc := d, arg := (s.reg VAT_TASK_ARG v k).setWidth 32 }).setTask v k 1 0))
  ∧ (∀ (v : VatId) (k : SlotIx) (d : Dword) (s : State), s.vatLive v = true → s.taskState v k = 0 → d = s.reg VAT_TASK_DESC v k →
    descEntry d % 4 = 0 → s.isTarget v (descTarget d) = true → descGateEn d = true → s.tallyOk v (descGate d) = true →
    (descOutEn d = true → s.tallyOk v (descOut d) = true) →
    exec (.taskLoad v k) s = .next (((s.setTaskSt v k
      { desc := d, arg := (s.reg VAT_TASK_ARG v k).setWidth 32 }).setTask v k 1 0).registerGate v k))
  ∧ (∀ (v : VatId) (k : SlotIx) (s : State), s.vatLive v = true → s.taskState v k = 1 →
    exec (.taskReady v k) s = .next (s.setTask v k 2 0))
  ∧ (∀ (v : VatId) (k : SlotIx) (s : State), s.vatLive v = true → (s.taskState v k = 1 ∨ s.taskState v k = 2) →
    exec (.taskCancel v k) s = .next (s.setTask v k 6 0))
  ∧ (∀ (v : VatId) (k : SlotIx) (s : State), s.vatLive v = true → s.taskState v k = 3 →
    exec (.taskCancel v k) s = .next (s.setFld VAT_TASK_CTL.ABORT 1 v k))
  ∧ (∀ (v : VatId) (k : SlotIx) (s : State), s.vatLive v = true → 5 ≤ s.taskState v k →
    exec (.taskRelease v k) s = .next ((s.setTaskSt v k {}).setTask v k 0 0))
  ∧ (∀ (v : VatId) (k : SlotIx) (s : State), s.vatLive v = true →
    exec (.taskCmdReserved v k) s = .next (s.bump VAT_PC_CMD_REJ v))
  ∧ (∀ (v k : VatId) (i : Nat) (s : State), s.canon = true → s.vatLive v = true → s.fatal = false → s.isTarget v k = true →
    s.targetIdle v k = true → s.pickSlot v k = some i → ∃ t, exec (.taskDispatch v k) s = .next t
      ∧ (t.core (64 * v.val + k.val)).task = some i
      ∧ (t.core (64 * v.val + k.val)).pc = BitVec.ofNat 16 (descEntry (s.task v i).desc)
      ∧ (t.core (64 * v.val + k.val)).s 1 = BitVec.ofNat 32 (256 * v.val + i)
      ∧ (t.core (64 * v.val + k.val)).s 2 = (s.task v i).arg ∧ t.mem = s.mem)

/-- R115, R198 to R204: tallies, their registers and the instructions on them. -/
def Obligations.Tallies : Prop :=
  (∀ (c : CoreId) (r : RArg) (t : Nat) (s : State), Ready s c (encR 0x32 r 0) → r.rd = 0 → r.fx = 0 →
    t = bvBits ((s.core c).s r.rs1) 0 14 → s.tallyOk (vatOf c) t = true → s.signBlocked (vatOf c) (idxOf c) = false →
    exec (.tinc c r) s = .next (((s.sign (vatOf c) (idxOf c) (evInc t ((s.core c).s r.rs2).toNat)).sendInc t
      ((s.core c).s r.rs2).toNat c).retire c))
  ∧ (∀ (c : CoreId) (r : RArg) (t : Nat) (s : State), Ready s c (encR 0x32 r 1) → r.rs2 = 0 → r.fx = 0 →
    t = bvBits ((s.core c).s r.rs1) 0 14 → s.tallyOk (vatOf c) t = true → s.aborting c = false →
    exec (.twait c r) s = .next (let u := (s.suspend c 2 (.twait r.rd t false)).send (.tnet (tReg t (vatOf c) c))
      { u with regQueue := u.regQueue ++ [(vatOf c, t, .core c)] }))
  ∧ (∀ (c : CoreId) (r : RArg) (t : Nat) (s : State), Ready s c (encR 0x32 r 2) → r.rs2 = 0 → r.fx = 0 →
    t = bvBits ((s.core c).s r.rs1) 0 14 → s.tallyOk (vatOf c) t = true →
    exec (.trd c r) s = .next ((s.updCore c (fun x => { x with blk := some { kind := .trd r.rd, fa := 0, word := encR 0x32 r 2, waits := [0] } })).send (.tnet (tRead t c))))
  ∧ (∀ (c : CoreId) (r : RArg) (t : Nat) (s : State), Ready s c (encR 0x32 r 3) → r.rd = 0 → r.fx = 0 →
    t = bvBits ((s.core c).s r.rs1) 0 14 → s.tallyOk (vatOf c) t = true →
    exec (.tsett c r) s = .next ((s.send (.tnet (tThr t ((s.core c).s r.rs2).toNat c))).retire c))
  ∧ (∀ (t : TallyId) (n : Word) (org : Nat) (s : State), s.vatLive (tallyVat t.toNat) = true →
    s.tnetOrder (tInc t.toNat n.toNat org) = true →
    exec (.tallyIncrement t n org) s =
      .next (((s.recvMsg (.tnet (tInc t.toNat n.toNat org))).tallyEcc t.toNat).tallyInc t.toNat n.toNat))
  ∧ (∀ (t : TallyId) (w : VatId) (org : Nat) (s u : State), s.vatLive (tallyVat t.toNat) = true →
    s.tnetOrder (tReg t.toNat w org) = true → u = (s.recvMsg (.tnet (tReg t.toNat w org))).tallyEcc t.toNat →
    exec (.tallyRegistration t w org) s = .next (if u.tallyThr t.toNat ≤ u.tallyCount t.toNat then
        u.send (.tnet (tRel t.toNat (u.tallyCount t.toNat) 0 w true))
      else (u.setFld VAT_TALLY_WAITV.WAITV (u.fld VAT_TALLY_WAITV.WAITV (tallyVat t.toNat) (t.toNat % 256) ||| 2 ^ w.val)
        (tallyVat t.toNat) (t.toNat % 256)).send (.tnet (tAck t.toNat w))))
  ∧ (∀ (w : VatId) (t : TallyId) (s u : State) (c : Nat) (rd : BitVec 5) (n : Nat) (b : Bool), s.tnetOrder (tAck t.toNat w) = true →
    (s.recvMsg (.tnet (tAck t.toNat w))).popReg w t.toNat = some (.core c, u) → (u.core c).wait = some (.twait rd n b) →
    exec (.tallyRegistrationAck w t) s = .next (u.updCore c (fun x => { x with wait := some (.twait rd n true) })))
  ∧ (∀ (w : VatId) (t : TallyId) (s u : State) (v k : Nat), s.tnetOrder (tAck t.toNat w) = true →
    (s.recvMsg (.tnet (tAck t.toNat w))).popReg w t.toNat = some (.slot v k, u) → u.haltingCore v k = none →
    exec (.tallyRegistrationAck w t) s = .next (u.setTaskSt v k { u.task v k with gate := .armed }))
  ∧ (∀ (w : VatId) (t : TallyId) (count : Word) (s : State), s.tnetOrder (tRel t.toNat count.toNat 0 w false) = true →
    exec (.tallyRelease w t count .reach false) s = .next
      (let u := s.recvMsg (.tnet (tRel t.toNat count.toNat 0 w false))
       let u := (u.armedCores w t.toNat).foldl (fun u e => u.wakeTwait e.1 e.2 count.toNat) u
       (u.armedSlots w t.toNat).foldl (fun u k => u.wakeSlot w k .reach) u))
  ∧ (∀ (t : TallyId) (c : CoreId) (s u : State), s.vatLive (tallyVat t.toNat) = true → s.tnetOrder (tRead t.toNat c) = true →
    u = (s.recvMsg (.tnet (tRead t.toNat c))).tallyEcc t.toNat →
    exec (.tallyRead t c) s = .next (u.send (.tnet (tReadReply t.toNat (u.tallyCount t.toNat) c))))
  ∧ (∀ (t : TallyId) (c : CoreId) (count : Word) (s : State) (b : Blocked) (rd : BitVec 5), (s.core c).blk = some b →
    b.kind = .trd rd → s.tnetOrder (tReadReply t.toNat count.toNat c) = true →
    exec (.tallyReadReply c t count) s = .next ((s.recvMsg (.tnet (tReadReply t.toNat count.toNat c))).blkData c 0 b
      (fun x => x.setS rd count)))
  ∧ (∀ (t : TallyId) (x : Word) (org : Nat) (s : State), s.vatLive (tallyVat t.toNat) = true →
    s.tnetOrder (tThr t.toNat x.toNat org) = true →
    exec (.tallySetThreshold t x org) s =
      .next (((s.recvMsg (.tnet (tThr t.toNat x.toNat org))).tallyEcc t.toNat).setThr t.toNat x.toNat))
  ∧ (∀ (t : TallyId) (x : Word) (s : State), s.vatLive (tallyVat t.toNat) = true →
    exec (.tallyCntWrite t x) s = .next ((s.setCount t.toNat x.toNat).releaseMet t.toNat))
  ∧ (∀ (t : TallyId) (x : Word) (s : State), s.vatLive (tallyVat t.toNat) = true →
    exec (.tallyThrWrite t x) s = .next ((s.setFld VAT_TALLY_THR.THRESH x.toNat (tallyVat t.toNat) (t.toNat % 256)).releaseMet t.toNat))
  ∧ (∀ (t : TallyId) (x : Word) (s : State), s.vatLive (tallyVat t.toNat) = true →
    exec (.tallyStepWrite t x) s = .next (s.setFld VAT_TALLY_STEP.STEP x.toNat (tallyVat t.toNat) (t.toNat % 256)))

/-! ### Churns, ladles, networks -/

/-- R209 to R211: the instructions of a churn program that compute. -/
def Obligations.ChurnArithmetic : Prop :=
  (∀ (v : VatId) (op : ChurnOp) (a : CArg) (s : State) (r : ChurnRun), ChurnReady s v (encC (churnOpCode op) a) r →
    exec (.churnAlu v op a) s = .next (s.churnNext v (r.setC a.rd (churnAlu op (r.c a.ra) (r.c a.rb)))))
  ∧ (∀ (v : VatId) (a : CArg) (s : State) (r : ChurnRun), ChurnReady s v (encC 0x0C a) r →
    exec (.churnAddi v a) s = .next (s.churnNext v (r.setC a.rd (r.c a.ra + a.imm.signExtend 64))))
  ∧ (∀ (v : VatId) (a : CArg) (s : State) (r : ChurnRun), ChurnReady s v (encC 0x0D a) r →
    exec (.churnShli v a) s = .next (s.churnNext v (r.setC a.rd ((r.c a.ra <<< 14) ||| a.imm.setWidth 64))))
  ∧ (∀ (v : VatId) (a : CArg) (s : State) (r : ChurnRun), ChurnReady s v (encC 0x10 a) r →
    exec (.churnLdl v a) s = .next (s.churnNext v (r.setC a.rd
      (smGet 0 (s.churn v).scratch (((r.c a.ra).toNat + a.imm.toNat) % 512)))))
  ∧ (∀ (v : VatId) (a : CArg) (s : State) (r : ChurnRun), ChurnReady s v (encC 0x11 a) r →
    exec (.churnStl v a) s = .next ((s.setChurn v { s.churn v with
      scratch := smSet 0 (s.churn v).scratch (((r.c a.ra).toNat + a.imm.toNat) % 512) (r.c a.rd) }).churnNext v r))
  ∧ (∀ (v : VatId) (a : CArg) (s : State) (r : ChurnRun) (b : Bool) (fl : Flags), ChurnReady s v (encC 0x12 a) r →
    fcmpElem 7 .b32 (r.f a.ra) (r.f a.rb) = (b, fl) →
    exec (.churnFlt v a) s = .next ((s.churnFlags v fl).churnNext v (r.setC a.rd (if b then 1 else 0))))
  ∧ (∀ (v : VatId) (op : ChurnF) (a : CArg) (s : State) (r : ChurnRun) (d : Nat) (fl : Flags), ChurnReady s v (encC (churnFCode op) a) r →
    vfpElem (match op with | .fadd => 0 | .fsub => 1 | .fmul => 2) .b32 ⟨0, 0⟩ (r.f a.ra) (r.f a.rb) 0 = (d, fl) →
    exec (.churnFarith v op a) s = .next ((s.churnFlags v fl).churnNext v (r.setC a.rd (BitVec.ofNat 64 d))))
  ∧ (∀ (v : VatId) (a : CArg) (s : State) (r : ChurnRun) (d : Nat) (fl : Flags), ChurnReady s v (encC 0x16 a) r →
    fexp2 (r.f a.ra) = (d, fl) →
    exec (.churnFexp2 v a) s = .next ((s.churnFlags v fl).churnNext v (r.setC a.rd (BitVec.ofNat 64 d))))
  ∧ (∀ (v : VatId) (a : CArg) (s : State) (r : ChurnRun) (d : Nat) (fl : Flags), ChurnReady s v (encC 0x17 a) r →
    frcp (r.f a.ra) = (d, fl) →
    exec (.churnFrcp v a) s = .next ((s.churnFlags v fl).churnNext v (r.setC a.rd (BitVec.ofNat 64 d))))
  ∧ (∀ (v : VatId) (a : CArg) (s : State) (r : ChurnRun), ChurnReady s v (encC 0x18 a) r →
    exec (.churnRng v a) s = .next ((s.setChurn v { s.churn v with rng := (rngStep (s.churn v).rng).2 }).churnNext v
      (r.setC a.rd (rngStep (s.churn v).rng).1)))
  ∧ (∀ (v : VatId) (a : CArg) (s : State) (r : ChurnRun) (k : Nat), ChurnReady s v (encC 0x19 a) r →
    k = bvBits (smGet 0 (s.churn v).scratch (a.imm.toNat % 512)) 0 7 → 1 ≤ k → k ≤ 64 →
    exec (.churnTopk v a) s = .next ((s.setChurn v { s.churn v with
      scratch := ((List.range k).zip (topInsert (r.c a.ra) ((List.range k).map (fun i =>
          smGet 0 (s.churn v).scratch ((a.imm.toNat % 512 + 1 + i) % 512))))).foldl
        (fun m (e : Nat × Dword) => smSet 0 m ((a.imm.toNat % 512 + 1 + e.1) % 512) e.2) (s.churn v).scratch }).churnNext v r))
  ∧ (∀ (v : VatId) (op : ChurnBr) (a : CArg) (s : State) (r : ChurnRun), ChurnReady s v (encC (churnBrCode op) a) r →
    exec (.churnBranch v op a) s = .next (s.churnNext v r (if (match op with
      | .beq => decide (r.c a.ra = r.c a.rb)
      | .bne => decide (r.c a.ra ≠ r.c a.rb)
      | .bltu => (r.c a.ra).ult (r.c a.rb)) then a.imm.toInt else 1)))

/-- R207 to R212: the instructions of a churn program that reach beyond it, and how it ends. -/
def Obligations.ChurnPrograms : Prop :=
  (∀ (v : VatId) (a : CArg) (s t : State) (r : ChurnRun) (ga : Dword), ChurnReady s v (encC 0x0E a) r → churnAddr r a % 8 = 0 →
    churnAddr r a < 2 ^ 48 → s.xlate v (churnAddr r a) false = .ga ga t →
    exec (.churnLd v a) s = .next ((t.setRun v (some { r with wait := some (.ld a.rd) })).send (.req (.churn v) 0 ga (.read 8))))
  ∧ (∀ (v : VatId) (a : CArg) (s t : State) (r : ChurnRun) (ga : Dword), ChurnReady s v (encC 0x0F a) r → churnAddr r a % 8 = 0 →
    churnAddr r a < 2 ^ 48 → s.xlate v (churnAddr r a) true = .ga ga t → (∀ st, r.stream = some st → t.signBlocked v st = false) →
    exec (.churnSt v a) s = .next (((match r.stream with
      | some st => t.sign v st (evLine ga (byteMask (churnAddr r a % 64) 8) (placeAt (churnAddr r a % 64) (r.c a.rd).toNat))
      | none => t).setRun v (some { r with wait := some .st })).send (.req (.churn v) 0 (ga &&& ~~~63)
      (.write (byteMask (churnAddr r a % 64) 8) (placeAt (churnAddr r a % 64) (r.c a.rd).toNat)))))
  ∧ (∀ (v : VatId) (s : State) (r : ChurnRun) (rd : BitVec 4) (d : Line), (s.churn v).run = some r → r.wait = some (.ld rd) →
    exec (.churnMemoryReply v (.data d)) s = .next ((s.recvMsg (.reply (.churn v) 0 (.data d))).churnNext v
      (r.setC rd (d.setWidth 64))))
  ∧ (∀ (v : VatId) (s : State) (r : ChurnRun), (s.churn v).run = some r → r.wait = some .st →
    exec (.churnMemoryReply v .done) s = .next ((s.recvMsg (.reply (.churn v) 0 .done)).churnNext v r))
  ∧ (∀ (v : VatId) (s : State) (r : ChurnRun) (w : ChurnWait), (s.churn v).run = some r → r.wait = some w → w ≠ .walk →
    exec (.churnRequestTimeout v .prog) s = .next ((s.recvMsg (.reply (.churn v) 0 .busError)).progFault v r.pc))
  ∧ (∀ (v : VatId) (a : CArg) (s : State) (r : ChurnRun) (t : Nat), ChurnReady s v (encC 0x1D a) r → t = bvBits (r.c a.ra) 0 14 →
    s.tallyOk v t = true → (∀ st, r.stream = some st → s.signBlocked v st = false) →
    exec (.churnTinc v a) s = .next (s.churnSigned v r (evInc t (bvBits (r.c a.rb) 0 32))
      (fun s => (s.sendInc t (bvBits (r.c a.rb) 0 32) (vatOrg v)).churnNext v r)))
  ∧ (∀ (v : VatId) (a : CArg) (s : State) (r : ChurnRun) (w : Nat), ChurnReady s v (encC 0x1E a) r → w = bvBits (r.c a.ra) 0 6 →
    s.samePart v w = true → (∀ st, r.stream = some st → s.signBlocked v st = false) →
    exec (.churnDbell v a) s = .next (s.churnSigned v r (evBell w (a.imm.toNat % 256))
      (fun s => (s.send (.doorbell w (a.imm.toNat % 256))).churnNext v r)))
  ∧ (∀ (v : VatId) (a : CArg) (s : State) (r : ChurnRun) (k : Nat), ChurnReady s v (encC 0x1F a) r → k = bvBits (r.c a.ra) 0 12 →
    s.srcCheck v k = none → (∀ st, r.stream = some st → s.signBlocked v st = false) →
    exec (.churnSend v a) s = .next (s.churnSigned v r
      (evMsg k ((s.partOf v).getD 0) (((r.c a.rb).setWidth 32 : Word).setWidth 64))
      (fun s => (s.send (.cnet k false (BitVec.ofNat 32 (0x10000 + v)) ((r.c a.rb).setWidth 32))).churnNext v r)))
  ∧ (∀ (v : VatId) (a : CArg) (s : State) (r : ChurnRun), ChurnReady s v (encC 0x20 a) r →
    exec (.churnEnd v a) s = .next (s.setRun v none))
  ∧ (∀ (v : VatId) (w : Word) (s : State) (r : ChurnRun), s.vatLive v = true → (s.churn v).run = some r → r.wait = none →
    r.count < 65536 → smGet 0 r.prog r.pc = w → churnReserved w = true →
    exec (.churnReservedOp v w) s = .next (s.progFault v r.pc))
  ∧ (∀ (v : VatId) (s : State) (r : ChurnRun), s.vatLive v = true → (s.churn v).run = some r → r.wait = none → 65536 ≤ r.count →
    exec (.churnInstructionLimit v) s = .next (s.progFault v r.pc))

/-- R205 to R209, R211: the reduction entries of a churn and its invocations. -/
def Obligations.Reductions : Prop :=
  (∀ (v : VatId) (src : Nat) (p : Partial) (s : State), s.accepts v = true → tagVat p.tag = v → partialMalformed p false = false →
    s.earlyFull v p = false → s.signBlocked v (64 + p.tag.toNat % 64) = false →
    exec (.churnPartial v src p) s = .next ((s.recvMsg (.part src p)).redHandle 17 v p))
  ∧ (∀ (v : VatId) (src : Nat) (p : Partial) (s : State), s.accepts v = true → tagVat p.tag = v → partialMalformed p false = true →
    s.earlyFull v (partialSanitised p) = false → s.signBlocked v (64 + p.tag.toNat % 64) = false →
    exec (.churnPartial v src p) s = .next ((s.recvMsg (.part src p)).redHandle 17 v (partialSanitised p)))
  ∧ (∀ (v : VatId) (e : EntryIx) (l : Fin 16) (va : Nat) (ga : Dword) (s : State),
    (s.redLane v e l).out.find? (fun o => o.1 = va) = some (va, ga) →
    exec (.redResultWriteAck v e l va .ok) s = .next (((s.recvMsg (.reply (.redEntry v e l) va .done)).setRedLane v e l
      { s.redLane v e l with out := (s.redLane v e l).out.erase (va, ga) }).redTry v e))
  ∧ (∀ (v : VatId) (e : EntryIx) (data : Dword) (s : State), s.vatLive v = true → s.bit VAT_RED_STAT.BUSY v e = false →
    s.bit VAT_RED_STAT.FAULT v e = false →
    exec (.redCfgWrite v e data) s = .next (s.setReg VAT_RED_CFG (data &&& 0x007FFFFFFFFFFFFF) v e))
  ∧ (∀ (v : VatId) (e : EntryIx) (data : Dword) (s : State), s.vatLive v = true → s.bit VAT_RED_STAT.BUSY v e = false →
    exec (.redDstWrite v e data) s = .next (s.setReg VAT_RED_DST (data &&& 0xFFFFFFFFFFFF) v e))
  ∧ (∀ (v : VatId) (e : EntryIx) (data : Dword) (s : State), s.vatLive v = true → s.bit VAT_RED_STAT.BUSY v e = false →
    exec (.redXfwdWrite v e data) s = .next (s.setReg VAT_RED_XFWD (data &&& 0xFFFFFFFF) v e))
  ∧ (∀ (v : VatId) (s : State) (i : Invoc) (is : List Invoc) (r : ChurnRun), s.accepts v = true → (s.churn v).run = none →
    (s.churn v).invq = i :: is →
    r = { stream := if i.kind = 0 then some (64 + i.arg.toNat % 64) else none
          pc := i.entry
          regs := smSet 0 (smSet 0 [] 1 (i.arg.setWidth 64)) 2 (BitVec.ofNat 64 i.kind)
          prog := (List.range 2048).filterMap (fun k =>
            if (s.reg VAT_CHURN_PROG v k).setWidth 32 = (0 : Word) then none
            else some (k, (s.reg VAT_CHURN_PROG v k).setWidth 32)) } →
    exec (.churnInvocationStart v) s = .next ((List.range 64).foldl (fun s e => s.redTry v e)
      (s.setChurn v { s.churn v with invq := is, run := some r })))
  ∧ (∀ (v : VatId) (data : Dword) (s : State), s.accepts v = true → (s.churn v).invq.length < 16 →
    exec (.churnCallWrite v data) s = .next (s.invoke v ⟨bvBits data 32 11, data.setWidth 32, 1⟩))
  ∧ (∀ (v : VatId) (seed : Word) (s : State), s.vatLive v = true →
    exec (.churnSeedWrite v seed) s = .next ((s.setFld VAT_CHURN_SEED.SEED seed.toNat v).setChurn v { s.churn v with k := 0 }))
  ∧ (∀ (v : VatId) (seed : Dword) (s : State), s.vatLive v = true →
    exec (.churnRseedWrite v seed) s = .next ((s.setReg VAT_CHURN_RSEED seed v).setChurn v
      { s.churn v with rng := if seed = 0 then 0x9E3779B97F4A7C15 else seed }))

/-- R213 to R218: ladles. A descriptor that begins runs until it waits. -/
def Obligations.Ladles : Prop :=
  (∀ (v : VatId) (l : LadleIx) (s : State) (d : LItem), LadleReady s v l d → d.op = 1 →
    exec (.ladleCopy v l) s = .next (State.ladlePump 16 (s.setLadle v l { s.ladle v l with act := some {} }) v l))
  ∧ (∀ (v : VatId) (l : LadleIx) (s : State) (d : LItem), LadleReady s v l d → d.op = 2 →
    exec (.ladleFill v l) s = .next (State.ladlePump 16 (s.setLadle v l { s.ladle v l with act := some {} }) v l))
  ∧ (∀ (v : VatId) (l : LadleIx) (s : State) (d : LItem), LadleReady s v l d → d.op = 3 →
    exec (.ladleInject v l) s = .next (State.ladlePump 16 (s.setLadle v l { s.ladle v l with act := some {} }) v l))
  ∧ (∀ (v : VatId) (l : LadleIx) (s : State) (d : LItem), LadleReady s v l d → d.op = 4 →
    exec (.ladleUnpack6 v l) s = .next (State.ladlePump 16 (s.setLadle v l { s.ladle v l with act := some {} }) v l))
  ∧ (∀ (v : VatId) (l : LadleIx) (s : State) (d : LItem), LadleReady s v l d → d.op = 5 →
    exec (.ladlePack6 v l) s = .next (State.ladlePump 16 (s.setLadle v l { s.ladle v l with act := some {} }) v l))
  ∧ (∀ (v : VatId) (l : LadleIx) (s : State) (d : LItem), LadleReady s v l d → d.op = 6 → s.accepts d.callVat = true →
    s.invFull d.callVat = false →
    exec (.ladleCall v l) s = .next ((s.invoke d.callVat ⟨bvBits d.aux 32 11, d.aux.setWidth 32, 2 + 2 ^ 8 * v.val⟩).ladleDone v l d))
  ∧ (∀ (v : VatId) (l : LadleIx) (s : State) (a : LAct) (d : LItem) (ds : List LItem) (tag n : Nat) (ga : Dword) (x : Line),
    s.fld VAT_LADLE_STAT.STATE v l = 1 → (s.ladle v l).act = some a → (s.ladle v l).queue = d :: ds → a.rd = some (tag, n, ga) →
    d.op ≠ 4 → d.op ≠ 5 →
    exec (.ladleReadReply v l (.data x)) s = .next (State.ladlePump 16 ((s.recvReply (.ladle v l) tag).setAct v l
      { a with rd := none, obuf := a.obuf + x.toNat % 2 ^ (8 * n) * 2 ^ (8 * a.olen), olen := a.olen + n, soff := a.soff + n }) v l))
  ∧ (∀ (v : VatId) (l : LadleIx) (tag : Nat) (s : State) (a : LAct) (w : Nat × Dword × Bool),
    s.fld VAT_LADLE_STAT.STATE v l = 1 → (s.ladle v l).act = some a → a.wrs.find? (fun w => w.1 = tag) = some w →
    exec (.ladleWriteAck v l tag .ok) s = .next (State.ladlePump 16
      ((s.recvReply (.ladle v l) tag).setAct v l { a with wrs := a.wrs.erase w }) v l))
  ∧ (∀ (v : VatId) (l : LadleIx) (tag : Nat) (s : State) (a : LAct) (w : Nat × Dword × Bool),
    s.fld VAT_LADLE_STAT.STATE v l = 1 → (s.ladle v l).act = some a → a.rd = none → a.wrs.find? (fun w => w.1 = tag) = some w →
    exec (.ladleRequestTimeout v l tag) s =
      .next (((s.recvReply (.ladle v l) tag).setAct v l { a with wrs := a.wrs.erase w }).ladleStop v l 3 (some w.2.1)))
  ∧ (∀ (c : CoreId) (line : Nat) (data : Line) (time : Nat) (s t : State), s.bit VAT_CORE_STAT.CC_INIT (vatOf c) (idxOf c) = false →
    (s.core c).findLine line = none →
    (s.recvMsg (.inject c line data time)).install c .l { valid := true, line := line, data := data, rtime := time } = .done t →
    exec (.ladleInjectionArrival c line data time) s = .next (t.injectAcked c line))
  ∧ (∀ (v : VatId) (l : LadleIx) (s t : State), s.vatLive v = true → (s.ladle v l).stg = [] →
    t = (s.ladle v l).queue.foldl (fun s _ => s.bump VAT_LADLE_PC_FLUSHED v l) s →
    exec (.ladleFlush v l) s = .next ((t.setLadle v l { s.ladle v l with
      queue := [], stg := [], act := (s.ladle v l).act.map (fun a => { a with hold := none }) }).setFld VAT_LADLE_STAT.STATE 3 v l))
  ∧ (∀ (v : VatId) (l : LadleIx) (s : State), s.fld VAT_LADLE_STAT.STATE v l = 3 → (s.ladle v l).act = none →
    exec (.ladleFlushComplete v l) s = .next ((s.setLadle v l { s.ladle v l with act := none }).setFld VAT_LADLE_STAT.STATE 0 v l))
  ∧ (∀ (v : VatId) (l : LadleIx) (s : State), s.vatLive v = true → s.fld VAT_LADLE_STAT.STATE v l = 2 →
    exec (.ladleResume v l) s = .next (s.setFld VAT_LADLE_STAT.STATE (if (s.ladle v l).queue = [] then 0 else 1) v l))

/-- R215, R216: submission to a ladle, by an instruction and by the staging registers. -/
def Obligations.LadleSubmission : Prop :=
  (∀ (c : CoreId) (r : RArg) (s t : State) (code seq : Nat), Ready s c (encR 0x33 r 0) → r.fx = 0 → r.rs2.getLsbD 4 = false →
    s.signBlocked (vatOf c) (idxOf c) = false →
    s.ladleSubmit (vatOf c) (bvBits ((s.core c).s r.rs1) 0 2) (lineWords ((s.core c).v (bvBits r.rs2 0 4))) false (some (idxOf c))
      = (t, code, seq) →
    exec (.lsubmit c r) s = .next ((t.updCore c (fun x => x.setS r.rd (BitVec.ofNat 32 (code + seq * 2 ^ 16)))).retire c))
  ∧ (∀ (v : VatId) (l : LadleIx) (data : Dword) (s : State), s.vatLive v = true → (s.ladle v l).stg = [] →
    exec (.ladleStageStart v l data) s = .next ((s.setLadle v l { s.ladle v l with stg := [data] }).setFld VAT_LADLE_STG_STAT.DISCARD 0 v l))
  ∧ (∀ (v : VatId) (l : LadleIx) (w : Fin 8) (data : Dword) (s : State), s.vatLive v = true → w.val ≠ 0 → w.val ≠ 7 →
    (s.ladle v l).stg.length = w → s.bit VAT_LADLE_STG_STAT.DISCARD v l = false →
    exec (.ladleStageWord v l w data) s = .next (s.setLadle v l { s.ladle v l with stg := (s.ladle v l).stg ++ [data] }))
  ∧ (∀ (v : VatId) (l : LadleIx) (data : Dword) (privileged : Bool) (s t : State) (seq : Nat), s.accepts v = true →
    s.stgTakes v l 7 = true →
    (s.setLadle v l { s.ladle v l with stg := [] }).ladleSubmit v l ((s.ladle v l).stg ++ [data]) privileged none = (t, 0, seq) →
    exec (.ladleStageCommit v l data privileged) s =
      .next ((t.setFld VAT_LADLE_STG_STAT.LAST_CODE 0 v l).setFld VAT_LADLE_STG_STAT.LAST_SEQ seq v l))

/-- R219, R228, R232 to R256: the reset of a vat and its end; routers, credits, reduction slots, the T-net and the firmware
broadcast. -/
def Obligations.VatResetAndNetworks : Prop :=
  (∀ (v : VatId) (s : State), s.vatLive v = true →
    exec (.vatReset v) s = .next (State.resetUnits (State.specReset
      ((s.setFld VAT_STAT.RESETTING 1 v).setFld VAT_STAT.EPOCH ((s.fld VAT_STAT.EPOCH v + 1) % 256) v) v) v))
  ∧ (∀ (v : VatId) (s : State), s.bit VAT_STAT.RESETTING v = true →
    exec (.vatResetComplete v) s = .next ((((List.range 64).foldl (fun t k => t.setFld VAT_CORE_STAT.CC_INIT 0 v k) s).setFld
      VAT_STAT.RESETTING 0 v).readyStages v))
  ∧ (∀ (v : VatId) (px : Fin 8) (py : Fin 9) (hdr : Dword) (msg d : Nat) (s : State), s.bit VAT_ECC_INJ.ARM v = false →
    badHeader false hdr = false →
    routeDir (8 * (v.val % 8) + px) (9 * (v.val / 8) + py) (bvBits hdr 0 6) (bvBits hdr 6 7) = some d →
    s.credUsed 0 (routerLoc v px py + d * 2 ^ 13) (bvBits hdr 30 2) < 4 →
    exec (.routerPacket false v px py hdr .ok false msg) s = .next ((s.setCred 0 (routerLoc v px py + d * 2 ^ 13) (bvBits hdr 30 2)
      (s.credUsed 0 (routerLoc v px py + d * 2 ^ 13) (bvBits hdr 30 2) + 1)).countFlits v px py (some d) (bvBits hdr 32 3 + 1)))
  ∧ (∀ (pool : BitVec 4) (inst : BitVec 16) (vc : Fin 3) (s : State), 0 < s.credUsed pool.toNat inst.toNat vc →
    exec (.creditReturn pool inst vc) s =
      .next (s.setCred pool.toNat inst.toNat vc (s.credUsed pool.toNat inst.toNat vc - 1)))
  ∧ (∀ (v : VatId) (px : Fin 8) (py : Fin 9) (src : Nat) (p : Partial) (s : State), s.bit VAT_NET_CTL.MERGE v = false →
    s.partCredit v px py p = true → exec (.routerPartial v px py src p) s = .next (s.partOut v px py p))
  ∧ (∀ (v : VatId) (px : Fin 8) (py : Fin 9) (src : Nat) (p : Partial) (s : State), s.bit VAT_NET_CTL.MERGE v = true →
    s.fld VAT_NET_CTL.HOLD v ≠ 0 → partialMalformed p false = false → p.merged ≠ expectCount p.expect →
    (∀ k < 8, s.slot (routerLoc v px py) k = none) →
    exec (.routerPartial v px py src p) s =
      .next ((s.recvMsg (.part src p)).setSlot (routerLoc v px py) 0 (some ⟨p, s.fld MC_TSC.COUNT, false⟩)))
  ∧ (∀ (v : VatId) (px : Fin 8) (py : Fin 9) (k : Fin 8) (x : RedSlot) (s : State), s.slot (routerLoc v px py) k = some x →
    x.marked = false → x.time + s.fld VAT_NET_CTL.HOLD v ≤ s.fld MC_TSC.COUNT →
    exec (.reductionSlotHoldExpiry v px py k) s =
      .next ((s.setSlot (routerLoc v px py) k (some { x with marked := true })).bump VAT_NET_PC_HOLDFWD v))
  ∧ (∀ (v : VatId) (px : Fin 8) (py : Fin 9) (k : Fin 8) (x : RedSlot) (p : Partial) (s : State),
    s.slot (routerLoc v px py) k = some x → x.marked = true → p = { x.part with wins := encodeAcc (partialValue x.part) } →
    s.partCredit v px py p = true →
    exec (.reductionSlotForward v px py k) s =
      .next (((s.setSlot (routerLoc v px py) k none).partOut v px py p).send (.part (16384 + routerLoc v px py) p)))
  ∧ (∀ (off : BitVec 16) (vats : BitVec 64) (line : Line) (s : State), off.toNat ≤ 65472 →
    exec (.firmwareBroadcast off vats [line]) s = .next ((((List.range 64).filter (fun v => vats.getLsbD v && s.domOn v)).flatMap
      (fun v => (List.range 64).map (fun k => 64 * v + k))).foldl (fun t c =>
        { t with mem := Memory.write t.mem (csBase c + off.toNat) (2 ^ 64 - 1) line.toNat 64 }) s))
  ∧ (∀ (v : VatId) (bits : BitVec 104) (i : BitVec 16) (msg : Nat) (s : State), bvBits bits 0 4 < 7 → s.credUsed 3 i.toNat 0 < 4 →
    exec (.tnetMessage v bits .ok (some i) msg) s = .next (s.setCred 3 i.toNat 0 (s.credUsed 3 i.toNat 0 + 1)))
  ∧ (∀ (v : VatId) (i : Fin 4096) (data : Word) (s : State),
    exec (.dtabWrite v i data true) s = .next (s.setReg VAT_NET_DTAB (BitVec.ofNat 64 (bvBits data 0 22)) v i))

/-! ### Speculation units -/

/-- R258 to R290: what the units of drafter and verifier send each other, and verdicts. -/
def Obligations.SpeculationAndVerdicts : Prop :=
  (∀ (v : VatId) (d : Dword) (s : State), SpecReady s v → s.specState v = 1 → s.specRole v = 2 → s.specPathHeld v = false →
    cmdOp d = 1 → cmdWellFormed d = true →
    exec (.specOpen v d) s = .next ((s.setSpec v { s.spec v with
      waits := (s.spec v).waits ++ [(cmdN d, cmdRa d, cmdTok d)] }).specToPeer v (.open d)))
  ∧ (∀ (v : VatId) (d : Dword) (s : State), SpecReady s v → s.specState v = 1 → s.specRole v = 2 → s.specPathHeld v = false →
    cmdOp d = 2 → cmdWellFormed d = true → exec (.specToken v d) s = .next (s.specToPeer v (.token d)))
  ∧ (∀ (v : VatId) (d : Dword) (s : State), SpecReady s v → s.specState v = 1 → s.specRole v = 2 → s.specPathHeld v = false →
    cmdOp d = 4 → cmdWellFormed d = true → cmdReason d ≤ 1 →
    exec (.specEnd v d) s = .next ((s.specToPeer v (.fin d)).specEnd v (cmdReason d)))
  ∧ (∀ (v : VatId) (d : Dword) (s : State), SpecReady s v → s.specState v = 1 → s.specLead v = true → cmdOp d = 4 →
    cmdWellFormed d = true → cmdReason d ≤ 1 → exec (.specEnd v d) s = .next (s.specEnd v (cmdReason d)))
  ∧ (∀ (v : VatId) (d : Dword) (s : State), SpecReady s v → s.specState v = 1 → s.specRole v ≠ 2 → cmdWellFormed d = false →
    exec (.specCmdReserved v d) s = .next ((s.bumpErr VAT_SPEC_ERR.BAD_CMD v).raiseVat v 6))
  ∧ (∀ (v : VatId) (d : Dword) (s r t u w : State) (e start n : Nat) (need : List Nat), SpecArrives s v (.open d) → cmdOp d = 1 →
    s.specRing v = false → r = s.recvMsg (.spec s.devId v (.open d)) → r.openCheck v d = none → cmdRa d = false →
    e = (s.spec v).next → start = s.fld VAT_SPEC_POS.L v → n = cmdN d → need = r.blkNeed v (start - 1) (start + n - 1) →
    start + n - 1 < s.fld VAT_SPEC_BCFG.NBLK v * 2 ^ s.fld VAT_SPEC_BCFG.BLKLOG v →
    need.length ≤ (r.specFree v).1 + (r.specFree v).2 →
    t = r.setSpec v { r.spec v with
      epochs := (r.spec v).epochs ++ [{ e := e, s := start, n := n, ra := false, g := cmdTok d }], next := nextEpoch e } →
    u = (t.blkAllocAll v e false need).1 →
    w = u.specWrite v [⟨1, u.dbufVa v e, 64, e + start * 2 ^ 32 + n * 2 ^ 64 + 0 + cmdTok d * 2 ^ 96⟩, ⟨1, u.dbufVa v e + 64, 64, 0⟩] →
    exec (.specPeerOpen v d) s = .next
      (((w.specSync v).specToPeer v (.answer (some (BitVec.ofNat 32 e, BitVec.ofNat 32 start)))).specRun v))
  ∧ (∀ (v : VatId) (s : State) (k : Nat × Bool × Nat) (ks : List (Nat × Bool × Nat)), SpecArrives s v (.answer none) →
    s.specState v = 1 → (s.spec v).waits = k :: ks →
    exec (.specOpenAnswer v none) s = .next ((s.recvMsg (.spec s.devId v (.answer none))).setSpec v { s.spec v with waits := ks }))
  ∧ (∀ (v : VatId) (d : Dword) (s : State) (ep : SpecEpoch) (w : State), SpecArrives s v (.token d) → cmdOp d = 2 →
    s.specRing v = false → s.specState v = 1 → s.specRole v = 1 → cmdWellFormed d = true → (s.spec v).epochs.getLast? = some ep →
    ep.toks < ep.n → cmdN d = ep.toks →
    w = ((s.recvMsg (.spec s.devId v (.token d))).setSpec v { s.spec v with
      epochs := (s.spec v).epochs.dropLast ++ [{ ep with toks := ep.toks + 1 }] }).bump VAT_SPEC_PC_DRAFT v →
    exec (.specPeerToken v d) s = .next ((w.specWrite v
      [⟨1, w.dbufVa v ep.e + 0x10 + 4 * cmdN d, 4, cmdTok d⟩,
       ⟨1, w.dbufVa v ep.e + 0x30 + 4 * cmdN d, 4, bvBits d 32 32⟩]).specRun v))
  ∧ (∀ (v : VatId) (d : Dword) (s : State), SpecArrives s v (.fin d) → cmdOp d = 4 → s.specRing v = false → s.specState v = 1 →
    s.specRole v = 1 → cmdWellFormed d = true → cmdReason d ≤ 1 →
    exec (.specPeerEnd v d) s = .next ((s.recvMsg (.spec s.devId v (.fin d))).specEnd v (cmdReason d)))
  ∧ (∀ (v : VatId) (d : Dword) (s : State) (ep : SpecEpoch) (es : List SpecEpoch) (m : SpecMsg), SpecReady s v → cmdOp d = 3 →
    cmdWellFormed d = true → s.specState v = 1 → s.specNoRoom v 3 = false → s.specLead v = true → (s.spec v).epochs = ep :: es →
    verdE d = ep.e % 2 ^ 16 → ep.n ≤ ep.toks → verdA d ≤ ep.n →
    m = .verdict d (BitVec.ofNat 32 ep.e) (BitVec.ofNat 32 ep.s) (BitVec.ofNat 3 ep.n) →
    exec (.specVerdict v d) s = .next ((((s.specFollowers v).foldl (fun t k => t.specSend v k 64 m) s).specToPeer v m).specVerdict v
      ep.e ep.s ep.n (verdA d) (verdY d)))
  ∧ (∀ (v : VatId) (dev : BitVec 14) (d : Dword) (e st : Word) (n : BitVec 3) (s : State) (ep : SpecEpoch) (es : List SpecEpoch),
    SpecArrives s v (.verdict d e st n) → s.specState v = 1 → s.specRole v = 1 → s.specLead v = false →
    dev.toNat = s.fld VAT_SPEC_LEAD.LEAD_DEV v → (s.spec v).epochs = ep :: es → ep.e = e.toNat → ep.s = st.toNat → ep.n = n.toNat →
    exec (.specFollowerVerdict v dev d e st n) s = .next (((s.recvMsg (.spec s.devId v (.verdict d e st n))).specToPeer v
      (.verdict d e st n)).specVerdict v ep.e ep.s ep.n (verdA d) (verdY d)))
  ∧ (∀ (v : VatId) (d : Dword) (e st : Word) (n : BitVec 3) (s : State), SpecArrives s v (.verdict d e st n) → s.specState v = 1 →
    s.specRole v = 2 →
    exec (.specDrafterVerdict v d e st n) s = .next ((s.recvMsg (.spec s.devId v (.verdict d e st n))).specVerdict v
      e.toNat st.toNat n.toNat (verdA d) (verdY d)))
  ∧ (∀ (v : VatId) (s : State) (ep : SpecEpoch) (es : List SpecEpoch), SpecReady s v → s.specState v = 1 → s.specRole v = 1 →
    (s.spec v).epochs = ep :: es → ep.presented = false → ep.n ≤ ep.toks → (s.spec v).todo = [] → (s.spec v).outs = [] →
    (s.spec v).outq.length < 32 →
    exec (.specPresent v) s = .next ((s.setSpec v { s.spec v with epochs := { ep with presented := true } :: es }).specTally v
      VAT_SPEC_TALLY.SUB_EN VAT_SPEC_TALLY.SUBMIT 1))
  ∧ (∀ (v : VatId) (s : State), s.vatLive v = true → s.hasSpec v = true →
    exec (.specPeerLost v) s = .next ((s.recvMsg (.spec s.devId v .lost)).specFault v 6))

/-- R270, R278 to R290, R295: replies to a speculation unit, its control and its configuration. -/
def Obligations.SpeculationControl : Prop :=
  (∀ (v : VatId) (tag : Nat) (s : State) (o : Nat × Nat × Nat × Dword), (s.spec v).outs.find? (fun o => o.1 = tag) = some o →
    exec (.specMemoryWriteAck v tag .ok) s = .next ((((s.recvReply (.specUnit v) tag).setSpec v { s.spec v with
      outs := (s.spec v).outs.erase o }).specRun v).specVerdEnd v))
  ∧ (∀ (v : VatId) (tag : Nat) (s : State) (o : Nat × Nat × Nat × Dword), (s.spec v).rb = none →
    (s.spec v).outs.find? (fun o => o.1 = tag) = some o →
    exec (.specRequestTimeout v tag) s = .next (((s.recvReply (.specUnit v) tag).setSpec v { s.spec v with
      outs := (s.spec v).outs.erase o }).specMemFault v o.2.1 o.2.2.2 true))
  ∧ (∀ (v : VatId) (tag upto : Nat) (ga : Dword) (s t : State), (s.spec v).rb = some (tag, upto, ga) → (s.spec v).rbNext = none →
    t = (s.recvReply (.specUnit v) tag).setSpec v { s.spec v with rb := none } →
    exec (.specRingReadback v .ok) s = .next (((t.specIssue v 2 (t.hostGa (t.ringOff v 0)) false 4 (upto % 2 ^ 32)).setFld
      VAT_SPEC_PROD.PROD upto v).raiseVat v 7))
  ∧ (∀ (v : VatId) (s t u : State), (s.spec v).todo = [] → (s.spec v).outs = [] → (s.spec v).rb = none → SpecReady s v →
    s.specState v = 0 → s.specCheck v = true → s.fld VAT_SPEC_PLEN.PLEN v = 1 →
    t = s.setSpec v { s.spec v with epochs := [], next := 1, waits := [], outq := [], wseq := 0, rbNext := none, posted := [] } →
    u = (t.setFld VAT_SPEC_POS.L 1 v).specSync v → u.specRing v = false →
    exec (.specCtlStart v) s = .next (((u.setFld VAT_SPEC_STAT.STATE 1 v).setFld VAT_SPEC_STAT.FAULT 0 v).specRun v))
  ∧ (∀ (v : VatId) (s : State), SpecReady s v → s.specState v = 1 → exec (.specCtlStop v) s = .next (s.specEnd v 2))
  ∧ (∀ (v : VatId) (s t : State) (n : Nat), s.accepts v = true → s.hasSpec v = true → s.signBlocked v 128 = false →
    (s.specState v = 0 ∨ s.specState v = 3) → n = s.fld VAT_SPEC_BCFG.NSTREAM v * s.fld VAT_SPEC_BCFG.NBLK v * 8 →
    t = s.setSpec v { s.spec v with epochs := [], waits := [], blocks := [], usedC := [], usedH := [], busy := none, outq := [],
                                    rb := none, rbNext := none, posted := [],
                                    todo := if n = 0 then [] else [⟨0, s.fld VAT_SPEC_BTAB.VA v, n, 0⟩] } →
    exec (.specCtlClear v) s = .next (((((t.setFld VAT_SPEC_STAT.STATE 0 v).setFld VAT_SPEC_STAT.FAULT 0 v).setFld
      VAT_SPEC_STAT.RING_HOLD 0 v).specSync v).specRun v))
  ∧ (∀ (v : VatId) (data : Word) (s : State), s.vatLive v = true → s.hasSpec v = true → s.specState v = 0 →
    exec (.specConsWrite v data) s = .next ((s.setFld VAT_SPEC_CONS.CONS data.toNat v).ringRun v))
  ∧ (∀ (v : VatId) (data : Dword) (s : State), s.vatLive v = true → s.hasSpec v = true → s.specState v = 0 →
    exec (.specConfigWrite v 0x20 data) s =
      .next (s.setFld VAT_SPEC_PLEN.PLEN (bvBits data VAT_SPEC_PLEN.PLEN.lo VAT_SPEC_PLEN.PLEN.width) v))
  ∧ (∀ (v : VatId) (s : State), SpecReady s v → s.specState v = 2 → (s.spec v).outq = [] → s.specRing v = false →
    exec (.specEndDrained v) s = .next (s.setFld VAT_SPEC_STAT.STATE 0 v))

/-! ### The Cream store, the crock, the cellar, translation -/

/-- R298 to R313: accesses of the Cream store. A line that the slice holds is read there; one it does not hold, and every
write, goes to its memory controller; a scratchpad and the fills answer at once. -/
def Obligations.CreamStore : Prop :=
  (∀ (src : Agent) (tag ch l v a id n : Nat) (ga : Dword) (err : HdrErr) (s t u w : State) (q : SliceReq) (d : Line),
    s.target ga = .here a → s.fatal = false → s.place a = .crock ch l → s.homeOf (.crock ch l) a = some v →
    s.sliceArrive v src tag ga (.read n) (a / 64) = some (t, id, q) → q.op = .read n → (t.slice v).reading q.line id = false →
    t.crmRegulate v q = (u, true) → u.crmLook v q err = (some d, w) →
    exec (.sliceRequest src tag ga (.read n) err) s =
      .next ((w.crmCount v q.rt VAT_CRM_PC_RD_HIT).sliceReply v id (.data (d >>> (8 * bvBits q.ga 0 6)))))
  ∧ (∀ (src : Agent) (tag p o v a id n : Nat) (ga : Dword) (err : HdrErr) (s t u w : State) (q : SliceReq),
    s.target ga = .here a → s.fatal = false → s.place a = .cellar p o → s.homeOf (.cellar p o) a = some v →
    s.sliceArrive v src tag ga (.read n) (a / 64) = some (t, id, q) → q.op = .read n → (t.slice v).reading q.line id = false →
    t.crmRegulate v q = (u, true) → u.crmLook v q err = (none, w) →
    exec (.sliceRequest src tag ga (.read n) err) s =
      .next (((w.crmCount v q.rt VAT_CRM_PC_RD_MISS).sliceWait v id).memSend
        { home := v, id := some id, line := q.line, write := none, part := q.part, rt := q.rt, ga := q.ga }))
  ∧ (∀ (src : Agent) (tag p o v a id : Nat) (ga : Dword) (m : Mask) (d : Line) (err : HdrErr) (s t u : State) (q : SliceReq),
    s.target ga = .here a → s.fatal = false → s.place a = .cellar p o → s.homeOf (.cellar p o) a = some v →
    s.sliceArrive v src tag ga (.write m d) (a / 64) = some (t, id, q) → q.op = .write m d → (t.slice v).reading q.line id = false →
    t.crmRegulate v q = (u, true) →
    exec (.sliceRequest src tag ga (.write m d) err) s =
      .next ((((u.crmCount v q.rt VAT_CRM_PC_WR).crmWrite v q.line m d).sliceWait v id).memSend
        { home := v, id := some id, line := q.line, write := some (m, d), part := q.part, rt := q.rt, ga := q.ga }))
  ∧ (∀ (src : Agent) (tag k off v a id n : Nat) (ga : Dword) (s t u : State) (q : SliceReq),
    s.target ga = .here a → s.fatal = false → s.place a = .scratch k off → s.homeOf (.scratch k off) a = some v →
    s.sliceArrive v src tag ga (.read n) (a / 64) = some (t, id, q) → t.scrCheck src k off = none → t.crmRegulate v q = (u, true) →
    (u.crmCount v q.rt VAT_CRM_PC_SCR).bit VAT_ECC_INJ.ARM v = false →
    exec (.scratchpadAccess src tag ga (.read n) .ok) s =
      .next ((u.crmCount v q.rt VAT_CRM_PC_SCR).sliceReply v id
        (.data ((u.crmCount v q.rt VAT_CRM_PC_SCR).readBytes a (64 - a % 64)))))
  ∧ (∀ (src : Agent) (tag k off v a id : Nat) (ga : Dword) (m : Mask) (d : Line) (s t u w : State) (q : SliceReq),
    s.target ga = .here a → s.fatal = false → s.place a = .scratch k off → s.homeOf (.scratch k off) a = some v →
    s.sliceArrive v src tag ga (.write m d) (a / 64) = some (t, id, q) → t.scrCheck src k off = none → t.crmRegulate v q = (u, true) →
    w = u.crmCount v q.rt VAT_CRM_PC_SCR → w.bit VAT_ECC_INJ.ARM v = false →
    exec (.scratchpadAccess src tag ga (.write m d) .ok) s =
      .next (State.sliceReply { w with mem := Memory.write w.mem (a / 64 * 64) m.toNat d.toNat 64 } v id .done))
  ∧ (∀ (src : Agent) (tag ch l v a id : Nat) (ga : Dword) (fn : Fin 10) (x e : Word) (err : HdrErr) (s t u w : State) (q : SliceReq)
      (d : Line) (b : AtomEnt),
    s.target ga = .here a → s.fatal = false → s.place a = .crock ch l → s.homeOf (.crock ch l) a = some v →
    s.sliceArrive v src tag ga (.atomic fn.val x e) (a / 64) = some (t, id, q) → (t.slice v).reading q.line id = false →
    t.crmRegulate v q = (u, true) → (u.crmCount v q.rt VAT_CRM_PC_ATOM).crmLook v q err = (some d, w) →
    (w.slice v).atom q.line = some b →
    exec (.atomicRequest src tag ga fn x e err) s = .next (w.atomApply v id q d))
  ∧ (∀ (v : VatId) (id : Nat) (d : Line) (s : State) (q : SliceReq) (n : Nat), smFind (s.slice v).slots id = some q → q.granted = true →
    q.op = .read n → (s.recvMsg (.fill v id (some d))).wayMask v q.part = 0 →
    exec (.sliceFill v id (some d)) s =
      .next ((s.recvMsg (.fill v id (some d))).sliceReply v id (.data (d >>> (8 * bvBits q.ga 0 6)))))
  ∧ (∀ (c : CoreId) (ga : Dword) (data : Line) (rtime a ch l v : Nat) (s t : State) (x : SliceSt),
    t = s.recvMsg (.victim c ga data rtime) → t.target ga = .here a → t.place a = .crock ch l → t.homeOf (.crock ch l) a = some v →
    t.victimDeclined v (a / 64) (t.partOf (vatOf c)) rtime = false →
    (t.slice v).alloc (t.wayMask v (t.partOf (vatOf c))) ⟨a / 64, data, false⟩ false = some x →
    exec (.victimOffer c ga data rtime) s = .next ((t.setSlice v x).bump VAT_CRM_PC_VICT_ACC v))
  ∧ (∀ (v : VatId) (j : Fin 8) (s : State), s.bit VAT_CRM_REG.EN v j = true →
    exec (.creamRegulatorTick v j) s = .next (s.setFld VAT_CRM_REG.LEVEL
      (min (s.fld VAT_CRM_REG.LEVEL v j + s.fld VAT_CRM_REG.RATE v j) (s.fld VAT_CRM_REG.BURST v j)) v j))
  ∧ (∀ (v : VatId) (j : Fin 8) (data : Dword) (s t : State), s.bit VAT_CRM_REG.EN v j = false →
    t = s.putFields [VAT_CRM_REG.PART, VAT_CRM_REG.EN, VAT_CRM_REG.RATE, VAT_CRM_REG.BURST] data v j →
    exec (.creamRegulatorWrite v j data) s =
      .next (if t.bit VAT_CRM_REG.EN v j then t.setFld VAT_CRM_REG.LEVEL (t.fld VAT_CRM_REG.BURST v j) v j else t))

/-- R324 to R343, R377: requests of a crock channel, its refresh, temperature, self-refresh and scrubbing, the `TEST` state and the
traffic generator. -/
def Obligations.CrockChannels : Prop :=
  (∀ (ch : ChanId) (line : BitVec 21) (acts id : Nat) (r : MemReq) (s t u : State) (info : Nat), s.crkHead ch line.toNat = some r →
    r.write = none → r.id = some id → s.crkState ch = 0 →
    s.bit CRK_CH_ECCSTAT.FAILED (ch.val / 16) (ch.val % 16) = false → (s.crk ch).poison = [] → s.validBit r.line = true →
    t = (State.bump { s with memq := s.memq.erase r } CRK_CH_PC_RD (ch.val / 16) (ch.val % 16)).bumpN CRK_CH_PC_ACT acts
      (ch.val / 16) (ch.val % 16) → t.crkDecode ch line.toNat [] 2 = (u, .good, info) →
    exec (.crockRead ch line [] none acts) s = .next (u.send (.fill r.home id (some (u.readBytes (r.line * 64) 64)))))
  ∧ (∀ (ch : ChanId) (line : BitVec 21) (errs : List (BitVec 20)) (acts id : Nat) (r : MemReq) (s : State),
    s.crkHead ch line.toNat = some r → r.write = none → r.id = some id → s.crkState ch = 0 →
    s.bit CRK_CH_ECCSTAT.FAILED (ch.val / 16) (ch.val % 16) = false → (s.crk ch).poison = [] → s.validBit r.line = false →
    exec (.crockRead ch line errs none acts) s =
      .next (State.send { s with memq := s.memq.erase r } (.fill r.home id (some 0))))
  ∧ (∀ (ch : ChanId) (line : BitVec 21) (errs : List (BitVec 20)) (acts : Nat) (r : MemReq) (m : Mask) (d : Line) (s t : State),
    s.crkHead ch line.toNat = some r → r.write = some (m, d) → s.crkState ch = 0 →
    s.bit CRK_CH_ECCSTAT.FAILED (ch.val / 16) (ch.val % 16) = false → (s.crk ch).poison = [] → s.validBit r.line = true →
    narrowMask m = false →
    t = (State.bump { s with memq := s.memq.erase r } CRK_CH_PC_WR (ch.val / 16) (ch.val % 16)).bumpN CRK_CH_PC_ACT acts
      (ch.val / 16) (ch.val % 16) →
    exec (.crockWrite ch line errs none acts) s =
      .next (State.memAck { t with mem := Memory.write t.mem (r.line * 64) m.toNat d.toNat 64 } r true))
  ∧ (∀ (ch : ChanId) (s : State), (s.crkState ch = 0 ∨ s.crkState ch = 4) →
    exec (.crockRefresh ch) s = .next (s.bump CRK_CH_PC_REF (ch.val / 16) (ch.val % 16)))
  ∧ (∀ (ch : ChanId) (x : BitVec 8) (s : State), s.canon = true → ∃ t, exec (.crockTempSample ch x x x x x) s = .next t
    ∧ t.fld CRK_CH_STAT.TEMP (ch.val / 16) (ch.val % 16) = x.toNat ∧ t.mem = s.mem)
  ∧ (∀ (ch : ChanId) (s : State), s.crkState ch = 0 → s.vatDark (chanVat ch) = true → s.crkBusy ch = false →
    exec (.crockSrIdleTimeout ch) s = .next (s.setFld CRK_CH_STAT.STATE 2 (ch.val / 16) (ch.val % 16)))
  ∧ (∀ (ch : ChanId) (s : State), s.crkState ch = 3 →
    exec (.crockSrExitDone ch) s = .next ((s.setFld CRK_CH_STAT.STATE 0 (ch.val / 16) (ch.val % 16)).bump CRK_CH_PC_SR_EXIT
      (ch.val / 16) (ch.val % 16)))
  ∧ (∀ (ch : ChanId) (line : BitVec 21) (errs : List (BitVec 20)) (s t : State) (a info : Nat), s.fatal = false → s.crkState ch = 0 →
    s.bit CRK_CH_STAT.INUSE (ch.val / 16) (ch.val % 16) = true → s.fld CRK_SCRUB.HOURS (ch.val / 16) ≠ 0 →
    line.toNat < 0x7FC0000 / 64 → s.crockDpa ch line.toNat = some a → s.validBit a = true →
    s.crkDecode ch line.toNat errs 2 = (t, .good, info) →
    exec (.crockScrubRead ch line errs) s = .next t)
  ∧ (∀ (k : Fin 8) (data : Dword) (s : State), min (bvBits data 0 8) 0x55 < min (bvBits data 8 8) 0x5F →
    exec (.crkThrWrite k data) s = .next ((s.setFld CRK_THR.T1 (min (bvBits data 0 8) 0x55) k).setFld CRK_THR.T2
      (min (bvBits data 8 8) 0x5F) k))
  ∧ (∀ (ch : ChanId) (data : Dword) (s t : State), data.getLsbD 16 = true →
    s.bit CRK_CH_STAT.INUSE (ch.val / 16) (ch.val % 16) = false → s.bit CRK_CH_STAT.KEPT (ch.val / 16) (ch.val % 16) = false →
    t = (s.setFld CRK_CH_CTL.SR_IDLE (bvBits data 0 16) (ch.val / 16) (ch.val % 16)) → t.crkState ch = 0 →
    exec (.crkChTestWrite ch data) s = .next (((t.setFld CRK_CH_CTL.TEST 1 (ch.val / 16) (ch.val % 16)).drawn.setCrk ch
      { t.crk ch with tg := { epoch := t.free } }).setCrkState ch 4))
  ∧ (∀ (ch : ChanId) (data : Dword) (s t : State), data.getLsbD 16 = false →
    t = s.setFld CRK_CH_CTL.SR_IDLE (bvBits data 0 16) (ch.val / 16) (ch.val % 16) → t.crkState ch = 4 →
    exec (.crkChTestWrite ch data) s = .next (t.crkLeaveTest ch 1))
  ∧ (∀ (ch : ChanId) (data : Dword) (s t : State) (k j : Nat) (r : TgRun), data.getLsbD 0 = true → k = ch.val / 16 → j = ch.val % 16 →
    s.bit CRK_TG_STAT.BUSY k j = false → t = s.putFields [CRK_TG_CTL.MODE, CRK_TG_CTL.PAT, CRK_TG_CTL.RAW] data k j →
    r = { mode := t.fld CRK_TG_CTL.MODE k j, pat := t.fld CRK_TG_CTL.PAT k j, raw := t.bit CRK_TG_CTL.RAW k j
          base := t.fld CRK_TG_BASE.BASE k j, len := t.fld CRK_TG_LEN.LEN k j, seed := t.fld CRK_TG_SEED.SEED k j
          t0 := (t.reg MC_TSC).toNat } →
    1 ≤ r.mode → r.mode ≤ 6 → t.crkState ch = 4 → 1 ≤ r.len → r.base + r.len ≤ 2097152 →
    exec (.crkTgGo ch data) s = .next ((((((((t.setCrk ch { t.crk ch with
      tg := { (t.crk ch).tg with run := some r } }).setReg CRK_TG_ERR 0 k j).setReg CRK_TG_FAIL 0 k j).setReg
      CRK_TG_TIME 0 k j).setFld CRK_TG_STAT.DONE 0 k j).setFld CRK_TG_STAT.FAIL 0 k j).setFld CRK_TG_STAT.ABORTED 0 k j).setFld
      CRK_TG_STAT.BUSY 1 k j))
  ∧ (∀ (ch : ChanId) (data : Dword) (done : Nat) (errs : List (Nat × List (BitVec 20))) (s : State), data.getLsbD 1 = true →
    exec (.crkTgAbort ch data done errs) s = .next
      ((s.putFields [CRK_TG_CTL.MODE, CRK_TG_CTL.PAT, CRK_TG_CTL.RAW] data (ch.val / 16) (ch.val % 16)).crkTgEnd ch done true errs))
  ∧ (∀ (ch : ChanId) (errs : List (Nat × List (BitVec 20))) (s : State) (r : TgRun), (s.crk ch).tg.run = some r →
    exec (.crkTgRunEnd ch errs) s = .next (s.crkTgEnd ch r.total false errs))

/-- R344 to R364, R377: requests of a cellar position, its training, temperature, retraining and scrubbing. -/
def Obligations.Cellar : Prop :=
  (∀ (p : CelId) (pc : Fin 64) (line : BitVec 24) (errs : BitVec 72) (odec acts info : Nat) (r : MemReq) (s t u w : State),
    s.memq.find? (fun r => s.celOf p r = some (pc.val, line.toNat)) = some r → r.write = none → s.celState p = 3 →
    s.fld CEL_STAT.TLVL p ≠ 3 → s.celRegulate p 1 r = (t, true) →
    u = (State.bump { t with memq := t.memq.erase r } CEL_PC_RD p).bumpN CEL_PC_ACT acts p →
    u.celDecode p pc line.toNat errs odec = (w, .good, info) →
    exec (.cellarRead p pc line errs odec acts) s = .next (w.memFill r (some (w.readBytes (r.line * 64) 64))))
  ∧ (∀ (p : CelId) (pc : Fin 64) (line : BitVec 24) (errs : BitVec 72) (odec acts : Nat) (r : MemReq) (d : Line) (s t u : State),
    s.memq.find? (fun r => s.celOf p r = some (pc.val, line.toNat)) = some r → r.write = some (BitVec.allOnes 64, d) →
    s.celState p = 3 → s.fld CEL_STAT.TLVL p ≠ 3 → s.celRegulate p 1 r = (t, true) →
    u = (State.bump { t with memq := t.memq.erase r } CEL_PC_WR p).bumpN CEL_PC_ACT acts p →
    exec (.cellarWrite p pc line errs odec acts) s =
      .next (State.memAck { u with mem := Memory.write u.mem (r.line * 64) (2 ^ 64 - 1) d.toNat 64 } r true))
  ∧ (∀ (p : CelId) (s : State), exec (.cellarRefresh p) s = .next s)
  ∧ (∀ (p : CelId) (j : Fin 8) (s : State), s.bit CEL_REG.EN p j = true →
    exec (.celRegulatorTick p j) s = .next (s.setFld CEL_REG.LEVEL
      (min (s.fld CEL_REG.LEVEL p j + s.fld CEL_REG.RATE p j) (s.fld CEL_REG.BURST p j)) p j))
  ∧ (∀ (p : CelId) (t : CelTrain) (s : State), s.canon = true → s.celState p = 1 → t.answer = true → celSupported t = true →
    (s.cel p).bringUp = false → ∃ u, exec (.cellarTrainingComplete p t) s = .next u ∧ u.celState p = 3 ∧ u.mem = s.mem)
  ∧ (∀ (p : CelId) (t : CelTrain) (s : State), s.canon = true → s.celState p = 1 → t.answer = false →
    ∃ u, exec (.cellarTrainingComplete p t) s = .next u ∧ u.celState p = 6 ∧ u.reg CEL_CAP p = 0 ∧ u.mem = s.mem)
  ∧ (∀ (p : CelId) (s : State), s.celState p = 3 →
    exec (.cellarRetrain p) s =
      .next ((((s.setFld CEL_STAT.STATE 4 p).celFlush p).celTgStopAll p).bump CEL_PC_RETRAIN p))
  ∧ (∀ (p : CelId) (s : State), s.celState p = 4 → exec (.cellarRetrainComplete p) s = .next (s.setFld CEL_STAT.STATE 3 p))
  ∧ (∀ (p : CelId) (cmd : Nat) (s : State), (s.cel p).reissue ≠ some cmd →
    exec (.cellarCaParity p cmd) s = .next (s.setCel p { s.cel p with reissue := some cmd }))
  ∧ (∀ (p : CelId) (cmd : Nat) (s : State), (s.cel p).reissue = some cmd →
    exec (.cellarCaParity p cmd) s = .next ((s.setCel p { s.cel p with reissue := none }).celRetrain p))
  ∧ (∀ (p : CelId) (temp : BitVec 8) (s t : State), s.celState p ≠ 0 → s.celState p ≠ 6 → t = s.setFld CEL_TEMP.TSTACK temp.toNat p →
    exec (.cellarTempRead p temp true) s = .next (State.setCel ((t.setFld CEL_TEMP.PEAK (hotter (t.fld CEL_TEMP.PEAK p) temp.toNat)
      p).setFld CEL_STAT.TLVL 3 p) p { s.cel p with noTemp := false }))
  ∧ (∀ (p : CelId) (s : State), s.celState p ≠ 0 → s.celState p ≠ 6 →
    exec (.cellarTempTimeout p) s = .next (State.setCel (s.setFld CEL_STAT.TLVL (max 2 (s.fld CEL_STAT.TLVL p)) p) p
      { s.cel p with noTemp := true }))
  ∧ (∀ (p : CelId) (data : Dword) (s : State), min (bvBits data 0 8) 0x5A < min (bvBits data 8 8) 0x64 →
    exec (.celThrWrite p data) s = .next (((s.setFld CEL_THR.T1 (min (bvBits data 0 8) 0x5A) p).setFld CEL_THR.T2
      (min (bvBits data 8 8) 0x64) p).putFields [CEL_THR.LANE_LIM] data p))
  ∧ (∀ (p : CelId) (pc : Fin 64) (line : BitVec 24) (errs : BitVec 72) (odec off info : Nat) (s t : State), s.fatal = false →
    s.celState p = 3 → s.fld CEL_SCRUB.HOURS p ≠ 0 → s.cellarOff p pc line.toNat = some off →
    off < s.fld CEL_CAP.AVAIL_MIB p * 2 ^ 20 → s.celDecode p pc line.toNat errs odec = (t, .good, info) →
    exec (.cellarScrubRead p pc line errs odec) s = .next t)

/-- R365, R366, R377, R387: the `TEST` state and the generators of the cellar, the scrubs of a vat's arrays, the head of the fault
queue. -/
def Obligations.CellarTest : Prop :=
  (∀ (p : CelId) (data : Dword) (s t u : State), data.getLsbD 0 = true → s.celInUse p = false → s.bit CEL_STAT.KEPT p = false →
    t = s.setFld CEL_CTL.TEST 1 p → t.celState p = 3 → u = (t.celTgStopAll p).celFlush p →
    exec (.celTestWrite p data) s = .next ((u.drawn.setCel p { u.cel p with
      tgs := (List.range 32).foldl (fun m c => smSet {} m c ({ epoch := u.free } : TgSt)) [] }).setFld CEL_STAT.STATE 5 p))
  ∧ (∀ (p : CelId) (data : Dword) (s : State), data.getLsbD 0 = false → s.celState p = 5 →
    exec (.celTestWrite p data) s = .next (s.celLeaveTest p))
  ∧ (∀ (p : CelId) (s : State), s.celState p = 2 →
    exec (.cellarInitComplete p) s = .next ((s.celZero p).setFld CEL_STAT.STATE 3 p))
  ∧ (∀ (p : CelId) (c : Fin 32) (data : Dword) (s t : State) (r : TgRun), data.getLsbD 0 = true → s.bit CEL_TG_STAT.BUSY p c = false →
    t = s.putFields [CEL_TG_CTL.MODE, CEL_TG_CTL.PAT, CEL_TG_CTL.RAW, CEL_TG_CTL.PC] data p c →
    r = { mode := t.fld CEL_TG_CTL.MODE p c, pat := t.fld CEL_TG_CTL.PAT p c, raw := t.bit CEL_TG_CTL.RAW p c
          base := t.fld CEL_TG_BASE.BASE p c, len := t.fld CEL_TG_LEN.LEN p c, seed := t.fld CEL_TG_SEED.SEED p c
          t0 := (t.reg MC_TSC).toNat, pc := t.fld CEL_TG_CTL.PC p c } →
    1 ≤ r.mode → r.mode ≤ 6 → t.celState p = 5 → 1 ≤ r.len → r.base + r.len ≤ t.fld CEL_INFO.CAP_GB p * 2 ^ 18 →
    exec (.celTgGo p c data) s = .next ((((((((t.setCel p { t.cel p with
      tgs := smSet {} (t.cel p).tgs c { smGet {} (t.cel p).tgs c with run := some r } }).setReg CEL_TG_ERR 0 p c).setReg
      CEL_TG_FAIL 0 p c).setReg CEL_TG_TIME 0 p c).setFld CEL_TG_STAT.DONE 0 p c).setFld CEL_TG_STAT.FAIL 0 p c).setFld
      CEL_TG_STAT.ABORTED 0 p c).setFld CEL_TG_STAT.BUSY 1 p c))
  ∧ (∀ (p : CelId) (c : Fin 32) (data : Dword) (done : Nat) (errs : List (Nat × List (BitVec 72))) (s : State), data.getLsbD 1 = true →
    exec (.celTgAbort p c data done errs) s = .next
      ((s.putFields [CEL_TG_CTL.MODE, CEL_TG_CTL.PAT, CEL_TG_CTL.RAW, CEL_TG_CTL.PC] data p c).celTgEnd p c done true errs))
  ∧ (∀ (p : CelId) (c : Fin 32) (errs : List (Nat × List (BitVec 72))) (s : State) (r : TgRun),
    (smGet {} (s.cel p).tgs c).run = some r →
    exec (.celTgRunEnd p c errs) s = .next (s.celTgEnd p c r.total false errs))
  ∧ (∀ (v : VatId) (a : Nat) (s : State), s.vatLive v = true → s.fld VAT_ECC_CTL.SECONDS v ≠ 0 → s.bit VAT_ECC_INJ.ARM v = false →
    exec (.vatScrubRead v 0 a .corrected) s = .next (s.bumpErr VAT_CRM_ECC.CORR v))
  ∧ (∀ (data : Dword) (s : State) (n : Nat), n = (bvBits data 0 9 + 512 - s.fld MC_FQ_HEAD.HEAD) % 512 → n ≤ s.fld MC_FQ_STAT.COUNT →
    exec (.fqHeadWrite data) s = .next (((s.setFld MC_FQ_HEAD.HEAD (bvBits data 0 9)).setFld MC_FQ_STAT.COUNT
      (s.fld MC_FQ_STAT.COUNT - n)).setFld MC_FQ_STAT.FULL (if s.fld MC_FQ_STAT.COUNT - n = 256 then 1 else 0)))

/-- R393 to R402: table walks. -/
def Obligations.Walks : Prop :=
  (∀ (p : PartId) (vpage : BitVec 23) (s : State) (test : Walk → Bool),
    test = (fun w => w.part = p.val && w.vpage = vpage.toNat && w.stage = .queued) → s.walks.any test = true →
    (∀ k < 16, s.walks.any (fun w => w.onWalker k) = false) → s.bit XLT_PT_BASE.EN p = true →
    exec (.walkStart p vpage) s = .next (s.walkRead 0 p
      (s.fld XLT_PT_BASE.BASE p * 2 ^ 21 + vpage.toNat * 2 ^ 25 / 2 ^ 30 * 8) test .readL1 0).xltWake)
  ∧ (∀ (k : Fin 16) (d : Line) (ue : Bool) (s : State) (w : Walk) (a : Nat), s.walks.find? (fun w => w.onWalker k) = some w →
    w.stage = .readL1 → pte (d.setWidth 64) true = .table a →
    exec (.walkTableReadReply k (.data d) ue) s = .next ((s.recvMsg (.reply (.walker k) w.tag (.data d))).walkRead k w.part
      (a + w.vpage % 32 * 8) (fun x => x.onWalker k) (.readL2 a) (a + w.vpage % 32 * 8)))
  ∧ (∀ (k : Fin 16) (d : Line) (ue : Bool) (s t : State) (w : Walk) (a : Nat), s.walks.find? (fun w => w.onWalker k) = some w →
    w.stage = .readL2 a →
    (s.recvMsg (.reply (.walker k) w.tag (.data d))).walkPage w (fun x => x.onWalker k) false (d.setWidth 64) = some t →
    exec (.walkTableReadReply k (.data d) ue) s = .next t)
  ∧ (∀ (k : Fin 16) (s : State), s.walks.any (fun w => w.onWalker k) = true →
    exec (.walkReadTimeout k) s = .next (s.walkEnd (fun w => w.onWalker k) (.ue 1)))
  ∧ (∀ (p : PartId) (vpage : BitVec 23) (s t : State) (w : Walk) (big wr : Bool) (ga : Dword) (tgt : Nat),
    s.walks.find? (fun w => w.part = p.val && w.vpage = vpage.toNat && (match w.stage with | .done _ => true | _ => false)) = some w →
    w.stage = .done (.page big ga wr tgt) →
    t = ((w.reqs.map (fun r => reqVat r.src)).eraseDups).foldl (fun (s : State) v => s.tlbFill v
      { vpage := if big then w.vpage / 32 * 32 else w.vpage, big := big, ga := ga, w := wr, tgt := tgt, ref := true })
      { s with walks := s.walks.erase w } →
    exec (.walkResult p vpage) s = .next (w.reqs.foldl (fun s r => s.walkDeliver w.part (.page big ga wr tgt) r) t))
  ∧ (∀ (data : Dword) (s : State), exec (.xltResume data) s =
    .next (s.xltResume (bvBits data 48 6) (fun va => data.getLsbD 54 || va / 2 ^ 25 = bvBits data 25 23)))

/-- R405 to R411: fault rings, migration, shootdowns. -/
def Obligations.TranslationUpkeep : Prop :=
  (∀ (p : PartId) (s : State) (r : RingWrite) (t : Nat), s.ringFirst p = some r → r.tag = some t → r.back = true →
    exec (.faultRingWriteAck p .done) s = .next ((s.recvMsg (.reply (.faultRing p) t .done)).ringEnd p true))
  ∧ (∀ (p : PartId) (s : State) (r : RingWrite) (t : Nat), s.ringFirst p = some r → r.tag = some t →
    exec (.faultRingWriteTimeout p) s = .next (s.ringEnd p false))
  ∧ (∀ (p : PartId) (data : Dword) (s : State), (bvBits data 0 32 + 2 ^ 32 - s.fld XLT_FR_CONS.CONS p) % 2 ^ 32
      ≤ (s.fld XLT_FR_PROD.PROD p + 2 ^ 32 - s.fld XLT_FR_CONS.CONS p) % 2 ^ 32 →
    exec (.xltFrConsWrite p data) s = .next (s.setFld XLT_FR_CONS.CONS (bvBits data 0 32) p))
  ∧ (∀ (p : PartId) (data : Dword) (s : State) (n : Nat), n = (bvBits data 0 32 + 2 ^ 32 - s.fld XLT_MIG_HEAD.HEAD p) % 2 ^ 32 →
    (s.fld XLT_MIG_TAIL.TAIL p + 2 ^ 32 - s.fld XLT_MIG_HEAD.HEAD p) % 2 ^ 32 ≤ n → n ≤ 2 ^ s.fld XLT_MIG_CFG.MLOG p →
    exec (.xltMigTailWrite p data) s = .next (s.setFld XLT_MIG_TAIL.TAIL (bvBits data 0 32) p))
  ∧ (∀ (s : State) (g : MigPage) (gs : List MigPage) (t : State) (frame : Nat), s.mig = none → s.migq = g :: gs →
    t = { s with migq := gs } → t.fld XLT_MIG_HEAD.HEAD g.part ≠ t.fld XLT_MIG_TAIL.TAIL g.part →
    frame = bvBits (t.peek8 (t.fld XLT_MIG_BASE.ADDR g.part * 8 + t.fld XLT_MIG_HEAD.HEAD g.part % 2 ^ t.fld XLT_MIG_CFG.MLOG g.part * 8))
      25 23 * 2 ^ 25 → t.mayMap g.part false 0 0 frame = true →
    exec .migrationStart s = .next { t with mig := some (g, frame) })
  ∧ (∀ (ls : List (BitVec 19 × Line)) (s t u : State) (g : MigPage) (frame : Nat), s.mig = some (g, frame) → t = s.fillFrame frame ls →
    t.peek8 g.l2 = g.entry →
    u = t.pokeLine (g.l2 / 64) (byteMask (g.l2 % 64 / 8 * 8) 8)
      (placeAt (g.l2 % 64 / 8 * 8) ((g.entry &&& 5) ||| BitVec.ofNat 64 frame).toNat) (some g.part) →
    exec (.migrationCopyComplete (some ls)) s =
      .next (((u.setFld XLT_MIG_HEAD.HEAD ((u.fld XLT_MIG_HEAD.HEAD g.part + 1) % 2 ^ 32) g.part).bump XLT_PC_MIG).migEnd g 0 (some frame)))
  ∧ (∀ (data : Dword) (s : State), s.canon = true → s.bit XLT_SHOOT_STAT.BUSY = false → bvBits data 54 2 ≠ 3 →
    ∃ t, exec (.xltShoot data) s = .next t ∧ t.bit XLT_SHOOT_STAT.BUSY = true ∧ t.mem = s.mem
      ∧ t.shoot.map Prod.fst = s.vatsOf (bvBits data 48 6))
  ∧ (∀ (v : VatId) (s : State) (e : Nat × List ReqId), s.shoot.find? (fun e => e.1 = v.val) = some e →
    e.2.any (fun r => (s.outstanding v).contains r) = false →
    exec (.shootdownVatDrained v) s = .next { s with shoot := s.shoot.erase e })
  ∧ (∀ (s : State), s.bit XLT_SHOOT_STAT.BUSY = true → s.shoot = [] →
    exec .shootdownComplete s = .next (((s.setFld XLT_SHOOT_STAT.BUSY 0).setFld XLT_SHOOT_STAT.DONE 1).bump XLT_PC_SHOOT))

/-! ### Lanes and the fabric -/

/-- R420 to R430, R449: frames and blocks of a lane. A port sends a frame on each of its lanes; a lane in frame lock takes the
units of a frame without errors into its stream; the header of a block is tested at its place. -/
def Obligations.LaneFrames : Prop :=
  (∀ (p : PortId) (s : State), (s.portState p = 4 ∨ s.portState p = 5 ∨ s.portState p = 11) →
    exec (.laneFrameTransmit p) s = .next ((List.range 8).foldl (fun s j =>
      if (s.fld LNK_STAT.LANES p).testBit j then s.laneSend p j (List.replicate 80 idleUnit) false else s) s))
  ∧ (∀ (p : PortId) (s t : State) (x : PortSt) (m : BitVec 8) (j : Nat) (q : List (BitVec 257 × Bool))
      (acc : List (List (BitVec 257 × Bool))) (sw : Bool), s.portState p = 6 → x = s.port p → x.sent = none →
    spreadUnits 2000 x.txMask x.txLane x.agreed x.txq ((List.range 8).map (fun j => (s.ln p j).carry)) = (m, j, q, acc) →
    sw = (x.txq.any (fun u => u.1.getLsbD 256 && bvBits u.1 0 4 = 8) && !q.any (fun u => u.1.getLsbD 256 && bvBits u.1 0 4 = 8)) →
    t = (s.setPort p ({ x with txMask := m, txLane := j, txq := q, wswSent := x.wswSent || sw } : PortSt).narrowEnd).setFld
      LNK_FAB_STAT.WIDTH m.toNat p →
    exec (.laneFrameTransmit p) s = .next (((List.range 8).filter (fun j => x.txMask.getLsbD j)).foldl (fun s i =>
      State.laneSend
        (((s.setLn p i { s.ln p i with carry := (acc.getD i []).drop 80 }).bumpN LNK_FAB_PC_TXU
          (((acc.getD i []).take 80).filter (fun u => !u.1.getLsbD 256)).length p).bumpN LNK_FAB_PC_REPLAY
          ((((acc.getD i []).take 80).filter (fun u => !u.1.getLsbD 256)).filter (fun u => u.2)).length p)
        p i (((acc.getD i []).take 80).map Prod.fst ++ List.replicate (80 - ((acc.getD i []).take 80).length) idleUnit)
        (!m.getLsbD i)) t))
  ∧ (∀ (p : PortId) (j : LaneIx) (units : List (BitVec 257)) (e : FrameErrs) (s t u : State), s.bit LNK_LN_STAT.FRAME_LOCK p j = true →
    units.length = 80 → e.syms = [] → e.stuff = 0 → 6 ≤ e.occ.val → e.occ.val < 16 → e.chk = none →
    t = s.bumpErr LNK_ERR0.STUFF_ERR p (n := 0) →
    u = (((t.setLn p j { t.ln p j with occ := e.occ.val, good := (t.ln p j).good + 1 }).bump LNK_LN_PC_FRAMES p j).bumpN
      LNK_LN_PC_FECC 0 p j) → u.portState p = 6 → (u.port p).rxMask.getLsbD j = true →
    exec (.laneFrameReceive p j units e) s =
      .next ((u.setLn p j { u.ln p j with rxq := (u.ln p j).rxq ++ units.map (fun x => (x, false)) }).setFld LNK_LN_PG.CHK_LOCK 0 p j))
  ∧ (∀ (p : PortId) (j : LaneIx) (occ : Fin 17) (s : State), s.bit LNK_LN_STAT.FRAME_LOCK p j = true →
    exec (.filler p j occ) s = .next (if 10 < occ.val
      then (s.setLn p j { s.ln p j with occ := occ.val - 1 }).bump LNK_PC_FILL_DEL p
      else s.setLn p j { s.ln p j with occ := occ.val }))
  ∧ (∀ (p : PortId) (j : LaneIx) (type comp : BitVec 8) (second : Bool) (s : State),
    (type = 0 ∨ 6 ≤ type.toNat ∨ comp ≠ ~~~type ∨ second = true) →
    exec (.controlBlockReserved p j type comp second) s = .next (s.bumpErr LNK_ERR0.BAD_CTL p))
  ∧ (∀ (p : PortId) (j : LaneIx) (hdr : BitVec 2) (s : State), s.bit LNK_LN_STAT.BLOCK_LOCK p j = false → (hdr = 1 ∨ hdr = 2) →
    exec (.blockLock p j hdr) s = .next (if (s.ln p j).hunt < 63
      then s.setLn p j { s.ln p j with hunt := (s.ln p j).hunt + 1 }
      else (s.setLn p j { s.ln p j with hunt := 0, inv := 0, firsts := 0, gap := 0 }).setFld LNK_LN_STAT.BLOCK_LOCK 1 p j))
  ∧ (∀ (p : PortId) (j : LaneIx) (hdr : BitVec 2) (s : State), s.bit LNK_LN_STAT.BLOCK_LOCK p j = false → (hdr = 0 ∨ hdr = 3) →
    exec (.blockLock p j hdr) s = .next (s.setLn p j { s.ln p j with hunt := 0, pos := ((s.ln p j).pos + 1) % 129 }))
  ∧ (∀ (p : PortId) (j : LaneIx) (hdr : BitVec 2) (s : State) (y z : LaneSt), s.bit LNK_LN_STAT.BLOCK_LOCK p j = true →
    (hdr = 1 ∨ hdr = 2) → z = { s.ln p j with inv := (s.ln p j).inv <<< 1 } →
    ((List.range 64).filter (fun i => z.inv.getLsbD i)).length < 16 →
    z.frameHeader (s.bit LNK_LN_STAT.FRAME_LOCK p j) hdr = (y, true, false) →
    exec (.blockLock p j hdr) s = .next (((s.setLn p j y).setFld LNK_LN_STAT.FRAME_LOCK 1 p j).wakeEnd p))

/-- R416, R431 to R437, R444, R448, R457 to R459, R578: a group's reference and sequencer, and the bring-up of a port. -/
def Obligations.LaneBringUp : Prop :=
  (∀ (g : Fin 4) (s t : State), t = { s with refs := s.refs &&& ~~~((1 : BitVec 4) <<< g.val) } →
    exec (.laneRefLost g) s = .next ((((t.setGrp LNK_GRP_STAT.REF_OK 0 g).setGrp LNK_GRP_STAT.REF_LOST 1 g).grpOff g).lnkRecord 0x33
      (12 * g) (s.lnkInfo (12 * g))))
  ∧ (∀ (g : Fin 4) (s t : State), t = { s with refs := s.refs ||| ((1 : BitVec 4) <<< g.val) } → t.domOn (72 + g) = true →
    exec (.laneRefPresent g) s = .next (t.setGrp LNK_GRP_STAT.REF_OK 1 g))
  ∧ (∀ (g : Fin 4) (s : State),
    exec (.sequencerFault g) s = .next (((s.setGrp LNK_GRP_STAT.SEQ_FAULT 1 g).grpOff g).lnkRecord 0x34 (12 * g) (s.lnkInfo (12 * g))))
  ∧ (∀ (p : PortId) (s : State), s.portState p = 0 → s.domOn (72 + p.val / 12) = true → s.bit LNK_GRP_STAT.REF_OK p = true →
    s.bit LNK_GRP_STAT.SEQ_LOADED p = true → s.bit LNK_GRP_STAT.SEQ_FAULT p = false →
    exec (.lnkCtlStart p) s = .next (s.portCal p))
  ∧ (∀ (p : PortId) (s : State), exec (.lnkCtlStop p) s = .next (s.portOff p))
  ∧ (∀ (p : PortId) (j : LaneIx) (trim : Nat) (s t : State), (s.ln p j).cal = true →
    t = (s.setLn p j { s.ln p j with cal := false, trim := trim }).setFld LNK_LN_STAT.CAL 1 p j →
    exec (.laneCalComplete p j .ok trim) s =
      .next (if t.portState p = 1 ∧ (List.range 8).all (fun i => !(t.ln p i).cal) then t.portDetect p else t))
  ∧ (∀ (p : PortId) (s : State), (List.range 8).any (fun j => (s.ln p j).cal) = false →
    (s.portState p = 0 ∨ s.portState p = 2 ∨ s.portState p = 7 ∨ s.portState p = 8) →
    exec (.lnkCalGo p) s = .next ((List.range 8).foldl (fun s j => s.setLn p j { s.ln p j with cal := true }) s))
  ∧ (∀ (p : PortId) (lanes : BitVec 8) (s : State), s.portState p = 2 → lanes ≠ 0 → (∀ j < 8, (s.ln p j).cal = false) →
    exec (.lanePartnerDetect p lanes) s = .next ((s.setDetected p lanes).portGo p 3 lanes))
  ∧ (∀ (p : PortId) (j : LaneIx) (payload : BitVec 32) (sent : Nat) (inverted : Bool) (s t u : State), s.portState p = 3 →
    (s.fld LNK_STAT.LANES p).testBit j = true → bvBits payload 0 8 = j.val → bvBits payload 8 8 = 255 - j.val →
    bvBits payload 24 8 = 1 → 2 ≤ sent → t = s.setFld LNK_LN_STAT.POL_INV (if inverted then 1 else 0) p j →
    u = (t.setLn p j { t.ln p j with ready := true }).setFld LNK_LN_STAT.DONE 1 p j →
    exec (.laneTrainingMarker p j payload sent inverted) s =
      .next (if u.doneLanes p = BitVec.ofNat 8 (u.fld LNK_STAT.LANES p) then (u.unlock p).portGo p 4 (u.doneLanes p) else u))
  ∧ (∀ (p : PortId) (s : State), s.portState p = 3 → s.doneLanes p ≠ 0 →
    exec (.portStateTimeout p) s = .next ((s.unlock p).portGo p 4 (s.doneLanes p)))
  ∧ (∀ (p : PortId) (s : State), (s.portState p = 5 ∨ (s.portState p = 3 ∧ s.doneLanes p = 0)
      ∨ (s.portState p = 4 ∧ s.lockedLanes p = 0)) →
    exec (.portStateTimeout p) s = .next (s.portFail p))
  ∧ (∀ (p : PortId) (j : LaneIx) (rec : BitVec 128) (s : State), s.portState p = 5 → (s.ln p j).cap = some rec → (s.ln p j).capn = 2 →
    exec (.capx p j rec) s = .next ((s.setLn p j { s.ln p j with cap := some rec, capn := 3 }).admitPort p rec))
  ∧ (∀ (p : PortId) (j : LaneIx) (s : State), (s.portState p = 6 ∨ s.portState p = 11) →
    exec (.retrain p j) s = .next (s.portRetrain p))
  ∧ (∀ (p : PortId) (boundary : Bool) (s t : State), s.portState p = 6 →
    (∀ j < 8, (s.fld LNK_STAT.LANES p).testBit j = true → (s.ln p j).enter = none ∧ s.bit LNK_LN_STAT.FRAME_LOCK p j = false) →
    t = s.bumpErr LNK_ERR1.LOS p →
    exec (.laneSignalLoss p false boundary) s = .next ((t.lnkRecord 0x30 p (t.lnkInfo p)).portDetect p))

/-- R438 to R441, R446: low power, loopbacks and eye scans of a port. -/
def Obligations.LaneLowPower : Prop :=
  (∀ (p : PortId) (j : LaneIx) (s t : State), s.portState p = 6 → (s.port p).rxMask.getLsbD j = true → (s.port p).agreed = none →
    t = s.setLn p j { s.ln p j with enter := some true } →
    (∀ i < 8, (s.port p).rxMask.getLsbD i = true → (t.ln p i).enter.isSome = true) →
    exec (.enterShallow p j) s =
      .next (if (s.port p).sent.isSome then t.lowPower p else ((t.setPort p { s.port p with sent := some true }).laneBlock p 2 (s.port p).txMask).lowPower p))
  ∧ (∀ (p : PortId) (j : LaneIx) (s t : State), s.portState p = 6 → (s.port p).rxMask.getLsbD j = true → (s.port p).agreed = none →
    t = s.setLn p j { s.ln p j with enter := some false } →
    (∀ i < 8, (s.port p).rxMask.getLsbD i = true → (t.ln p i).enter.isSome = true) →
    exec (.enterDeep p j) s = .next (if (s.port p).sent.isSome then t.lowPower p
      else ((t.setPort p { s.port p with
        sent := some ((s.port p).replay ≠ [] || (s.port p).pkts ≠ [] || (s.port p).txq ≠ []) }).laneBlock p
          (if (s.port p).replay ≠ [] || (s.port p).pkts ≠ [] || (s.port p).txq ≠ [] then 2 else 3) (s.port p).txMask).lowPower p))
  ∧ (∀ (p : PortId) (s : State), s.portState p = 6 → (s.port p).sent = none →
    exec (.lpreqShallow p) s = .next (((s.setPort p { s.port p with sent := some true }).laneBlock p 2 (s.port p).txMask).lowPower p)
    ∧ exec (.lpreqDeep p) s = .next (((s.setPort p { s.port p with sent := some false }).laneBlock p 3 (s.port p).txMask).lowPower p))
  ∧ (∀ (p : PortId) (s t : State), (s.portState p = 7 ∨ s.portState p = 8) →
    t = (s.setPort p { s.port p with sent := none }).unlock p →
    exec (.lpreqWake p) s = .next (t.setFld LNK_STAT.STATE 9 p) ∧ exec (.laneWakeDetect p) s = .next (t.setFld LNK_STAT.STATE 9 p))
  ∧ (∀ (p : PortId) (s : State), s.portState p = 7 →
    exec (.laneRefreshBurst p) s = .next (s.setPort p { s.port p with burst := s.fld MC_TSC.COUNT }))
  ∧ (∀ (p : PortId) (loop : BitVec 2) (s t : State), t = s.setFld LNK_CTL.LOOP loop.toNat p →
    exec (.lnkLoopWrite p loop) s = .next (if t.portState p = 10 ∧ loop = 0 then t.portCal p else t))
  ∧ (∀ (p : PortId) (j : LaneIx) (data : Word) (s t : State), t = s.setReg LNK_LN_EYE_CTL (data.setWidth 64 &&& 0x7FFFFC) p j →
    data.getLsbD 0 = true → (t.ln p j).eye = none → t.eyeOk p j (t.portState p) = true → t.fld LNK_LN_EYE_CTL.EYE p j ≠ 3 →
    10 ≤ t.fld LNK_LN_EYE_CTL.LOGN p j → t.fld LNK_LN_EYE_CTL.LOGN p j ≤ 40 →
    exec (.eyeScanGo p j data) s = .next ((((t.setReg LNK_LN_EYE_SMP 0 p j).setReg LNK_LN_EYE_ERR 0 p j).setLn p j
      { t.ln p j with eye := some (t.fld LNK_LN_EYE_CTL.LOGN p j) }).setFld LNK_LN_STAT.EYE_BUSY 1 p j))
  ∧ (∀ (p : PortId) (j : LaneIx) (data : Word) (smp err n : Nat) (s t : State),
    t = s.setReg LNK_LN_EYE_CTL (data.setWidth 64 &&& 0x7FFFFC) p j → data.getLsbD 1 = true → (t.ln p j).eye = some n → smp ≤ 2 ^ n →
    exec (.eyeScanAbort p j data smp err) s = .next ((((((t.setLn p j { t.ln p j with eye := none }).setFld
      (pcCount LNK_LN_EYE_SMP) smp p j).setFld (pcCount LNK_LN_EYE_ERR) (min err smp) p j).setFld LNK_LN_STAT.EYE_BUSY 0 p j).setFld
      LNK_LN_STAT.EYE_ABORTED 1 p j)))
  ∧ (∀ (p : PortId) (j : LaneIx) (err n : Nat) (s : State), (s.ln p j).eye = some n →
    exec (.eyeScanComplete p j err) s = .next (((((s.setLn p j { s.ln p j with eye := none }).setFld
      (pcCount LNK_LN_EYE_SMP) (2 ^ n) p j).setFld (pcCount LNK_LN_EYE_ERR) (min err (2 ^ n)) p j).setFld LNK_LN_STAT.EYE_BUSY 0 p j).setFld
      LNK_LN_STAT.EYE_DONE 1 p j))

/-- R449 to R456, R463, R458 to R461: the data and control units of a port; width, hold and retrain. The next unit of a port's
stream, in `ACTIVE`, is taken and acted on. -/
def Obligations.LinkUnits : Prop :=
  (∀ (p : PortId) (bits : BitVec 256) (s t : State) (x : PortSt) (us : List (BitVec 256)) (k : Pkt) (n : Nat),
    s.nextUnit p = some (bits.setWidth 257, false) → s.portState p = 6 → t = s.takeUnit p → x = t.port p → x.discard = false →
    x.rxSeq = x.rxNext → us = x.asm ++ [bits] → k = pktOf (us.headD 0) → k.vc < 3 → x.held.getD k.pool 0 < 1024 →
    n = (x.rxNext + 1) % 65536 → us.length ≠ 1 + k.npay →
    exec (.linkDataUnitReceive p bits false) s = .next ((t.setPort p (PortSt.latest { x with
        rxNext := n, rxSeq := n, asm := us, held := x.held.set k.pool (x.held.getD k.pool 0 + 1) }
      (fun u => bvBits u 0 4 = 2) (controlUnit 2 n))).bump LNK_FAB_PC_RXU p))
  ∧ (∀ (p : PortId) (bits : BitVec 256) (s t : State) (x : PortSt) (us : List (BitVec 256)) (k : Pkt) (n : Nat),
    s.nextUnit p = some (bits.setWidth 257, false) → s.portState p = 6 → t = s.takeUnit p → x = t.port p → x.discard = false →
    x.rxSeq = x.rxNext → us = x.asm ++ [bits] → k = pktOf (us.headD 0) → k.vc < 3 → x.held.getD k.pool 0 < 1024 →
    n = (x.rxNext + 1) % 65536 → us.length = 1 + k.npay →
    exec (.linkDataUnitReceive p bits false) s = .next (((t.setPort p (PortSt.latest { x with
        rxNext := n, rxSeq := n, asm := [], held := x.held.set k.pool (x.held.getD k.pool 0 + 1) }
      (fun u => bvBits u 0 4 = 2) (controlUnit 2 n))).bump LNK_FAB_PC_RXU p).packetIn p us))
  ∧ (∀ (p : PortId) (seq : BitVec 16) (u : BitVec 257) (s t : State) (x : PortSt) (d : Nat), s.nextUnit p = some (u, false) →
    s.portState p = 6 → u.getLsbD 256 = true → isControl 2 seq.toNat u = true → t = s.takeUnit p → x = t.port p →
    x.neverSent seq.toNat = false → d = (seq.toNat + 65536 - x.oldest) % 65536 → 1 ≤ d → d ≤ x.replay.length →
    exec (.ack p seq) s =
      .next (((t.setPort p { x with replay := x.replay.drop d, stalls := 0 }).acked p (x.replay.take d)).portPump p))
  ∧ (∀ (p : PortId) (seq : BitVec 16) (u : BitVec 257) (s t : State) (x : PortSt) (d : Nat), s.nextUnit p = some (u, false) →
    s.portState p = 6 → u.getLsbD 256 = true → isControl 3 seq.toNat u = true → t = s.takeUnit p → x = t.port p →
    x.neverSent seq.toNat = false → d = (seq.toNat + 65536 - x.oldest) % 65536 → d ≤ x.replay.length →
    exec (.nack p seq) s = .next (t.setPort p (x.replayFrom d)))
  ∧ (∀ (p : PortId) (seq : BitVec 16) (u : BitVec 257) (s t : State), s.nextUnit p = some (u, false) →
    s.portState p = 6 → u.getLsbD 256 = true → isControl 4 seq.toNat u = true → t = s.takeUnit p →
    ((t.port p).rxNext + 65536 - seq.toNat) % 65536 ≤ 8192 →
    exec (.replay p seq) s = .next (t.setPort p { t.port p with rxSeq := seq.toNat, discard := false }))
  ∧ (∀ (p : PortId) (pool : BitVec 3) (count : BitVec 13) (u : BitVec 257) (s t : State), s.nextUnit p = some (u, false) →
    s.portState p = 6 → u.getLsbD 256 = true → isControl 5 (pool.toNat + count.toNat * 8) u = true → t = s.takeUnit p →
    pool.toNat < 6 →
    exec (.credit p pool count) s =
      .next ((t.setPort p { t.port p with credit := (t.port p).credit.set pool.toNat count.toNat }).portPump p))
  ∧ (∀ (p : PortId) (u : BitVec 257) (s : State), s.nextUnit p = some (u, false) → s.portState p = 6 → u.getLsbD 256 = true →
    bvBits u 0 4 = 1 → exec (.idle p) s = .next (s.takeUnit p))
  ∧ (∀ (p : PortId) (bits : BitVec 256) (u : BitVec 257) (s : State), s.nextUnit p = some (u, false) → s.portState p = 6 →
    u.getLsbD 256 = true → u.setWidth 256 = bits → (bvBits u 0 4 = 0 ∨ 9 ≤ bvBits u 0 4) →
    exec (.controlUnitReserved p bits) s = .next (((s.takeUnit p).bumpErr LNK_FAB_ERR0.BAD_CU p).quarantine p))
  ∧ (∀ (p : PortId) (s t : State), s.portState p = 6 → (s.port p).replay ≠ [] →
    t = s.setPort p { (s.port p).replayFrom 0 with stalls := (s.port p).stalls + 1 } →
    exec (.linkReplayTimeout p) s = .next (if 4 ≤ (s.port p).stalls + 1 then t.askRetrain p else t))
  ∧ (∀ (p : PortId) (mask : BitVec 8) (u : BitVec 257) (s t : State), s.nextUnit p = some (u, false) → s.portState p = 6 →
    u.getLsbD 256 = true → bvBits u 0 4 = 6 → bvBits u 4 8 = mask.toNat → t = s.takeUnit p → (t.port p).agreed = none →
    t.maskOk p mask = true → ((t.port p).prop = none ∨ (t.port p).prop = some mask) →
    exec (.wreq p mask) s = .next ((t.sendControl p (controlUnit 7 mask.toNat)).switchTo p mask))
  ∧ (∀ (p : PortId) (mask : BitVec 8) (u : BitVec 257) (s t : State), s.nextUnit p = some (u, false) → s.portState p = 6 →
    u.getLsbD 256 = true → bvBits u 0 4 = 7 → bvBits u 4 8 = mask.toNat → t = s.takeUnit p → (t.port p).prop = some mask →
    exec (.wack p mask) s = .next (t.switchTo p mask))
  ∧ (∀ (p : PortId) (mask : BitVec 8) (u : BitVec 257) (s t : State), s.nextUnit p = some (u, false) → s.portState p = 6 →
    u.getLsbD 256 = true → bvBits u 0 4 = 8 → t = s.takeUnit p → (t.port p).agreed = some mask →
    exec (.wsw p) s = .next (t.setPort p (PortSt.narrowEnd { t.port p with rxMask := mask, rxLane := lowLane mask, wswTaken := true })))
  ∧ (∀ (p : PortId) (mask : BitVec 8) (s : State), s.portState p = 6 → (s.port p).prop = some mask →
    exec (.wreqResendTimeout p) s = .next (s.sendControl p (controlUnit 6 mask.toNat)))
  ∧ (∀ (p : PortId) (mask : BitVec 8) (s : State), s.portState p = 6 → (s.port p).prop = none → (s.port p).agreed = none →
    mask ≠ 0 → mask &&& (s.port p).txMask = mask → s.fld LNK_FAB_CTL.MIN_W p ≤ laneCount mask →
    exec (.lnkFabWmask p mask) s =
      .next ((s.setPort p { s.port p with prop := some mask }).sendControl p (controlUnit 6 mask.toNat)))
  ∧ (∀ (p : PortId) (s : State), s.portState p = 11 → (s.fld LNK_FAB_STAT.HOLD p = 1 ∨ s.fld LNK_FAB_STAT.HOLD p = 4) →
    exec (.heldRetrainTimer p) s = .next (s.sendRetrain p))
  ∧ (∀ (p : PortId) (s : State), s.portState p = 11 →
    exec (.lnkFabRelease p) s = .next ((s.setFld LNK_FAB_STAT.HOLD 0 p).sendRetrain p))
  ∧ (∀ (p : PortId) (s : State), exec (.lnkFabHold p) s = .next (s.portHold p 5))
  ∧ (∀ (p : PortId) (s : State), s.portState p = 6 → exec (.lnkFabRetrain p) s = .next (s.sendRetrain p))

/-- R453, R463 to R468, R471, R472, R474, R480: packets that a link delivers, requests of other devices, routes. -/
def Obligations.FabricPackets : Prop :=
  (∀ (p : PortId) (vc : Fin 3) (g n q : Nat) (x : LinkSt) (k : Pkt) (s t : State), g = s.portGrp p → x = s.link g →
    n = x.exp.getD vc 0 → x.rx.find? (fun e => e.2.vc = vc.val && e.2.lseq = n) = some (q, k) →
    t = s.setLink g { x with rx := x.rx.erase (q, k), exp := x.exp.set vc ((n + 1) % 4096) } → (t.portRec q).use ≠ 2 →
    t.usable q = true → k.malformed = false →
    exec (.fabricPacketReceive p vc) s = .next (
      (fun (u : State) => if k.dst ≠ u.devId then u.transit q k
        else if k.isReq then { u with remq := u.remq ++ [(q, k)] }
        else if k.type = 8 then u.partialIn q k
        else u.fabAnswer q k) (t.freeUnits q k.pool (1 + k.pay.length))))
  ∧ (∀ (src : BitVec 14) (txn : BitVec 16) (q : Nat) (k : Pkt) (s t : State),
    s.remq.find? (fun e => e.2.src = src.toNat) = some (q, k) → k.txn = txn.toNat → t = { s with remq := s.remq.erase (q, k) } →
    t.fatal = false → k.spart ≤ 64 → t.reloading = none → (k.type = 1 ∨ k.type = 2 ∨ (k.type = 3 ∧ k.aop ≤ 9)) →
    k.lines.all (fun l => t.remAdmit k.spart l.1) = true →
    exec (.remoteRequest src txn) s = .next (t.remServe k))
  ∧ (∀ (src : BitVec 14) (txn : BitVec 16) (q : Nat) (k : Pkt) (s t : State),
    s.remq.find? (fun e => e.2.src = src.toNat) = some (q, k) → k.txn = txn.toNat → t = { s with remq := s.remq.erase (q, k) } →
    t.fatal = false → k.spart ≤ 64 → t.reloading = none → (k.type = 1 ∨ k.type = 2 ∨ k.type = 3) →
    k.lines.all (fun l => t.remAdmit k.spart l.1) = false →
    exec (.remoteRequest src txn) s = .next ((t.lnkRecord 0x39 q (k.src + k.spart * 2 ^ 14)).respondErr k 2))
  ∧ (∀ (txn : BitVec 16) (e : FabSlot) (a : Agent) (tag : Nat) (s : State), s.fabSlots.find? (fun e => e.txn = txn.toNat) = some e →
    e.src = some (a, tag) →
    exec (.linkRequestSlotTimeout txn) s =
      .next ((State.failReply { s with fabSlots := s.fabSlots.erase e } a tag 3).fabPump))
  ∧ (∀ (dev : BitVec 14) (data : Dword) (s : State),
    exec (.fabRouteWrite dev data) s = .next (s.setReg MC_FAB_RT
      (if dev.toNat = s.devId then data &&& 0xFFFFFFFFFFFF else data &&& 0x1FFFFFFFFFFFF) dev.toNat))

/-! ### Face sites -/

/-- R486 to R493: packets that a guest sends. A packet in sequence is taken; a request at the head of a slice's queue, which the
rights of 16 R492 admit, goes to its homes line by line; a reply completes it. -/
def Obligations.FaceRequests : Prop :=
  (∀ (n : SiteId) (sl : Fin 20) (beats : List Beat) (s t : State) (y : SliceF) (vc : Nat), s.siteState n = 4 →
    s.fld FACE_CAP.TRAINED n / 2 ^ sl.val % 2 = 1 → t = s.bumpN FACE_PC_RXB beats.length n → t.siteState n = 4 → y = t.fsl n sl →
    y.discard = false → beatsOk beats = true → y.rxSeq = y.rxNext → vc = hVc (pktHdr (beats.map (fun b => b.data))) →
    (vc = 0 → y.held0 + beats.length ≤ 256) → (vc = 2 → y.held2 + beats.length ≤ 16) →
    exec (.faceDataPacketReceive n sl beats 0) s = .next (t.faceAccept n sl (beats.map (fun b => b.data))))
  ∧ (∀ (n : SiteId) (sl : Fin 20) (k : List (BitVec 128)) (h : BitVec 128) (ls : List (Dword × MemOp)) (s t : State),
    s.faceTake n sl 1 = some (k, t) → h = pktHdr k → (hOrd h = true → s.site n = { s.site n with reqs := [] }) →
    ls = faceLines h (fun _ => .read 64) → (∀ l ∈ ls, t.faceWay n l.1 false = .go) →
    exec (.faceRead n sl) s = .next (t.faceServe n sl h ls))
  ∧ (∀ (n : SiteId) (sl : Fin 20) (k : List (BitVec 128)) (h : BitVec 128) (ls : List (Dword × MemOp)) (s t : State),
    s.faceTake n sl 2 = some (k, t) → h = pktHdr k →
    ls = faceLines h (fun i => .write (BitVec.allOnes 64) (BitVec.ofNat 512 (pktData k / 2 ^ (512 * i)))) →
    (∀ l ∈ ls, t.faceWay n l.1 true = .go) →
    exec (.faceWrite n sl) s = .next (t.faceServe n sl h ls))
  ∧ (∀ (n : SiteId) (sl : Fin 20) (k : List (BitVec 128)) (h : BitVec 128) (ls : List (Dword × MemOp)) (s t : State),
    s.faceTake n sl 3 = some (k, t) → h = pktHdr k →
    ls = faceLines h (fun _ => .write (BitVec.ofNat 64 (bvBits (k.getD 1 0) 0 64)) (BitVec.ofNat 512 (pktData (k.drop 1)))) →
    (∀ l ∈ ls, t.faceWay n l.1 true = .go) →
    exec (.faceWriteMasked n sl) s = .next (t.faceServe n sl h ls))
  ∧ (∀ (n : SiteId) (sl : Fin 20) (k : List (BitVec 128)) (h : BitVec 128) (s t : State),
    s.faceTake n sl 4 = some (k, t) → h = pktHdr k → t.faceWay n (hAddr h) true = .go →
    exec (.faceAtomic n sl) s = .next (t.faceServe n sl h
      [(hAddr h, .atomic (hAop h) (BitVec.ofNat 32 (hValue h)) (BitVec.ofNat 32 (bvBits (k.getD 1 0) 0 32)))]))
  ∧ (∀ (n : SiteId) (sl : Fin 20) (k : List (BitVec 128)) (ks : List (List (BitVec 128))) (x : Nat) (s t : State),
    (s.siteState n = 4 ∨ s.siteState n = 5) → (s.fsl n sl).q2 = k :: ks →
    t = (s.setFsl n sl { s.fsl n sl with q2 := ks }).faceFree n sl 2 k.length → x = hValue (pktHdr k) →
    (t.guestPart n).isSome = true → t.partOf (x / 256 % 64) = t.guestPart n →
    exec (.faceDoorbell n sl) s = .next (t.send (.doorbell (x / 256 % 64) (x % 256))))
  ∧ (∀ (n : SiteId) (tag : Nat) (d : Line) (s t : State) (e : SiteReq),
    t = (fun (u : State) => { u with reasons := u.reasons.filter (fun e => !(e.1 = Agent.site n.val && e.2.1 = tag)) })
      (s.recvMsg (.reply (.site n.val) tag (.data d))) →
    (t.site n).reqs.find? (fun e => e.left.contains tag) = some e → e.left = [tag] →
    exec (.faceReplyReturn n tag (.data d)) s = .next (State.faceDone
      (t.setSite n { t.site n with reqs := (t.site n).reqs.erase e }) n
      { e with left := [], data := smSet 0 e.data (tag - e.base) d } (.data d)))
  ∧ (∀ (n : SiteId) (tag : Nat) (s t : State) (e : SiteReq),
    t = (fun (u : State) => { u with reasons := u.reasons.filter (fun e => !(e.1 = Agent.site n.val && e.2.1 = tag)) })
      (s.recvMsg (.reply (.site n.val) tag .done)) →
    (t.site n).reqs.find? (fun e => e.left.contains tag) = some e → e.left.erase tag ≠ [] →
    exec (.faceReplyReturn n tag .done) s = .next
      (t.setSite n { t.site n with reqs := (t.site n).reqs.erase e ++ [{ e with left := e.left.erase tag }] }))

/-- R485 to R488, R495, R500: control beats of a slice, its training, and what its timers do. -/
def Obligations.FaceControl : Prop :=
  (∀ (n : SiteId) (sl : Fin 20) (seq : BitVec 12) (s t : State) (y : SliceF), (s.siteState n = 4 ∨ s.siteState n = 5) →
    s.fld FACE_CAP.TRAINED n / 2 ^ sl.val % 2 = 1 → t = s.bump FACE_PC_RXB n → t.siteState n ≠ 3 → y = t.fsl n sl →
    (y.ahead seq.toNat = false ∨ seq.toNat = y.txSeq) → y.past seq.toNat ≤ y.replay.length →
    exec (.faceAck n sl seq) s = .next ((t.setFsl n sl { y with replay := y.replay.drop (y.past seq.toNat) }).facePump n sl))
  ∧ (∀ (n : SiteId) (sl : Fin 20) (seq : BitVec 12) (s t : State) (y : SliceF), (s.siteState n = 4 ∨ s.siteState n = 5) →
    s.fld FACE_CAP.TRAINED n / 2 ^ sl.val % 2 = 1 → t = s.bump FACE_PC_RXB n → t.siteState n ≠ 3 → y = t.fsl n sl →
    y.ahead seq.toNat = false → y.past seq.toNat ≤ y.replay.length →
    exec (.faceNack n sl seq) s = .next (t.faceResend n sl (y.past seq.toNat)))
  ∧ (∀ (n : SiteId) (sl : Fin 20) (seq : BitVec 12) (s t : State) (y : SliceF), (s.siteState n = 4 ∨ s.siteState n = 5) →
    s.fld FACE_CAP.TRAINED n / 2 ^ sl.val % 2 = 1 → t = s.bump FACE_PC_RXB n → t.siteState n ≠ 3 → y = t.fsl n sl →
    (y.rxNext + 4096 - seq.toNat) % 4096 ≤ 64 →
    exec (.faceReplay n sl seq) s = .next (t.setFsl n sl { y with rxSeq := seq.toNat, discard := false }))
  ∧ (∀ (n : SiteId) (sl : Fin 20) (count : BitVec 14) (s t : State), (s.siteState n = 4 ∨ s.siteState n = 5) →
    s.fld FACE_CAP.TRAINED n / 2 ^ sl.val % 2 = 1 → t = s.bump FACE_PC_RXB n → t.siteState n ≠ 3 →
    exec (.faceCredit n sl 1 count) s = .next ((t.setFsl n sl { t.fsl n sl with credit := count.toNat }).facePump n sl))
  ∧ (∀ (n : SiteId) (sl : Fin 20) (depth : BitVec 12) (s t u : State), s.siteState n = 3 →
    s.fld FACE_CAP.TRAINED n / 2 ^ sl.val % 2 = 1 → t = s.bump FACE_PC_RXB n → t.siteState n = 3 → 68 ≤ depth.toNat →
    u = (t.setFld FACE_CAP.VERSION 1 n).setFld FACE_CAP.VC1_DEPTH depth.toNat n →
    exec (.faceCap n sl 1 depth) s = .next ((u.setFsl n sl { u.fsl n sl with cap := true, depth := depth.toNat }).siteTry n))
  ∧ (∀ (n : SiteId) (sl : Fin 20) (ctype : BitVec 4) (s : State), (s.siteState n = 3 ∨ s.siteState n = 4 ∨ s.siteState n = 5) →
    s.fld FACE_CAP.TRAINED n / 2 ^ sl.val % 2 = 1 → (ctype = 0 ∨ 6 ≤ ctype.toNat) →
    exec (.faceControlReserved n sl ctype) s = .next (((s.bump FACE_PC_RXB n).bumpErr FACE_ERR0.BAD_CTL n).siteViol n))
  ∧ (∀ (n : SiteId) (sl : Fin 20) (s : State), (s.siteState n = 4 ∨ s.siteState n = 5) → (s.fsl n sl).replay ≠ [] →
    exec (.faceReplayTimeout n sl) s = .next (s.faceResend n sl 0))
  ∧ (∀ (n : SiteId) (s : State), s.siteState n ≠ 0 →
    exec (.faceStrobeRetrim n) s = .next (s.setSite n { s.site n with retrim := s.fld MC_TSC.COUNT }))
  ∧ (∀ (n : SiteId) (sl : Fin 20) (s : State), s.siteState n = 3 → s.fld FACE_CAP.TRAINED n / 2 ^ sl.val % 2 = 0 →
    exec (.faceSliceTrained n sl) s =
      .next (((s.setFld FACE_CAP.TRAINED (s.fld FACE_CAP.TRAINED n + 2 ^ sl.val) n).faceDrive n sl
        [controlBeat 5 1, controlBeat 5 1, controlBeat 5 1]).siteTry n))
  ∧ (∀ (n : SiteId) (sl : Fin 20) (k : List (BitVec 128)) (ks : List (List (BitVec 128))) (s : State), s.siteState n = 4 →
    (s.fsl n sl).resp = k :: ks → (s.fsl n sl).room < k.length →
    exec (.faceStallTimeout n sl) s = .next ((s.bumpErr FACE_ERR3.STALL n).siteHold n 2))

/-- R494, R496, R543: the states of a face site, its alarm and the supply of its guest. -/
def Obligations.FaceStates : Prop :=
  (∀ (n : SiteId) (s t : State), s.siteState n = 0 → s.siteOcc n = true → s.domOn 76 = true → t = (s.siteTo n 1).guestOn n →
    exec (.faceCtlStart n) s = .next (t.setSite n { t.site n with tries := 0 }))
  ∧ (∀ (n : SiteId) (s : State), s.siteState n ≠ 0 → exec (.faceCtlStop n) s = .next ((s.siteTo n 0).guestOff n))
  ∧ (∀ (n : SiteId) (s : State), s.siteState n = 4 →
    exec (.faceCtlHold n) s =
      .next ((((s.setFld FACE_STAT.STATE 5 n).setFld FACE_STAT.HOLD 3 n).rebase 12 n).faceRecord 0x41 n 3))
  ∧ (∀ (n : SiteId) (s : State), s.siteState n = 5 →
    exec (.faceCtlRelease n) s = .next (if s.fld FACE_STAT.HOLD n = 4 then (s.siteTo n 1).guestOn n else s.siteTo n 3))
  ∧ (∀ (n : SiteId) (good : Bool) (s t : State), s.siteOcc n = true → t = s.setFld FACE_STAT.FPG 1 n →
    exec (.faceFpgRise n good) s = .next (if t.siteState n = 1 ∧ good then t.siteTo n 2 else t))
  ∧ (∀ (n : SiteId) (s t : State), s.siteOcc n = true → t = s.setFld FACE_STAT.FPG 0 n →
    exec (.faceFpgFall n) s = .next (if t.siteState n = 4 ∨ t.siteState n = 5 then t.siteTo n 2 else t))
  ∧ (∀ (n : SiteId) (s : State), s.siteState n = 1 →
    exec (.facePowerTimeout n) s = .next ((s.siteTo n 6).faceRecord 0x44 n 1))
  ∧ (∀ (n : SiteId) (s : State), s.siteState n = 2 → exec (.faceResetRelease n) s = .next (s.siteTo n 3))
  ∧ (∀ (n : SiteId) (s t : State), s.siteState n = 3 → t = s.setSite n { s.site n with tries := (s.site n).tries + 1 } →
    exec (.faceTrainTimeout n) s = .next (if (s.site n).tries < 3 then t.siteTo n 2
      else (t.siteTo n 6).faceRecord 0x44 n (3 + s.fld FACE_CAP.TRAINED n * 8)))
  ∧ (∀ (n : SiteId) (s : State), s.siteOcc n = true →
    exec (.faceAlarm n) s = .next ((s.setFld FACE_STAT.FALM 1 n).faceRecord 0x43 n 0)
    ∧ exec (.falmNDeassert n) s = .next (s.setFld FACE_STAT.FALM 0 n))
  ∧ (∀ (n : SiteId) (amps : BitVec 16) (s : State), s.fld PWR_G_MEAS.V n ≠ 0 →
    exec (.faceOvercurrent n amps) s =
      .next ((s.guestAmps n (min amps.toNat (s.fld PWR_G_MEAS.ILIM n))).faceRecord 0x42 n amps.toNat)
    ∧ exec (.faceOvercurrentTimeout n amps) s = .next ((s.guestAmps n amps.toNat).powerHold n)
    ∧ exec (.guestSupplyShort n amps) s = .next ((s.powerHold n).faceRecord 0x42 n amps.toNat))

/-! ### Command rings and the host -/

/-- R506, R507, R509, R511: the words of an item, its commit, the completion ring's pointers, flush and enable. -/
def Obligations.RingStaging : Prop :=
  (∀ (r : RingId) (data : Dword) (s : State), (s.ring r).stg = [] →
    exec (.cmdW0Write r data) s = .next ((s.setRing r { s.ring r with stg := [data], cut := false }).setFld CMD_STAT.DISCARD 0 r))
  ∧ (∀ (r : RingId) (i : Fin 6) (data : Dword) (s : State), s.bit CMD_STAT.DISCARD r = false → (s.ring r).stg.length = i.val + 1 →
    exec (.cmdWordWrite r i data) s = .next (s.setRing r { s.ring r with stg := (s.ring r).stg ++ [data] }))
  ∧ (∀ (r : RingId) (who : Option (Fin 64)) (data : Dword) (h : Nat) (ws : List Dword) (s t : State),
    s.bit CMD_STAT.DISCARD r = false → (s.ring r).stg.length = 7 → ws = (s.ring r).stg ++ [data] →
    s.commitStatus r (who.map (fun n => n.val)) ws = 0 → h = r.val * 2 ^ 26 + (s.ring r).seq →
    t = (s.setFld CMD_STAT.STATUS 0 r).setRing r { s.ring r with
      stg := [], seq := ((s.ring r).seq + 1) % 2 ^ 26, items := (s.ring r).items ++ [⟨h, ws⟩] } →
    exec (.cmdW7Commit r who data) s =
      .next (((t.setFld CMD_STAT.HANDLE h r).setFld CMD_STAT.OPEN (t.fld CMD_STAT.OPEN r + 1) r).bump HOST_PC_CMD))
  ∧ (∀ (r : RingId) (who : Option (Fin 64)) (data : Dword) (op : Nat) (s : State),
    s.bit CMD_STAT.DISCARD r = false → (s.ring r).stg.length = 7 → op = bvBits ((s.ring r).stg.getD 0 0) 0 8 →
    (op = 0 ∨ 9 < op) →
    exec (.cmdReservedOpcode r who data) s =
      .next (((s.setFld CMD_STAT.STATUS 3 r).setRing r { s.ring r with stg := [] }).setFld CMD_STAT.HANDLE 0 r))
  ∧ (∀ (r : RingId) (t : Option Nat) (n : Nat) (s u : State), (s.ring r).rb = some (t, n) →
    u = (fun (x : State) => x.setRing r { x.ring r with rb := none })
      { s with hostRds := s.hostRds.filter (fun h => some h.tag ≠ t || h.ring ≠ some r.val) } →
    exec (.cqRecordReadback r) s = .next
      ((fun (x : State) => (x.setFld CQ_PROD.PROD n r).ringBack r) (u.ringPut r (u.fld CQ_BASE.OFFSET r * 4096) 4 n)))
  ∧ (∀ (r : RingId) (data : Word) (s : State),
    (data.toNat + 2 ^ 32 - s.fld CQ_CONS.CONS r) % 2 ^ 32 ≤ (s.fld CQ_PROD.PROD r + 2 ^ 32 - s.fld CQ_CONS.CONS r) % 2 ^ 32 →
    exec (.cqConsWrite r data) s = .next (s.setFld CQ_CONS.CONS data.toNat r))
  ∧ (∀ (r : RingId) (s : State), (s.ring r).stg = [] → (s.ring r).items = [] → s.mcQueue = [] →
    exec (.ringFlush r) s = .next (s.setRing r { s.ring r with items := [] }))
  ∧ (∀ (r : RingId) (i : RingItem) (s t : State), (s.ring r).stg = [] → (s.ring r).items = [i] → s.mcQueue = [] →
    t = s.setRing r { s.ring r with items := [] } →
    exec (.ringFlush r) s = .next (t.ringDone i.handle (bvBits (i.words.getD 0 0) 0 8) 1 0))
  ∧ (∀ (r : RingId) (data : Word) (s t u : State), s.bit RING_CTL.EN r = false → 6 ≤ bvBits data 2 4 → bvBits data 2 4 ≤ 12 →
    t = s.setFld RING_CTL.CLOG (bvBits data 2 4) r → data.getLsbD 1 = true → t.fld MC_BOOT_STAT.RESULT ≠ 0 →
    u = t.setFld RING_CTL.EN 1 r →
    exec (.ringEnableWrite r data) s = .next ((u.ringPut r (u.fld CQ_BASE.OFFSET r * 4096 + 4) 60 0).ringDrain r))
  ∧ (∀ (r : RingId) (data : Word) (s : State), s.bit RING_CTL.EN r = true → data.getLsbD 1 = false →
    exec (.ringEnableWrite r data) s = .next (s.setFld RING_CTL.EN 0 r))

/-- R508, R514, R606, R631 and 03 R94: the commands of a ring. The item at its front, with the command's opcode, is taken and
runs; what the management core runs one at a time waits while it is busy. -/
def Obligations.RingCommands : Prop :=
  (∀ (r : RingId) (i : RingItem) (s t : State), s.ringTake r 1 = some (i, t) →
    exec (.nop r) s = .next (t.ringDone i.handle 1 0 0))
  ∧ (∀ (r : RingId) (img : List Byte) (i : RingItem) (s t : State), s.ringTake r 2 = some (i, t) → t.mcRun = none → t.mcQueue = [] →
    exec (.imageLoad r img) s = .next (t.imageStart (some i.handle) (bvBits (i.w 2) 0 32) img))
  ∧ (∀ (r : RingId) (img : List Byte) (i : RingItem) (s t : State), s.ringTake r 2 = some (i, t) →
    (t.mcRun.isSome = true ∨ t.mcQueue ≠ []) →
    exec (.imageLoad r img) s =
      .next { t with mcQueue := t.mcQueue ++ [.image (some i.handle) (bvBits (i.w 2) 0 32) img] })
  ∧ (∀ (r : RingId) (i : RingItem) (s t : State), s.ringTake r 3 = some (i, t) → t.mcRun = none → t.mcQueue = [] →
    (i.w 1).getLsbD 0 = false → 1 ≤ bvBits (i.w 2) 16 16 →
    (∀ k < bvBits (i.w 2) 16 16, t.holdsUnit (i.handle / 2 ^ 26) false (bvBits (i.w 1) 1 3) (bvBits (i.w 2) 0 16 + k) = true) →
    exec (.zeroise r) s = .next ((t.zeroCrock (bvBits (i.w 2) 0 16) (bvBits (i.w 2) 16 16)).ringDone i.handle 3 0 0))
  ∧ (∀ (r : RingId) (copies : List (Option (List (BitVec 19 × Line)))) (i : RingItem) (s t u : State) (n : Nat) (failed : Bool),
    s.migq = [] → s.mig = none → s.ringTake r 4 = some (i, t) →
    State.migrateGo r ((List.range (bvBits (i.w 2) 0 7)).map (fun k =>
      ((bvBits (i.w 1) 25 23 + k) % 2 ^ 23, copies.getD k none))) 0 t = (u, n, failed) →
    exec (.migrate r copies) s = .next (u.ringDone i.handle 4 (if failed then 5 else 0) n))
  ∧ (∀ (r : RingId) (crk : List (Nat × List (BitVec 20))) (cel : List (Nat × List (BitVec 72))) (i : RingItem) (d : ChanId)
      (k j : Nat) (idle : Dword) (s t u w : State),
    s.ringTake r 5 = some (i, t) → (i.w 1).getLsbD 0 = false → d.val = bvBits (i.w 1) 8 8 → k = d.val / 16 → j = d.val % 16 →
    idle = BitVec.ofNat 64 (t.fld CRK_CH_CTL.SR_IDLE k j) →
    u = (fun (x : State) => (((x.setFld CRK_TG_BASE.BASE (i.w 3).toNat k j).setFld CRK_TG_LEN.LEN (i.w 4).toNat k j).setFld
      CRK_TG_SEED.SEED (i.w 5).toNat k j).setFld CRK_TG_STAT.REJ 0 k j) (after (execCrkChTestWrite d (idle ||| 0x10000) t) t) →
    w = (fun (x : State) => after (execCrkTgRunEnd d crk x) x) (after (execCrkTgGo d (((i.w 2 &&& 0x3F) <<< 2) ||| 1) u) u) →
    exec (.test r crk cel) s = .next ((after (execCrkChTestWrite d idle w) w).ringDone i.handle 5
      (if w.bit CRK_TG_STAT.REJ k j || w.bit CRK_TG_STAT.ABORTED k j then 5 else 0) (w.fld CRK_TG_ERR.LINES_BAD k j)))
  ∧ (∀ (r : RingId) (i : RingItem) (s t : State), s.ringTake r 6 = some (i, t) → t.mcRun = none → t.mcQueue = [] →
    (t.twinState = 1 ∨ 4 ≤ t.twinState) →
    exec (.twinSync r) s = .next (State.syncPair (State.twinNotice
      { t with mcRun := some (.sync i.handle ((i.w 1).getLsbD 0) ((i.w 1).getLsbD 1)) } 5)))
  ∧ (∀ (r : RingId) (i : RingItem) (s t : State), s.ringTake r 7 = some (i, t) → bvBits (i.w 1) 0 44 % 32 = 0 →
    (∀ e < 128, t.hostMap (bvBits (i.w 1) 0 44 + 32 * e) none true ≠ none) →
    exec (.keepQuery r) s = .next ((fun (x : State) => x.ringDone i.handle 7 0 x.keep.length)
      ((List.range 128).foldl (fun (s : State) e => match s.hostMap (bvBits (i.w 1) 0 44 + 32 * e) none true with
        | some (h, rid) => s.hostPost h rid 32 (match smFind s.keep e with
          | some k => k.bytes
          | none => 0)
        | none => s) t)))
  ∧ (∀ (r : RingId) (i : RingItem) (k : KeepEnt) (s t : State), s.ringTake r 8 = some (i, t) →
    smFind t.keep (bvBits (i.w 1) 0 7) = some k →
    exec (.keepTag r) s =
      .next (State.ringDone { t with keep := smPut t.keep (bvBits (i.w 1) 0 7) { k with tag := i.w 2 } } i.handle 8 0 0))
  ∧ (∀ (r : RingId) (i : RingItem) (s t : State), s.ringTake r 9 = some (i, t) →
    (∀ k, smFind t.keep (bvBits (i.w 1) 0 7) = some k → k.active = false ∨ k.lost = true) →
    exec (.keepDrop r) s = .next (State.ringDone { t with keep := smDel t.keep (bvBits (i.w 1) 0 7) } i.handle 9 0 0))
  ∧ (∀ (img : List Byte) (bad : Bool) (s : State), s.mcRun = none →
    exec (.mcQueueNext img bad) s = .next (State.queueGo s.mcQueue.length s))
  ∧ (∀ (img b : List Byte) (bad : Bool) (h : Option Nat) (len : Nat) (s t : State), s.mcRun = some (.image h len b) →
    s.imageEnd h b img bad = some t →
    exec (.mcQueueNext img bad) s = .next (State.queueGo t.mcQueue.length t))
  ∧ (∀ (p : Nat) (s : State), s.reloading = some p →
    exec .reloadCancelTimeout s = .next ((s.vatsOf p).foldl (fun (s : State) v => (List.range 256).foldl (fun (s : State) i =>
      if s.taskState v i = 3 then ((s.endTask (s.taskCore v i) 6).members (s.taskCore v i)).foldl
        (fun (s : State) m => s.updCore m CoreSt.afterReset) (s.endTask (s.taskCore v i) 6) else s) s) s))

/-- R502, R503, R515, R517, R519, R524: the link of the host, resets of functions, completions of device reads. -/
def Obligations.HostEvents : Prop :=
  (∀ (s : State), exec .hostLinkDown s =
    .next ((((s.hostReset.setReg HOST_STAT 0).bumpErr HOST_ERR2.LINK_DOWN).dicLatch 225).hostRecord 0x48 0))
  ∧ (∀ (width speed : Nat) (flit : Bool) (s : State), (width = 4 ∨ width = 8 ∨ width = 16) → 1 ≤ speed → speed ≤ 6 →
    (speed = 6 → flit = true) → s.domOn 77 = true →
    exec (.hostLinkUp width speed flit) s = .next ((((s.setFld HOST_STAT.DL_UP 1).setFld HOST_STAT.WIDTH width).setFld
      HOST_STAT.SPEED speed).setFld HOST_STAT.FLIT flit.toNat))
  ∧ (∀ (n : Fin 64) (p : Nat) (s t : State), s.vfPart n = some p →
    t = (List.range 256).foldl (fun (s : State) w =>
      if s.fld HOST_WIN_CFG.OWNER w = p then s.setFld HOST_WIN_CFG.EN 0 w else s) (s.ringStop p) →
    exec (.flrVf n) s = .next { t with msix := t.msix.filter (fun e => t.vecFn e.1 ≠ n.val) })
  ∧ (∀ (s : State), exec .flrPf s = .next s.hostReset)
  ∧ (∀ (tag : Nat) (d : Line) (h : HostRd) (s : State), s.hostRds.find? (fun h => h.tag = tag) = some h →
    exec (.hostCompletion tag (.data d)) s = .next (State.hostData { s with hostRds := s.hostRds.erase h } h d))
  ∧ (∀ (tag : Nat) (c : HostCpl) (s : State), s.hostRds.find? (fun h => h.tag = tag) = none →
    exec (.hostCompletion tag c) s = .next (s.bumpErr HOST_ERR0.UNEXP_CPL))
  ∧ (∀ (tag : Nat) (h : HostRd) (s t : State), s.hostRds.find? (fun h => h.tag = tag) = some h →
    t = { s with hostRds := s.hostRds.erase h } →
    exec (.hostCompletionTimeout tag) s = .next
      (((t.bumpErr HOST_ERR1.CPL_TO).fault { cls := 0x49, part := s.hostRdPart h, unit := 8, info := tag }).hostFail h))
  ∧ (∀ (fn : Fin 64) (s t : State), s.domOn 77 = true → t = s.bump HOST_PC_RXREQ →
    exec (.configurationRequest fn) s = .next
      { t with hostRsp := if s.fld MC_BOOT_STAT.RESULT = 0 ∧ s.fld MC_BOOT_STAT.PHASE ≤ 3 then .requestRetry else .success })

/-! ### Twin pairs, the Rind, the ledger -/

/-- R598 to R612: records of a twin, their comparison, tests, the leader, loss of the partner, notices, and the
synchronisation of a follower. -/
def Obligations.TwinPairs : Prop :=
  (∀ (v : VatId) (st : Fin 129) (err : HdrErr) (agree : Bool) (w : Nat × Nat × Dword) (ws : List (Nat × Nat × Dword))
      (i : Nat) (r : BitVec 124) (s t u : State), (s.stream v st).recs = w :: ws → s.signOn = true → r = recOf v st w →
    s.twinFind (recKey r) = none → s.twinFree = some i →
    t = State.setTwinEnt { s with twinNext := (i + 1) % 4096 } i (some ⟨true, r⟩) →
    u = t.setStream v st { t.stream v st with recs := ws } → ws ≠ [] →
    exec (.twinOwnRecord v st err agree) s =
      .next (u.twinSend { s.twinPkt 0xA 0 with npay := 1, pay := [BitVec.ofNat 256 (1 + r.toNat * 2 ^ 8)] }))
  ∧ (∀ (r : BitVec 124) (err : HdrErr) (agree : Bool) (p i : Nat) (rest : List (Nat × BitVec 124 × Bool)) (s t : State),
    s.twinIn = (p, r, false) :: rest → s.signOn = true → s.twinFind (recKey r) = none → s.twinFree = some i →
    t = State.setTwinEnt { s with twinNext := (i + 1) % 4096 } i (some ⟨false, r⟩) →
    exec (.twinPartnerRecord r err agree) s = .next { t with twinIn := rest })
  ∧ (∀ (r : BitVec 124) (p i : Nat) (e : TwinEnt) (rest : List (Nat × BitVec 124 × Bool)) (s t : State),
    s.twinIn = (p, r, false) :: rest → s.signOn = true → s.twinFind (recKey r) = some (i, e) → e.own = true → e.word = r →
    t = (s.setTwinEnt i none).bump TWIN_PC_MATCH →
    exec (.twinPartnerRecord r .ok true) s = .next { t with twinIn := rest })
  ∧ (∀ (e : Fin 4096) (x : TwinEnt) (s : State), s.twinEnt e = some x → s.signOn = true →
    exec (.twinMatchTimeout e) s = .next ((s.setTwinEnt e none).twinMismatch (recKey x.word) (if x.own then 3 else 2)
      (if x.own then recSig x.word else 0) (if x.own then 0 else recSig x.word)))
  ∧ (∀ (good : Bool) (s t : State), s.twinState ≠ 0 → t = { s with twinBit := (s.twinBit + 1) % 123 } →
    exec (.twinInjectedTest good) s = .next (if good then t.bump TWIN_PC_TEST else t.twinCmpFault (1 + s.twinBit * 2))
    ∧ exec (.twinTestGo good) s = .next (if good then t.bump TWIN_PC_TEST else t.twinCmpFault (1 + s.twinBit * 2)))
  ∧ (∀ (s : State), (s.twinState = 6 ∨ s.twinState = 7) → exec .twinLead s = .next (s.setFld TWIN_STAT.LEADER 1))
  ∧ (∀ (s : State), s.linkPorts twinGrp = [] → (s.twinState = 3 ∨ s.twinState = 4 ∨ s.twinState = 5) →
    exec .twinLinkLostTimeout s = .next ((((s.twinEnter 6).twinClear).setFld TWIN_EVT.ALONE 1).fault (twinRec 0x63 0)))
  ∧ (∀ (code : BitVec 8) (peer : Option (Bool × Bool)) (p : Nat) (rest : List (Nat × Nat)) (s t : State),
    s.twinNotes = (p, code.toNat) :: rest → t = { s with twinNotes := rest } → 1 ≤ code.toNat → code.toNat ≤ 6 →
    exec (.twinNotice code peer) s = .next (
      if code = 1 then t.twinDiverge none
      else if code = 2 then (if t.twinState = 3 then t.twinCmpFault 0 else t)
      else if code = 3 then t.twinBroken 0
      else if code = 4 then t.twinAlone 1
      else if code = 5 then State.syncPair { t with twinPeer := peer.map (fun (d, n) => (d, n, s.fld MC_TSC.COUNT)) }
      else State.syncDone { t with twinSync := t.twinSync.map (fun x => { x with peerDone := true }) }))
  ∧ (∀ (h : Nat) (a b : Bool) (s : State), s.twinState ≠ 2 → s.mcRun = some (.sync h a b) →
    exec .twinSyncPairTimeout s = .next (State.ringDone { s with mcRun := none, twinSync := none, twinWr := [] } h 6 5 0))
  ∧ (∀ (addr : Dword) (p : Nat) (k : Pkt) (rest : List (Nat × Pkt)) (s t u : State), s.twinWr = (p, k) :: rest → k.addr = addr →
    s.twinState = 2 → t = { s with twinWr := rest } → t.usable p = false → t.syncWrite k = some u →
    exec (.twinSyncWrite addr) s = .next (
      (fun (w : State) => w.twinSend { w.twinPkt 5 1 with txn := k.txn }) { u with twinSync := u.twinSync.map (fun x => { x with
        bytes := x.bytes + (if k.addr.toNat < 0x430000000 ∨ 0x440000000 ≤ k.addr.toNat then 32 * k.npay else 4) }) }))
  ∧ (∀ (x : TwinSync) (s : State), s.twinSync = some x → x.bad = false → x.left = 0 → s.twinWr = [] → x.ownDone = false →
    (x.sink = false ∨ x.nocopy = true ∨ x.peerDone = true) →
    exec .twinSyncCopyDone s =
      .next ((State.twinNotice { s with twinSync := some { x with ownDone := true } } 6).syncDone))

/-- R617 to R635: the authenticated commands, self-tests and entropy of the Rind. A command whose block passes every check of
21 R626 has its effect; the nonce is then a fresh one; its status is 0. -/
def Obligations.RindCommands : Prop :=
  (∀ (b : List Byte) (s t : State), blkCode b = 1 → RindReady s → t = { s with rindWait := false } → t.blkCheck (some b) = (8, 0) →
    exec (.enroll b) s = .next ((((fun (u : State) =>
      u.setKeySlot (blkAt b 0 1) { state := 1, ec := bytesAt b 72 97, ml := bytesAt b 176 2592 })
        { t with mram := { t.mram with claimed := true } }).freshNonce).rindDone 0))
  ∧ (∀ (b : List Byte) (s t : State), blkCode b = 2 → RindReady s → t = { s with rindWait := false } → t.blkCheck (some b) = (8, 0) →
    exec (.revoke b) s =
      .next (((t.setKeySlot (blkAt b 0 1) { t.keySlot (blkAt b 0 1) with state := 2 }).freshNonce).rindDone 0))
  ∧ (∀ (b : List Byte) (s t : State), blkCode b = 3 → RindReady s → t = { s with rindWait := false } → t.blkCheck (some b) = (8, 0) →
    exec (.setMinseq b) s = .next (((State.rindShow
      { t with mram := { t.mram with minSeq := BitVec.ofNat 64 (blkAt b 0 8) } }).freshNonce).rindDone 0))
  ∧ (∀ (b fw : List Byte) (s t : State), blkCode b = 4 → RindReady s → t = { s with rindWait := false } →
    t.blkCheck (some b) = (8, 0) → fw = bytesAt b 72 (blkPay b - 8) →
    exec (.fwUpdate b) s = .next ((State.freshNonce { t with mram := { t.mram with
      bankA := if blkAt b 0 1 = 0 then fw else t.mram.bankA, bankB := if blkAt b 0 1 = 0 then t.mram.bankB else fw
      active := blkAt b 0 1, trial := true, attempts := 0 } }).rindDone 0))
  ∧ (∀ (b : List Byte) (s t : State), blkCode b = 5 → RindReady s → t = { s with rindWait := false } → t.blkCheck (some b) = (8, 0) →
    exec (.setFwsvn b) s = .next (((State.rindShow
      { t with mram := { t.mram with minSvn := max t.mram.minSvn (blkAt b 0 2) } }).freshNonce).rindDone 0))
  ∧ (∀ (b : List Byte) (s t : State), blkCode b = 6 → RindReady s → t = { s with rindWait := false } → t.blkCheck (some b) = (8, 0) →
    exec (.debugUnlock b) s =
      .next (((((t.rindErase.setFld RIND_STAT.DEBUG 1).keptSync).fault (rindRec 0x6A 0)).freshNonce).rindDone 0))
  ∧ (∀ (b : List Byte) (s t : State), blkCode b = 7 → RindReady s → t = { s with rindWait := false } → t.blkCheck (some b) = (8, 0) →
    exec (.decommission b) s = .next ((t.rindDecommission.freshNonce).rindDone 0))
  ∧ (∀ (b : List Byte) (s t u : State) (r : List Byte), blkCode b = 8 → RindReady s → t = { s with rindWait := false } →
    t.blkCheck (some b) = (8, 0) → r = t.report (bytesAt b 64 48) →
    t.rindWrite (t.reg RIND_RSP_ADDR) (r ++ Config.reportTail t.runBank r) = some u →
    exec (.attest b) s = .next (u.rindDone 0))
  ∧ (∀ (s t : State), RindReady s → t = { s with rindWait := false } →
    exec (.rindCmdReserved none) s = .next ((t.bumpErr RIND_ERR.CMD_FAIL).rindDone 0x0B))
  ∧ (∀ (b : List Byte) (s t : State), RindReady s → t = { s with rindWait := false } → (blkCode b = 0 ∨ 9 ≤ blkCode b) →
    t.rindReads (t.reg RIND_CMD_ADDR) = true → b.length = t.fld RIND_CMD_LEN.LEN → 64 ≤ b.length → b.length ≤ 2 ^ 23 →
    exec (.rindCmdReserved (some b)) s = .next ((t.bumpErr RIND_ERR.CMD_FAIL).rindDone 1))
  ∧ (∀ (row : Fin 8) (s t : State), s.fld RIND_STAT.STATE = 1 →
    t = (s.setFld RIND_STAT.STATE 3).setFld RIND_STAT.VALIDATED 0 →
    exec (.rindSelftest (some row)) s = .next (State.goFatal { t with rindWait := false } 3 (rindRec 0x69 0)))
  ∧ (∀ (s : State), exec (.rindSelftest none) s = .next s ∧ exec (.rindEntropySample true) s = .next s)
  ∧ (∀ (s t : State), (s.fld RIND_STAT.STATE = 1 ∨ s.fld RIND_STAT.STATE = 2) →
    t = (s.setFld RIND_STAT.STATE 3).setFld RIND_STAT.VALIDATED 0 →
    exec (.rindEntropySample false) s = .next (State.goFatal { t with rindWait := false } 3 (rindRec 0x69 3)))
  ∧ (∀ (s : State), 2 ^ 20 ≤ s.drbg → exec .drbgReseed s = .next { s with drbg := 0 })

/-- R55, R60 to R66: audits of the ledger, its self-test, late replies. -/
def Obligations.LedgerAudits : Prop :=
  (∀ (s : State), s.domOn 77 = true → s.audit = none →
    exec .ledgerAuditStart s = .next { s with audit := some { test := s.ledgerTest }, ledgerTest := none, rebased := [] })
  ∧ (∀ (pool : Fin 15) (inst : BitVec 16) (diff : Int) (a : Audit) (s : State), s.audit = some a → poolInst pool inst.toNat = true →
    s.poolPowered pool inst.toNat = true →
    exec (.ledgerMarkerPass pool inst diff) s =
      .next { s with audit := some { a with reports := addReport a.reports (pool.val, inst.toNat) diff } })
  ∧ (∀ (a : Audit) (s t : State), s.audit = some a → a.test = none → (∀ e ∈ a.reports, e.2 = 0) →
    s.bumpRaw MC_LEDGER_AUDITS 0 0 0 = (t, false) →
    exec .ledgerCompare s = .next { t with audit := none, rebased := [] })
  ∧ (∀ (a : Audit) (k : Nat × Nat) (d : Int) (s t : State), s.audit = some a → a.test = none →
    (a.reports.filter (fun e => !s.excluded.contains e.1 && !s.rebased.contains e.1)).find? (fun e => e.2 ≠ 0) = some (k, d) →
    (s.ledgerMismatch k d).bumpRaw MC_LEDGER_AUDITS 0 0 0 = (t, false) →
    exec .ledgerCompare s = .next { t with audit := none, rebased := [] })
  ∧ (∀ (data : Word) (s t : State), data.getLsbD 0 = true → t = s.setFld MC_LEDGER_CTL.TEST_POOL (bvBits data 4 4) →
    t.bit MC_LEDGER_STAT.BUSY = false → bvBits data 4 4 ≠ 15 →
    exec (.ledgerTestGo data) s = .next (State.setFld { t with ledgerTest := some (bvBits data 4 4) } MC_LEDGER_STAT.BUSY 1))
  ∧ (∀ (dst : Agent) (tag : Nat) (res : Reply) (s t : State), s.awaits dst tag = false → t = s.recvMsg (.reply dst tag res) →
    exec (.lateReplyDiscard dst tag res) s = .next
      { t with late := t.late + 1, reasons := t.reasons.filter (fun e => !(e.1 = dst && e.2.1 = tag)) })

/-! ### Events, interrupts, power -/

/-- R521 to R538: doorbells and events of a vat, and the device interrupt controller. -/
def Obligations.EventsAndInterrupts : Prop :=
  (∀ (v : VatId) (src : BitVec 8) (s t : State), s.vatLive v = true → t = s.recvMsg (.doorbell v src.toNat) →
    exec (.doorbell v src) s = .next (if src.toNat < 16 then t.bumpErr VAT_EV_ERR.DB_BAD v
      else (t.bump VAT_EV_PC_DBELL v).raiseVat v src.toNat))
  ∧ (∀ (v : VatId) (data : Word) (s : State), s.vatLive v = true → exec (.vatEvDbellWrite v data) s =
      .next (if bvBits data 0 8 < 16 then s.bumpErr VAT_EV_ERR.DB_BAD v else (s.bump VAT_EV_PC_DBELL v).raiseVat v (bvBits data 0 8)))
  ∧ (∀ (v : VatId) (src : Fin 16) (s : State), s.vatLive v = true → src.val < 8 → exec (.vatEvent v src) s = .next (s.raiseVat v src))
  ∧ (∀ (n : Fin 256) (s : State), s.srcLevel n ≠ s.bit DIC_SRC.LEVEL n →
    exec (.dicLevelChange n) s = .next (s.dicApply [n.val] (fun t =>
      (fun (u : State) => if u.bit DIC_SRC.INSVC n then u else u.setBankBit DIC_PEND.PEND (u.srcFast n) n (s.srcLevel n))
        ((fun (u : State) => u.setFld DIC_LEVEL.LEVEL (if s.srcLevel n then u.fld DIC_LEVEL.LEVEL (n.val / 64) + 2 ^ (n.val % 64)
          else u.fld DIC_LEVEL.LEVEL (n.val / 64) - 2 ^ (n.val % 64)) (n.val / 64)) (t.setFld DIC_SRC.LEVEL (s.srcLevel n).toNat n)))))
  ∧ (∀ (t : TargetIx) (n : Fin 256) (s u : State), s.sees t false n = true → u = s.dicApply [n.val] (fun x => x.srcClaim n t) →
    exec (.dicClaim t false n) s = .next (u.setFld DIC_CLAIM.SRC n t n))
  ∧ (∀ (t : TargetIx) (n : Fin 256) (s u : State), s.sees t true n = true → u = s.dicApply [n.val] (fun x => x.srcClaim n t) →
    exec (.dicClaim t true n) s = .next (u.setFld DIC_FCLAIM.SRC n t n))
  ∧ (∀ (t : TargetIx) (fast : Bool) (data : Word) (n : Nat) (s : State), n = bvBits data 0 8 → s.bit DIC_SRC.INSVC n = true →
    s.fld DIC_SRC.OWNER n = t.val → s.srcFast n = fast →
    exec (.dicComplete t fast data) s = .next (s.srcDone n))
  ∧ (∀ (fast : Bool) (data : Word) (ns : List Nat) (s : State),
    ns = (s.bankWord fast (bvBits data 0 2)).filter (fun n => s.bit DIC_SRC.LEVEL n && !s.bit DIC_SRC.INSVC n) →
    exec (.dicResample fast data) s =
      .next (s.dicApply ns (fun s => ns.foldl (fun (s : State) n => s.setBankBit DIC_PEND.PEND fast n true) s)))
  ∧ (∀ (fast : Bool) (w : Fin 4) (data : Dword) (s : State), exec (.dicMaskWrite fast w data) s =
      .next (s.dicApply (s.bankWord fast w) (fun t =>
        (s.bankWord fast w).foldl (fun (s : State) n => s.setBankBit DIC_MASK.MASK fast n (data.getLsbD (n % 64))) t)))
  ∧ (∀ (n : Fin 256) (data : Dword) (s : State), n.val < 234 → exec (.dicSrcWrite n data) s =
      .next (s.dicApply [n.val] (fun t =>
        (fun (u : State) => if t.srcFast n = u.srcFast n then u
          else (u.setBankBit DIC_PEND.PEND (t.srcFast n) n false).setBankBit DIC_PEND.PEND (u.srcFast n) n
            (t.bankBit DIC_PEND.PEND (t.srcFast n) n))
          (t.putFields [⟨DIC_SRC, 0, 15, .rw⟩, DIC_SRC.CLASS, DIC_SRC.AUTO, DIC_SRC.VEC] data n))))
  ∧ (∀ (t : TargetIx) (fast : Bool) (s u : State) (x : Nat) (auto : List Nat), (s.dicTgt t fast).timer = some x →
    s.dicDeliver t fast = (u, auto) →
    exec (.dicCoalTimeout t fast) s = .next (auto.foldl (fun (s : State) n =>
      if s.bit DIC_SRC.INSVC n then s else s.dicApply [n] (fun s => s.srcClaim n 15)) u))
  ∧ (∀ (n : Fin 256) (s : State), s.bit DIC_SRC.INSVC n = true → s.fld DIC_SRC.OWNER n = 15 →
    exec (.dicAutoComplete n) s = .next (s.srcDone n))

/-- R543 to R550, R562 to R564: the voltage loops and their caps, the sensors, and the registers of power. -/
def Obligations.PowerLoops : Prop :=
  (∀ (v : VatId) (b : Fin 1025) (s : State) (a want x hw code : Nat), s.domState v = 2 → a = s.fld PWR_VAT_V.APPLIED v →
    want = s.vatWant v b → (code, hw) = lowestCap (s.hwCaps v) →
    x = loopSet want (s.fld PWR_VAT_V.FLOOR v) (s.fld PWR_VAT_V.CAP v) hw → s.fld PWR_VAT_V.FLOOR v ≤ x → want ≤ x →
    exec (.vatVoltageLoop v b) s = .next (((s.setFld PWR_VAT_V.APPLIED (if a < x then a + 1 else max x (a - 20)) v).setFld
      PWR_VAT_V.HWCAP hw v).setFld PWR_VAT_V.BIND 0 v))
  ∧ (∀ (bodra guest gloss : BitVec 16) (s t u : State) (cap : Nat),
    t = ((s.setFld PWR_MEAS.BODRA bodra.toNat).setFld PWR_MEAS.GUEST guest.toNat).setFld PWR_MEAS.GLOSS gloss.toNat →
    cap = t.fld PWR_LIMIT.DEVCAP →
    u = { t with sup := { t.sup with above := t.sup.above && decide (t.limit10 < bodra.toNat) } } →
    exec (.powerGovernor bodra guest gloss) s = .next (
      if t.limit10 < bodra.toNat then u.setFld PWR_LIMIT.DEVCAP (max 10 (cap - 1))
      else if bodra.toNat * 100 < t.limit10 * 97 then u.setFld PWR_LIMIT.DEVCAP (min 70 (cap + 1))
      else u))
  ∧ (∀ (s : State), s.fld PWR_LIMIT.DEVCAP = 10 → s.limit10 < s.fld PWR_MEAS.BODRA →
    exec .powerOverLimit s = .next (State.setFld { s with sup := { s.sup with above := true } } PWR_EVT.OVER 1))
  ∧ (∀ (v : VatId) (c : Nat) (s : State), (s.vatPow v).dieCap = some c → s.throt - 2 ≤ s.vatTj v →
    exec (.dieCapStep v) s = .next (s.setVatPow v { s.vatPow v with dieCap := some (max 10 (c - 2)) }))
  ∧ (∀ (v : VatId) (amps : BitVec 16) (s : State), s.domState v = 2 → 240 ≤ amps.toNat →
    exec (.vatCurrentLimit v amps) s = .next (s.setVatPow v { s.vatPow v with
      curCap := some (max 10 ((s.vatPow v).curCap.getD (s.fld PWR_VAT_V.APPLIED v) - 2)) }))
  ∧ (∀ (n : Fin 136) (temp : BitVec 8) (s t : State), 128 ≤ n.val → s.bit PWR_SENS.FAILED n = false →
    degC temp.toNat < 105 →
    t = (s.setFld PWR_SENS.TEMP temp.toNat n).setFld PWR_SENS.PEAK
      (hotter (s.fld PWR_SENS.PEAK n) temp.toNat) n →
    t.bit PWR_SENS.FAILED n = false →
    exec (.sensorSample n temp) s = .next t)
  ∧ (∀ (v : VatId) (data : Dword) (s : State), 10 ≤ bvBits data 0 8 → bvBits data 0 8 ≤ bvBits data 8 8 → bvBits data 8 8 ≤ 70 →
    exec (.pwrVatVWrite v data) s = .next (s.putFields [PWR_VAT_V.FLOOR, PWR_VAT_V.CAP, PWR_VAT_V.POLICY] data v))
  ∧ (∀ (data : Word) (s : State),
    exec (.pwrLimitWrite data) s = .next (s.setFld PWR_LIMIT.LIMIT (min (bvBits data 0 10) s.img.powerLimit)))
  ∧ (∀ (n : SiteId) (data : Word) (s t : State), 20 ≤ bvBits data 0 8 → bvBits data 0 8 ≤ 100 →
    t = s.setFld PWR_G_CFG.VSET (bvBits data 0 8) n →
    exec (.pwrGCfgWrite n data) s = .next (if t.fld PWR_G_MEAS.V n = 0 then t else t.guestOn n))

/-- R516, R540, R542, R551 to R559, R646 to R649: power domains, their faults, their two copies, and the loss of power. -/
def Obligations.PowerDomains : Prop :=
  (∀ (d : DomId) (s : State), s.domState d ≠ 1 → s.domState d ≠ 3 → s.reqOk d true = true →
    exec (.domainReqOn d) s = .next (s.domRamp d))
  ∧ (∀ (d : DomId) (s : State), s.domState d ≠ 1 → s.domState d ≠ 3 → s.reqOk d false = true →
    exec (.domainReqOff d) s = .next (s.domDrain d))
  ∧ (∀ (d : DomId) (s : State), (s.domState d = 1 ∨ s.domState d = 3) →
    exec (.domainReqOn d) s = .next { s with domReq := smPut s.domReq d 2 }
    ∧ exec (.domainReqOff d) s = .next { s with domReq := smPut s.domReq d 1 })
  ∧ (∀ (d : DomId) (s t : State), s.domState d = 1 → t = (s.setFld PWR_DOM_STAT.STATE 2 d).domBegin d →
    exec (.domainRampComplete d) s = .next (State.reqWaiting { t with domStart := t.domStart.filter (fun e => e ≠ d.val) } d))
  ∧ (∀ (d : DomId) (s : State), s.domState d = 3 → (s.drainHome d).drained d = true →
    exec (.domainDrainComplete d) s = .next ((((s.drainHome d).setFld PWR_DOM_STAT.STATE 0 d).domLost d).reqWaiting d))
  ∧ (∀ (d : DomId) (data : Word) (s t : State), t = s.setFld PWR_DOM_SHADOW.STATE (bvBits data 0 3) d →
    exec (.pwrDomShadowWrite d data) s = .next (if bvBits data 0 3 = t.domState d then t.setSkew d false else t))
  ∧ (∀ (d : DomId) (s : State), s.fld PWR_DOM_SHADOW.STATE d ≠ s.domState d →
    exec (.stateSkew d) s = .next (((s.setSkew d true).setFld PWR_EVT.SKEW 1).fault
      (pwrRec 0x51 d (s.fld PWR_DOM_SHADOW.STATE d + s.domState d * 8))))
  ∧ (∀ (v : VatId) (why : RegReason) (s : State),
    exec (.regulatorFault (.mesh v) why) s = .next ((s.setFld PWR_EVT.REG 1).goFatal 3 (pwrRec 0x50 v (reasonCode why))))
  ∧ (∀ (k : Fin 8) (why : RegReason) (s t : State),
    t = (List.range 16).foldl (fun (s : State) j => s.setFld CRK_CH_ECCSTAT.FAILED 1 k j) s →
    exec (.regulatorFault (.crock k) why) s =
      .next (((t.dicLatch (195 + k.val)).setFld PWR_EVT.REG 1).fault (pwrRec 0x50 k (reasonCode why))))
  ∧ (∀ (d : DomId) (why : RegReason) (s t : State), 64 ≤ d.val → d.val < 77 →
    (s.domState d = 1 ∨ s.domState d = 2 ∨ s.domState d = 3) →
    t = ((s.setFld PWR_DOM_STAT.STATE 4 d).setFld PWR_DOM_STAT.REASON (reasonCode why) d).setFld PWR_EVT.REG 1 →
    exec (.regulatorFault (.dom d) why) s = .next (((t.fault (pwrRec 0x50 d (reasonCode why))).domLost d).reqWaiting d))
  ∧ (∀ (noCrk : BitVec 128) (noCel : BitVec 8) (s t u : State), s.sup.pwrOk = true → t = s.finishWrites →
    u = t.powerDown (t.sup.lost ++ (t.keep.filter (fun (_, k) => if k.cellar then noCel.getLsbD k.pos
      else (t.chanSet k.region).any (fun c => noCrk.getLsbD c))).map Prod.fst) →
    exec (.powerFailWarning noCrk noCel) s = .next { u with sup := { u.sup with pwrOk := false, due := none } })
  ∧ (∀ (src : BitVec 12) (temp : BitVec 8) (mram : Fin 4) (s t u : State), s.sup.pwrOk = true → s.sup.tripped = false →
    s.tripSrc src.toNat = true → 120 ≤ degC temp.toNat →
    t = s.setReg PWR_TRIP_REC (BitVec.ofNat 64
      (1 + mram.val * 2 + src.toNat * 2 ^ 4 + temp.toNat * 2 ^ 16 + bvBits (s.reg MC_TSC) 0 32 * 2 ^ 32)) →
    u = t.powerDown (t.keep.map Prod.fst) →
    exec (.thermalTrip src temp mram) s = .next { u with sup := { u.sup with tripped := true, tripRec := true, due := none } })

/-- R565 to R593, R647 to R650: supplies, resets and starts, the core tests, the end of the topology check. -/
def Obligations.SupplyAndStart : Prop :=
  (∀ (s : State), s.sup.aux = false → exec .auxPowerOn s = .next
    (State.setFld { s with sup := { aux := true, due := some 0, lost := s.keep.map Prod.fst } } PWR_DOM_STAT.STATE 2 79))
  ∧ (∀ (s t : State), t = { ({} : State) with
      pending := s.pending, free := s.free, refs := s.refs, keep := s.keep, mram := s.mram
      regs := s.regs.filter (fun e => MC_JRNL.addr ≤ e.1 && e.1 < MC_JRNL.addr + 0x10000) } →
    exec .auxPowerLoss s = .next ((t.setFld MC_JRNL_STAT.USED (s.fld MC_JRNL_STAT.USED)).setFld MC_BOOT_STAT.START_CNT
      (s.fld MC_BOOT_STAT.START_CNT)))
  ∧ (∀ (vret : Bool) (noCel : BitVec 8) (s : State), s.sup.aux = true → s.sup.pwrOk = false →
    exec (.powerOkRise vret noCel) s = .next { s with sup := { s.sup with
      pwrOk := true, tripped := false, due := some (if s.sup.due = some 0 then 0 else 1)
      lost := s.sup.lost ++ (s.keep.filter (fun (_, k) => !vret || (k.cellar && noCel.getLsbD k.pos))).map Prod.fst
      noVret := !vret } })
  ∧ (∀ (s t : State), s.sup.pwrOk = true → s.sup.tripped = false → t = s.finishWrites.powerDown s.finishWrites.sup.lost →
    (s.sup.due = none → exec .sysResetPin s = .next { t with sup := { t.sup with due := some 2 } })
    ∧ (∀ data : Word, data.toNat % 256 = 0xB0 → exec (.mcBootReset data) s = .next { t with sup := { t.sup with due := some 3 } })
    ∧ (s.fld MC_BOOT_STAT.RESULT = 0 → exec .bootWatchdogExpiry s = .next { t with sup := { t.sup with due := some 4 } }))
  ∧ (∀ (s : State), s.sup.pwrOk = true → s.sup.refLost = false → ∃ r : FRec, exec .sysRefclkLost s =
      .next (State.goFatal { s.drawn with sup := { s.sup with refLost := true } } 3 r))
  ∧ (∀ (r : StartRun) (c : Nat) (s : State), s.sup.due = some c → s.sup.pwrOk = true → s.sup.tripped = false →
    exec (.deviceStart r) s = .next (State.startRun { s with sup := { s.sup with due := none, refLost := false } } r c))
  ∧ (∀ (v : VatId) (s : State), (s.domState v = 2 ∨ s.domState v = 3) → s.bit VAT_TEST_STAT.BUSY v = false →
    exec (.vatTestGoS v) s = .next (s.setFld VAT_TEST_STAT.BUSY 1 v)
    ∧ exec (.vatTestGoF v) s = .next (s.setFld VAT_TEST_STAT.BUSY 1 v))
  ∧ (∀ (v : VatId) (fails : BitVec 72) (s : State) (f : Nat), s.bit VAT_TEST_STAT.BUSY v = true →
    f = (fails &&& ~~~BitVec.ofNat 72 (s.fld VAT_TEST_SKIP0.SKIP v + s.fld VAT_TEST_SKIP1.SKIP v * 2 ^ 64)).toNat →
    exec (.vatTestRunEnd v fails) s = .next ((((s.setFld VAT_TEST_FAIL0.FAIL (f % 2 ^ 64) v).setFld VAT_TEST_FAIL1.FAIL
      (f / 2 ^ 64) v).setFld VAT_TEST_STAT.BUSY 0 v).setFld VAT_TEST_STAT.DONE 1 v))
  ∧ (∀ (s t : State), s.topoRun = true → t = (s.topoFields.setFld MC_TOPO_STAT.DONE 1).setFld MC_TOPO_STAT.PASS 0 →
    exec .topologyCheckTimeout s = .next (State.startFinish
      (State.fault { t with topoRun := false } { cls := 0x5A, unit := 9, info := t.topoMissing.length }) 2))

/-- R653, R654, R656 and 21 R635: the sideband targets and the IEEE 1149.1 port. -/
def Obligations.SidebandAndJtag : Prop :=
  (∀ (off : Word) (size : SbSize) (r : RegAt) (s : State), s.sup.aux = true → sbFind off.toNat = some r → s.sbOn r = true →
    sbBytes size * 8 = r.reg.width → r.reg ≠ PWR_SENS →
    exec (.sidebandRead off size) s = .next { s with sbRsp := .data (s.reg r.reg r.i r.j r.k) })
  ∧ (∀ (off : Word) (size : SbSize) (s : State), s.sup.aux = true → sbFind off.toNat = none →
    exec (.sidebandRead off size) s = .next { s with sbRsp := .data 0 })
  ∧ (∀ (off data : Word) (s : State), s.sup.aux = true → off.toNat = MC_BOOT_CTL.base →
    exec (.sidebandWrite off data) s = .next { s.bootCtl data.toNat with sbRsp := .ack })
  ∧ (∀ (off data : Word) (s : State), s.sup.aux = true → off.toNat ≠ MC_BOOT_CTL.base →
    exec (.sidebandWrite off data) s = .next { s with sbRsp := .nak })
  ∧ (∀ (s : State), s.sup.aux = true → exec .idcode s = .next { s with jtag := .idcode, jtagDr := 0x1409656F })
  ∧ (∀ (s : State), s.sup.aux = true → ∃ x : Word,
    exec .samplePreload s = .next { s.drawn with jtag := .boundary false, jtagDr := x }
    ∧ (∀ n : SiteId, exec (.faceSel n) s = .next { s.drawn with jtag := .face n, jtagDr := x })
    ∧ ((s.fld MC_BOOT_STAT.RESULT = 5 ∨ s.fld MC_BOOT_STAT.RESULT = 3) →
        exec .extest s = .next { s.drawn with jtag := .boundary true, jtagDr := x })
    ∧ (s.bit RIND_STAT.DEBUG = true →
        exec .dieWrap s = .next { s.drawn with jtag := .wrapper, jtagDr := x }
        ∧ exec .ijtag s = .next { s.drawn with jtag := .network, jtagDr := x }
        ∧ exec .mcDebug s = .next { s.drawn with jtag := .debug, jtagDr := x }))
  ∧ (∀ (code : BitVec 8) (s : State), s.sup.aux = true → 3 ≤ code.toNat → (code.toNat < 8 ∨ 13 < code.toNat) →
    code.toNat ≠ 0x10 → code.toNat ≠ 0x20 → code.toNat ≠ 0x21 →
    exec (.bypass code) s = .next { s with jtag := .bypass, jtagDr := 0 })

/-! ### Register space -/

/-- R12 to R16, R41, R503: accesses to register space. A write of a register without an action of its own sets its fields, a read
returns the register and clears what a read clears; without the right, bus error; an instance that is not there reads as
zero. -/
def Obligations.RegisterAccess : Prop :=
  (∀ (src : Agent) (tag off size : Nat) (ga data : Dword) (r : RegAt) (s : State), regOffset ga = some off →
    s.regMay src off true = true → s.regHit off size = .at r → s.regDark (regAlias off) = false →
    s.regHidden src (regAlias off) = false → s.regHeld (regAlias off) = false → wrTable.find? (fun e => e.1 = r.reg) = none →
    exec (.registerWrite src tag ga size data) s = .next
      (((s.plainWrite src r (if size = 4 then BitVec.ofNat 64 (bvBits data 0 32) else data)).recvMsg
        (.req src tag ga (.regWrite size data))).regAnswer src tag true .done))
  ∧ (∀ (src : Agent) (tag off size : Nat) (ga data : Dword) (r : RegAt) (f : Reg × WrAct) (s t : State), regOffset ga = some off →
    s.regMay src off true = true → s.regHit off size = .at r → s.regDark (regAlias off) = false →
    s.regHidden src (regAlias off) = false → s.regHeld (regAlias off) = false → wrTable.find? (fun e => e.1 = r.reg) = some f →
    f.2 s src r (if size = 4 then BitVec.ofNat 64 (bvBits data 0 32) else data) = some t →
    exec (.registerWrite src tag ga size data) s =
      .next ((t.recvMsg (.req src tag ga (.regWrite size data))).regAnswer src tag true .done))
  ∧ (∀ (src : Agent) (tag off size : Nat) (ga : Dword) (r : RegAt) (s : State), regOffset ga = some off →
    s.regMay src off false = true → s.regHit off size = .at r → s.regDark (regAlias off) = false →
    s.regHidden src (regAlias off) = false → s.regHeld (regAlias off) = false → rdTable.find? (fun e => e.1 = r.reg) = none →
    r.reg ≠ DIC_CLAIM → r.reg ≠ DIC_FCLAIM →
    exec (.readClearRegisterRead src tag ga size) s = .next
      (((s.regClear r).recvMsg (.req src tag ga (.regRead size))).regAnswer src tag false (.word (s.reg r.reg r.i r.j r.k))))
  ∧ (∀ (src : Agent) (tag off size : Nat) (ga data : Dword) (s : State), regOffset ga = some off →
    (s.regMay src off true = false → exec (.registerWrite src tag ga size data) s =
      .next ((s.recvMsg (.req src tag ga (.regWrite size data))).regAnswer src tag true .busError))
    ∧ (s.regMay src off false = false → exec (.readClearRegisterRead src tag ga size) s =
      .next ((s.recvMsg (.req src tag ga (.regRead size))).regAnswer src tag false .busError)))
  ∧ (∀ (src : Agent) (tag off size : Nat) (ga data : Dword) (s : State), regOffset ga = some off → s.regHit off size = .empty →
    (s.regMay src off true = true → exec (.registerWrite src tag ga size data) s =
      .next ((s.recvMsg (.req src tag ga (.regWrite size data))).regAnswer src tag true .done))
    ∧ (s.regMay src off false = true → exec (.readClearRegisterRead src tag ga size) s =
      .next ((s.recvMsg (.req src tag ga (.regRead size))).regAnswer src tag false (.word 0))))
  ∧ (∀ (off size : Nat) (s t u : State) (x : Reply), s.domOn 77 = true → s.bit HOST_STAT.DL_UP = true → off < 0x10000000 →
    t = s.bump HOST_PC_RXREQ → t.regLoad .host off size = some (u, x) →
    exec (.hostBarAccess 0 (.read .bar0 off size)) s = .next (u.regAnswer .host 0 false x))
  ∧ (∀ (off size : Nat) (data : Dword) (s t u : State) (x : Reply), s.domOn 77 = true → s.bit HOST_STAT.DL_UP = true →
    off < 0x10000000 → t = s.bump HOST_PC_RXREQ → t.regStore .host off size data = some (u, x) →
    exec (.hostBarAccess 0 (.write .bar0 off size data false)) s = .next (u.regAnswer .host 0 true x))

/-- R12: every register is 32 or 64 bits wide. An access to register space that is not a naturally aligned access of the full
width of a register completes with a bus error and changes no register; the host's is counted (16 R503). -/
def Obligations.RegisterAccessErrors : Prop :=
  (∀ e ∈ regTable, e.1.width = 32 ∨ e.1.width = 64)
  ∧ (∀ (src : Agent) (tag off size : Nat) (ga data : Dword) (s t u : State), regOffset ga = some off → s.canon = true →
    (inBlock off = false ∨ (size ≠ 4 ∧ size ≠ 8) ∨ off % size ≠ 0
      ∨ (s.regGone off = false ∧ ∃ r, regFind off = some r ∧ (r.byte ≠ 0 ∨ r.reg.width ≠ 8 * size))) →
    t = (s.recvMsg (.req src tag ga (.regWrite size data))).regAnswer src tag true .busError →
    u = (s.recvMsg (.req src tag ga (.regRead size))).regAnswer src tag false .busError →
    exec (.registerWrite src tag ga size data) s = .next t ∧ exec (.readClearRegisterRead src tag ga size) s = .next u
    ∧ (src ≠ .host → (∀ d p, src ≠ .fabric d p) → t.regs = s.regs ∧ u.regs = s.regs)
    ∧ (src = .host → ∀ a, a ≠ HOST_ERR0.addr → smGet 0 t.regs a = smGet 0 s.regs a ∧ smGet 0 u.regs a = smGet 0 s.regs a))

/-- R13, R15: a field that is read and written returns what was written, whatever the write did to the register's other fields;
a field that is only read keeps its value under a partition's write. -/
def Obligations.RegisterReadBack : Prop :=
  ∀ (src : Agent) (r : RegAt) (d : Dword) (f : Fld) (s : State), s.canon = true → (r.reg, r.flds) ∈ regTable → f ∈ r.flds →
    src ≠ .mgmt →
    (s.plainWrite src r d).fld f r.i r.j r.k =
      (match f.acc with
        | .rw | .rws => bvBits d f.lo f.width
        | .rw1c => s.fld f r.i r.j r.k &&& (2 ^ f.width - 1 ^^^ bvBits d f.lo f.width)
        | _ => s.fld f r.i r.j r.k)
    ∧ (∀ g : Fld, g.reg ≠ r.reg → g.reg.addr r.i r.j r.k ≠ r.reg.addr r.i r.j r.k →
      (s.plainWrite src r d).fld g r.i r.j r.k = s.fld g r.i r.j r.k)
    ∧ (s.plainWrite src r d).mem = s.mem

/-- R530: a completion of a source that is in service with this target and class ends its service and samples its level again;
any other is ignored and counted, and the count stays at its largest value. -/
def Obligations.DicCompletion : Prop :=
  ∀ (t : TargetIx) (fast : Bool) (data : Word) (n : Nat) (s : State), n = bvBits data 0 8 → s.canon = true →
    (s.bit DIC_SRC.INSVC n = true → s.fld DIC_SRC.OWNER n = t.val → s.srcFast n = fast →
      exec (.dicComplete t fast data) s = .next (s.dicApply [n] (fun u =>
        (fun (w : State) => if w.bit DIC_SRC.LEVEL n then w.setBankBit DIC_PEND.PEND (w.srcFast n) n true else w)
          ((u.setFld DIC_SRC.INSVC 0 n).setFld DIC_SRC.OWNER 15 n))))
    ∧ ((s.bit DIC_SRC.INSVC n = false ∨ s.fld DIC_SRC.OWNER n ≠ t.val ∨ s.srcFast n ≠ fast) →
      ∃ u, exec (.dicComplete t fast data) s = .next u
        ∧ u.fld DIC_BADCOMP.COUNT = min (s.fld DIC_BADCOMP.COUNT + 1) 0xFFFFFFFF
        ∧ ∀ g : Fld, g.reg ≠ DIC_BADCOMP → (∀ i j k, g.reg.addr i j k ≠ DIC_BADCOMP.addr → u.fld g i j k = s.fld g i j k))
end

