-- ==== Sys2Proof/Laws/Core.lean ====
section
/-! SUPPORT. Laws of the curd core's shared operations. -/

namespace Sys2Proof.Machine

open Sys2Proof

theorem State.useInj_zero (s : State) (v : Nat) (f : Fld) : s.useInj v 0 f = s := by simp [State.useInj]

/-- An instruction that a core is ready for, and that is legal, acts. -/
theorem issue_ready {s : State} {c : CoreId} {w : Word} (h : Ready s c w) (uses : List (BitVec 5)) (act : State → State) :
    s.issue c w uses none act = act s := by
  obtain ⟨h1, h2, h3, h4, h5⟩ := h
  have hi : s.injBits (↑c) 1 = 0 := h5
  unfold State.issue
  simp [h1, h2, h3, h4, hi, State.useInj_zero]

/-- An illegal instruction traps with its lowest sub-code (04 R123). -/
theorem issue_illegal {s : State} {c : CoreId} {w : Word} (h : Ready s c w) (uses : List (BitVec 5)) (sub : Nat) (act : State → State) :
    s.issue c w uses (some sub) act = s.trapOn c w causeIllegal sub := by
  obtain ⟨h1, h2, h3, h4, h5⟩ := h
  unfold State.issue
  simp [h1, h2, h3]

/-- A core that cannot issue, or whose word at `PC` is another one, ignores an instruction. -/
theorem issue_not_ready {s : State} {c : Nat} {w : Word} {uses : List (BitVec 5)} {ill : Option Nat} {act : State → State}
    (h : s.canIssue c = false ∨ (s.core c).fbuf.head?.map Prod.fst ≠ some w) : s.issue c w uses ill act = s := by
  unfold State.issue
  rcases h with h | h
  · simp [h]
  · rw [if_pos (Or.inr h)]

@[simp] theorem lowest_nil : lowest [] = none := rfl
@[simp] theorem lowest_one (b : Bool) (n : Nat) : lowest [(b, n)] = if b then some n else none := by cases b <;> rfl

end Sys2Proof.Machine
end

