-- ==== Sys2Proof/Laws/Maps.lean ====
section
/-! SUPPORT. Laws of the sparse maps and of byte memory: what a read after a write gives, and that every operation keeps the
canonical form. -/

namespace Sys2Proof.Machine

open Sys2Proof

variable {α : Type}

/-- Are all keys above a bound? -/
def smAbove (lo : Nat) (m : List (Nat × α)) : Prop := ∀ e ∈ m, lo < e.1

theorem smSorted_cons {k : Nat} {v : α} {m : List (Nat × α)} :
    smSorted ((k, v) :: m) = true ↔ smAbove k m ∧ smSorted m = true := by
  induction m generalizing k v with
  | nil => simp [smSorted, smAbove]
  | cons e m ih =>
    obtain ⟨k', v'⟩ := e
    simp only [smSorted, Bool.and_eq_true, decide_eq_true_eq]
    rw [ih]
    constructor
    · rintro ⟨h, ha, hs⟩
      refine ⟨?_, ha, hs⟩
      intro x hx
      rcases List.mem_cons.1 hx with rfl | hx
      · exact h
      · exact lt_trans h (ha x hx)
    · rintro ⟨h, ha, hs⟩
      exact ⟨h (k', v') (by simp), ha, hs⟩

theorem smGet_above {d : α} {m : List (Nat × α)} {i : Nat} (h : smAbove i m) : smGet d m i = d := by
  cases m with
  | nil => rfl
  | cons e m =>
    obtain ⟨k, v⟩ := e
    have : i < k := h (k, v) (by simp)
    simp [smGet, this, Nat.ne_of_lt this]

theorem smAbove.mono {lo lo' : Nat} {m : List (Nat × α)} (h : smAbove lo m) (hl : lo' ≤ lo) : smAbove lo' m :=
  fun e he => lt_of_le_of_lt hl (h e he)

theorem smGet_smPut (d : α) {m : List (Nat × α)} (hm : smSorted m = true) (i j : Nat) (x : α) :
    smGet d (smPut m i x) j = if j = i then x else smGet d m j := by
  induction m with
  | nil =>
    simp only [smPut, smGet]
    split <;> simp_all
  | cons e m ih =>
    obtain ⟨k, v⟩ := e
    obtain ⟨ha, hs⟩ := smSorted_cons.1 hm
    simp only [smPut]
    split
    · rename_i hik
      simp only [smGet]
      by_cases hji : j = i
      · simp [hji]
      · simp only [hji, if_false]
        by_cases h2 : j < i
        · have h3 : j ≠ k := by omega
          have h4 : j < k := by omega
          simp [h2, h3, h4]
        · simp [h2]
    · split
      · rename_i hik hki
        subst hki
        simp only [smGet]
        by_cases hji : j = i <;> simp [hji]
      · rename_i h1 h2
        simp only [smGet, ih hs]
        by_cases hjk : j = k
        · have : j ≠ i := by omega
          simp [hjk]; omega
        · simp only [hjk, if_false]
          by_cases h3 : j < k
          · have : j ≠ i := by omega
            simp [h3, this]
          · simp [h3]

theorem smGet_smDel (d : α) {m : List (Nat × α)} (hm : smSorted m = true) (i j : Nat) :
    smGet d (smDel m i) j = if j = i then d else smGet d m j := by
  induction m with
  | nil => simp [smDel, smGet]
  | cons e m ih =>
    obtain ⟨k, v⟩ := e
    obtain ⟨ha, hs⟩ := smSorted_cons.1 hm
    simp only [smDel]
    split
    · rename_i hik
      subst hik
      by_cases hji : j = i
      · subst hji
        simp [smGet_above ha]
      · simp only [hji, if_false, smGet]
        by_cases h2 : j < i
        · simp [h2, smGet_above (ha.mono h2.le)]
        · simp [h2]
    · split
      · rename_i h1 h2
        by_cases hji : j = i
        · subst hji
          simp [smGet, h1, h2]
        · simp [hji]
      · rename_i h1 h2
        simp only [smGet, ih hs]
        by_cases hjk : j = k
        · have : j ≠ i := by omega
          simp [hjk]; omega
        · simp only [hjk, if_false]
          by_cases h3 : j < k
          · have : j ≠ i := by omega
            simp [h3, this]
          · simp [h3]

theorem smAbove_smPut {lo i : Nat} {x : α} {m : List (Nat × α)} (h : smAbove lo m) (hi : lo < i) : smAbove lo (smPut m i x) := by
  induction m with
  | nil => intro e he; simp [smPut] at he; subst he; exact hi
  | cons e m ih =>
    obtain ⟨k, v⟩ := e
    have hm : smAbove lo m := fun e he => h e (List.mem_cons_of_mem _ he)
    have hk : lo < k := h (k, v) (by simp)
    intro y hy
    simp only [smPut] at hy
    split at hy
    · rcases List.mem_cons.1 hy with rfl | hy
      · exact hi
      · exact h y hy
    · split at hy
      · rcases List.mem_cons.1 hy with rfl | hy
        · exact hi
        · exact hm y hy
      · rcases List.mem_cons.1 hy with rfl | hy
        · exact hk
        · exact ih hm y hy

theorem smSorted_smPut {m : List (Nat × α)} (hm : smSorted m = true) (i : Nat) (x : α) : smSorted (smPut m i x) = true := by
  induction m with
  | nil => rfl
  | cons e m ih =>
    obtain ⟨k, v⟩ := e
    obtain ⟨ha, hs⟩ := smSorted_cons.1 hm
    simp only [smPut]
    split
    · rename_i hik
      refine smSorted_cons.2 ⟨?_, hm⟩
      intro e he
      rcases List.mem_cons.1 he with rfl | he
      · exact hik
      · exact lt_trans hik (ha e he)
    · split
      · rename_i h1 h2
        subst h2
        exact smSorted_cons.2 ⟨ha, hs⟩
      · rename_i h1 h2
        exact smSorted_cons.2 ⟨smAbove_smPut ha (by omega), ih hs⟩

theorem mem_smDel {m : List (Nat × α)} {i : Nat} {e : Nat × α} (h : e ∈ smDel m i) : e ∈ m := by
  induction m with
  | nil => simp [smDel] at h
  | cons y m ih =>
    obtain ⟨k, v⟩ := y
    simp only [smDel] at h
    split at h
    · exact List.mem_cons_of_mem _ h
    · split at h
      · exact h
      · rcases List.mem_cons.1 h with rfl | h
        · simp
        · exact List.mem_cons_of_mem _ (ih h)

theorem smSorted_smDel {m : List (Nat × α)} (hm : smSorted m = true) (i : Nat) : smSorted (smDel m i) = true := by
  induction m with
  | nil => rfl
  | cons e m ih =>
    obtain ⟨k, v⟩ := e
    obtain ⟨ha, hs⟩ := smSorted_cons.1 hm
    simp only [smDel]
    split
    · exact hs
    · split
      · exact hm
      · exact smSorted_cons.2 ⟨fun e he => ha e (mem_smDel he), ih hs⟩

theorem mem_smPut {m : List (Nat × α)} {i : Nat} {x : α} {e : Nat × α} (h : e ∈ smPut m i x) : e = (i, x) ∨ e ∈ m := by
  induction m with
  | nil => simpa [smPut] using h
  | cons y m ih =>
    obtain ⟨k, v⟩ := y
    simp only [smPut] at h
    split at h
    · exact (List.mem_cons.1 h).imp id id
    · split at h
      · exact (List.mem_cons.1 h).imp id (List.mem_cons_of_mem _)
      · rcases List.mem_cons.1 h with rfl | h
        · exact .inr (by simp)
        · exact (ih h).imp id (List.mem_cons_of_mem _)

variable [DecidableEq α]

theorem smWf_sorted {d : α} {m : List (Nat × α)} (h : smWf d m = true) : smSorted m = true := by
  simp [smWf] at h; exact h.1

/-- A write, then a read: the value written at its own key, every other key as before. -/
theorem smGet_smSet (d : α) {m : List (Nat × α)} (hm : smSorted m = true) (i j : Nat) (x : α) :
    smGet d (smSet d m i x) j = if j = i then x else smGet d m j := by
  unfold smSet
  split
  · rename_i h
    rw [smGet_smDel d hm, h]
  · exact smGet_smPut d hm i j x

/-- A write keeps the canonical form. -/
theorem smWf_smSet {d : α} {m : List (Nat × α)} (h : smWf d m = true) (i : Nat) (x : α) : smWf d (smSet d m i x) = true := by
  simp only [smWf, Bool.and_eq_true, List.all_eq_true, decide_eq_true_eq] at h ⊢
  unfold smSet
  split
  · exact ⟨smSorted_smDel h.1 i, fun e he => h.2 e (mem_smDel he)⟩
  · rename_i hx
    refine ⟨smSorted_smPut h.1 i x, fun e he => ?_⟩
    rcases mem_smPut he with rfl | he
    · simpa using hx
    · exact h.2 e he

/-- Leaving entries out keeps the canonical form. -/
theorem smWf_filter {d : α} {m : List (Nat × α)} (h : smWf d m = true) (p : Nat × α → Bool) : smWf d (m.filter p) = true := by
  simp only [smWf, Bool.and_eq_true, List.all_eq_true, decide_eq_true_eq] at h ⊢
  refine ⟨?_, fun e he => h.2 e (List.mem_filter.1 he).1⟩
  have hs := h.1
  clear h
  induction m with
  | nil => rfl
  | cons e m ih =>
    obtain ⟨k, v⟩ := e
    obtain ⟨ha, hs'⟩ := smSorted_cons.1 hs
    rw [List.filter_cons]
    split
    · exact smSorted_cons.2 ⟨fun e he => ha e (List.mem_filter.1 he).1, ih hs'⟩
    · exact ih hs'

/-! ### Memory -/

theorem Memory.get_set {m : List Host.Cell} (hm : Memory.wf m = true) (a b : Nat) (x : Byte) :
    Memory.get (Memory.set m a x) b = if b = a then x else Memory.get m b :=
  smGet_smSet _ (smWf_sorted hm) a b x

theorem Memory.wf_set {m : List Host.Cell} (hm : Memory.wf m = true) (a : Nat) (x : Byte) : Memory.wf (Memory.set m a x) = true :=
  smWf_smSet hm a x

theorem Memory.wf_filter {m : List Host.Cell} (hm : Memory.wf m = true) (p : Host.Cell → Bool) : Memory.wf (m.filter p) = true :=
  smWf_filter hm p

/-- A masked write keeps the canonical form. -/
theorem Memory.wf_write {m : List Host.Cell} (hm : Memory.wf m = true) (a mask d n : Nat) : Memory.wf (Memory.write m a mask d n) = true := by
  induction n with
  | zero => exact hm
  | succ n ih =>
    simp only [Memory.write]
    split
    · exact Memory.wf_set ih _ _
    · exact ih

/-- What a byte reads as after a masked write: its byte of the data where its mask bit is set, else what it was. -/
theorem Memory.get_write {m : List Host.Cell} (hm : Memory.wf m = true) (a mask d n b : Nat) :
    Memory.get (Memory.write m a mask d n) b =
      if a ≤ b ∧ b < a + n ∧ mask.testBit (b - a) = true then BitVec.ofNat 8 (d >>> (8 * (b - a))) else Memory.get m b := by
  induction n with
  | zero =>
    have : ¬(a ≤ b ∧ b < a + 0 ∧ mask.testBit (b - a) = true) := by omega
    simp [Memory.write]; omega
  | succ n ih =>
    simp only [Memory.write]
    split
    · rename_i h
      rw [Memory.get_set (Memory.wf_write hm _ _ _ _)]
      by_cases hb : b = a + n
      · subst hb
        simp [h]
      · rw [if_neg hb, ih]
        congr 1
        apply propext
        constructor
        · rintro ⟨h1, h2, h3⟩; exact ⟨h1, by omega, h3⟩
        · rintro ⟨h1, h2, h3⟩; exact ⟨h1, by omega, h3⟩
    · rename_i h
      rw [ih]
      congr 1
      apply propext
      constructor
      · rintro ⟨h1, h2, h3⟩; exact ⟨h1, by omega, h3⟩
      · rintro ⟨h1, h2, h3⟩
        refine ⟨h1, ?_, h3⟩
        by_contra hc
        have : b - a = n := by omega
        rw [this] at h3
        exact h h3

end Sys2Proof.Machine
end

