-- ==== Sys2Proof/Laws/Registers.lean ====
section
/-! SUPPORT. Laws of the registers: what reading a register or a field gives after a write. -/

namespace Sys2Proof.Machine

open Sys2Proof

/-- A register reads as written; a register at another address reads as before. -/
theorem State.reg_setReg {s : State} (h : smSorted s.regs = true) (r q : Reg) (x : Dword) (i j k i' j' k' : Nat) :
    (s.setReg r x i j k).reg q i' j' k' =
      if q.addr i' j' k' = r.addr i j k then x ^^^ BitVec.ofNat 64 r.reset ^^^ BitVec.ofNat 64 q.reset else s.reg q i' j' k' := by
  simp only [State.reg, State.setReg, smGet_smSet 0 h]
  split <;> rfl

theorem State.reg_setReg_same {s : State} (h : smSorted s.regs = true) (r : Reg) (x : Dword) (i j k : Nat) :
    (s.setReg r x i j k).reg r i j k = x := by
  rw [State.reg_setReg h, if_pos rfl, BitVec.xor_assoc, BitVec.xor_self, BitVec.xor_zero]

theorem State.reg_setReg_ne {s : State} (h : smSorted s.regs = true) {r q : Reg} (x : Dword) {i j k i' j' k' : Nat}
    (hn : q.addr i' j' k' ≠ r.addr i j k) : (s.setReg r x i j k).reg q i' j' k' = s.reg q i' j' k' := by
  rw [State.reg_setReg h, if_neg hn]

/-- A write of a register keeps the canonical form of the register map. -/
theorem State.regs_wf_setReg {s : State} (h : smWf 0 s.regs = true) (r : Reg) (x : Dword) (i j k : Nat) :
    smWf 0 (s.setReg r x i j k).regs = true := smWf_smSet h _ _

theorem State.regs_wf_setFld {s : State} (h : smWf 0 s.regs = true) (f : Fld) (x i j k : Nat) :
    smWf 0 (s.setFld f x i j k).regs = true := State.regs_wf_setReg h _ _ _ _ _

/-- The bits of a word after some have been replaced. -/
theorem getLsbD_putBits (d : Dword) (lo w x b : Nat) (hw : lo + w ≤ 64) (hb : b < 64) :
    (putBits d lo w x).getLsbD b = if lo ≤ b ∧ b < lo + w then x.testBit (b - lo) else d.getLsbD b := by
  have hm : ∀ c, c < 64 → (BitVec.ofNat 64 (2 ^ w - 1) : BitVec 64).getLsbD c = decide (c < w) := by
    intro c hc
    rw [BitVec.getLsbD_ofNat, Nat.testBit_two_pow_sub_one]; simp [hc]
  simp only [putBits, BitVec.getLsbD_or, BitVec.getLsbD_and, BitVec.getLsbD_not, BitVec.getLsbD_shiftLeft, hb,
    decide_true, Bool.true_and]
  by_cases h1 : lo ≤ b
  · have h2 : ¬ b < lo := by omega
    have h3 : b - lo < 64 := by omega
    rw [hm _ h3]
    by_cases h4 : b < lo + w
    · have h5 : b - lo < w := by omega
      rw [BitVec.getLsbD_ofNat, Nat.testBit_mod_two_pow]; simp [h1, h2, h4, h5, h3]
    · have h5 : ¬ b - lo < w := by omega
      rw [BitVec.getLsbD_ofNat, Nat.testBit_mod_two_pow]; simp [h2, h4, h5]
  · have h2 : b < lo := by omega
    simp [h1, h2]

/-- A field reads as the low bits of what was written to it. -/
theorem bvBits_putBits (d : Dword) (lo w x : Nat) (hw : lo + w ≤ 64) : bvBits (putBits d lo w x) lo w = x % 2 ^ w := by
  apply Nat.eq_of_testBit_eq
  intro b
  simp only [bvBits, bitsOf, Nat.testBit_mod_two_pow, Nat.testBit_shiftRight]
  by_cases hb : b < w
  · have := getLsbD_putBits d lo w x (lo + b) hw (by omega)
    rw [BitVec.getLsbD] at this
    simp only [hb, decide_true, Bool.true_and]
    rw [this]
    simp [hb]
  · simp [hb]

/-- Another field of the same word reads as before. -/
theorem bvBits_putBits_ne (d : Dword) (lo w x lo' w' : Nat) (hw : lo + w ≤ 64) (hd : lo' + w' ≤ lo ∨ lo + w ≤ lo') (hw' : lo' + w' ≤ 64) :
    bvBits (putBits d lo w x) lo' w' = bvBits d lo' w' := by
  apply Nat.eq_of_testBit_eq
  intro b
  simp only [bvBits, bitsOf, Nat.testBit_mod_two_pow, Nat.testBit_shiftRight]
  by_cases hb : b < w'
  · have := getLsbD_putBits d lo w x (lo' + b) hw (by omega)
    rw [BitVec.getLsbD, BitVec.getLsbD] at this
    simp only [hb, decide_true, Bool.true_and]
    rw [this, if_neg (by omega)]
  · simp [hb]

/-- A field reads as the low bits of what was written to it. -/
theorem State.fld_setFld_same {s : State} (h : smSorted s.regs = true) (f : Fld) (hf : f.lo + f.width ≤ 64) (x i j k : Nat) :
    (s.setFld f x i j k).fld f i j k = x % 2 ^ f.width := by
  simp only [State.fld, State.setFld, State.reg_setReg_same h, bvBits_putBits _ _ _ _ hf]

/-- A field of a register at another address reads as before. -/
theorem State.fld_setFld_ne {s : State} (h : smSorted s.regs = true) {f g : Fld} (x : Nat) {i j k i' j' k' : Nat}
    (hn : g.reg.addr i' j' k' ≠ f.reg.addr i j k) : (s.setFld f x i j k).fld g i' j' k' = s.fld g i' j' k' := by
  simp only [State.fld, State.setFld, State.reg_setReg_ne h _ hn]

/-- Another field of the same register reads as before. -/
theorem State.fld_setFld_other {s : State} (h : smSorted s.regs = true) {f g : Fld} (hr : g.reg = f.reg)
    (hf : f.lo + f.width ≤ 64) (hg : g.lo + g.width ≤ 64) (hd : g.lo + g.width ≤ f.lo ∨ f.lo + f.width ≤ g.lo) (x i j k : Nat) :
    (s.setFld f x i j k).fld g i j k = s.fld g i j k := by
  simp only [State.fld, State.setFld, hr, State.reg_setReg_same h, bvBits_putBits_ne _ _ _ _ _ _ hf hd hg]

end Sys2Proof.Machine
end

