-- ==== Sys2Proof/Laws/State.lean ====
section
/-! SUPPORT. Laws of the state: what each update leaves as it was, field by field, and what each unit reads as after it is
replaced. -/

namespace Sys2Proof.Machine

open Sys2Proof

variable (s : State)

/-! ### `setReg` -/

@[simp] theorem State.setReg_pending (r : Reg) (x : Dword) (i j k : Nat) : (s.setReg r x i j k).pending = s.pending := rfl
@[simp] theorem State.setReg_mem (r : Reg) (x : Dword) (i j k : Nat) : (s.setReg r x i j k).mem = s.mem := rfl
@[simp] theorem State.setReg_free (r : Reg) (x : Dword) (i j k : Nat) : (s.setReg r x i j k).free = s.free := rfl
@[simp] theorem State.setReg_tscCopy (r : Reg) (x : Dword) (i j k : Nat) : (s.setReg r x i j k).tscCopy = s.tscCopy := rfl
@[simp] theorem State.setReg_net (r : Reg) (x : Dword) (i j k : Nat) : (s.setReg r x i j k).net = s.net := rfl
@[simp] theorem State.setReg_rebased (r : Reg) (x : Dword) (i j k : Nat) : (s.setReg r x i j k).rebased = s.rebased := rfl
@[simp] theorem State.setReg_audit (r : Reg) (x : Dword) (i j k : Nat) : (s.setReg r x i j k).audit = s.audit := rfl
@[simp] theorem State.setReg_late (r : Reg) (x : Dword) (i j k : Nat) : (s.setReg r x i j k).late = s.late := rfl
@[simp] theorem State.setReg_mgmtRsp (r : Reg) (x : Dword) (i j k : Nat) : (s.setReg r x i j k).mgmtRsp = s.mgmtRsp := rfl
@[simp] theorem State.setReg_ledgerTest (r : Reg) (x : Dword) (i j k : Nat) : (s.setReg r x i j k).ledgerTest = s.ledgerTest := rfl
@[simp] theorem State.setReg_img (r : Reg) (x : Dword) (i j k : Nat) : (s.setReg r x i j k).img = s.img := rfl
@[simp] theorem State.setReg_reloading (r : Reg) (x : Dword) (i j k : Nat) : (s.setReg r x i j k).reloading = s.reloading := rfl
@[simp] theorem State.setReg_mcRun (r : Reg) (x : Dword) (i j k : Nat) : (s.setReg r x i j k).mcRun = s.mcRun := rfl
@[simp] theorem State.setReg_mcQueue (r : Reg) (x : Dword) (i j k : Nat) : (s.setReg r x i j k).mcQueue = s.mcQueue := rfl
@[simp] theorem State.setReg_cores (r : Reg) (x : Dword) (i j k : Nat) : (s.setReg r x i j k).cores = s.cores := rfl
@[simp] theorem State.setReg_streams (r : Reg) (x : Dword) (i j k : Nat) : (s.setReg r x i j k).streams = s.streams := rfl
@[simp] theorem State.setReg_twinWait (r : Reg) (x : Dword) (i j k : Nat) : (s.setReg r x i j k).twinWait = s.twinWait := rfl
@[simp] theorem State.setReg_churns (r : Reg) (x : Dword) (i j k : Nat) : (s.setReg r x i j k).churns = s.churns := rfl
@[simp] theorem State.setReg_redLanes (r : Reg) (x : Dword) (i j k : Nat) : (s.setReg r x i j k).redLanes = s.redLanes := rfl
@[simp] theorem State.setReg_regQueue (r : Reg) (x : Dword) (i j k : Nat) : (s.setReg r x i j k).regQueue = s.regQueue := rfl
@[simp] theorem State.setReg_tasks (r : Reg) (x : Dword) (i j k : Nat) : (s.setReg r x i j k).tasks = s.tasks := rfl
@[simp] theorem State.setReg_lastDisp (r : Reg) (x : Dword) (i j k : Nat) : (s.setReg r x i j k).lastDisp = s.lastDisp := rfl
@[simp] theorem State.setReg_ladles (r : Reg) (x : Dword) (i j k : Nat) : (s.setReg r x i j k).ladles = s.ladles := rfl
@[simp] theorem State.setReg_slots (r : Reg) (x : Dword) (i j k : Nat) : (s.setReg r x i j k).slots = s.slots := rfl
@[simp] theorem State.setReg_credOut (r : Reg) (x : Dword) (i j k : Nat) : (s.setReg r x i j k).credOut = s.credOut := rfl
@[simp] theorem State.setReg_excluded (r : Reg) (x : Dword) (i j k : Nat) : (s.setReg r x i j k).excluded = s.excluded := rfl
@[simp] theorem State.setReg_specs (r : Reg) (x : Dword) (i j k : Nat) : (s.setReg r x i j k).specs = s.specs := rfl
@[simp] theorem State.setReg_slices (r : Reg) (x : Dword) (i j k : Nat) : (s.setReg r x i j k).slices = s.slices := rfl
@[simp] theorem State.setReg_memq (r : Reg) (x : Dword) (i j k : Nat) : (s.setReg r x i j k).memq = s.memq := rfl
@[simp] theorem State.setReg_hostRds (r : Reg) (x : Dword) (i j k : Nat) : (s.setReg r x i j k).hostRds = s.hostRds := rfl
@[simp] theorem State.setReg_crks (r : Reg) (x : Dword) (i j k : Nat) : (s.setReg r x i j k).crks = s.crks := rfl
@[simp] theorem State.setReg_valid (r : Reg) (x : Dword) (i j k : Nat) : (s.setReg r x i j k).valid = s.valid := rfl
@[simp] theorem State.setReg_cels (r : Reg) (x : Dword) (i j k : Nat) : (s.setReg r x i j k).cels = s.cels := rfl
@[simp] theorem State.setReg_fqSeq (r : Reg) (x : Dword) (i j k : Nat) : (s.setReg r x i j k).fqSeq = s.fqSeq := rfl
@[simp] theorem State.setReg_ringWrites (r : Reg) (x : Dword) (i j k : Nat) : (s.setReg r x i j k).ringWrites = s.ringWrites := rfl
@[simp] theorem State.setReg_tlb (r : Reg) (x : Dword) (i j k : Nat) : (s.setReg r x i j k).tlb = s.tlb := rfl
@[simp] theorem State.setReg_micro (r : Reg) (x : Dword) (i j k : Nat) : (s.setReg r x i j k).micro = s.micro := rfl
@[simp] theorem State.setReg_walks (r : Reg) (x : Dword) (i j k : Nat) : (s.setReg r x i j k).walks = s.walks := rfl
@[simp] theorem State.setReg_xltRetry (r : Reg) (x : Dword) (i j k : Nat) : (s.setReg r x i j k).xltRetry = s.xltRetry := rfl
@[simp] theorem State.setReg_xtag (r : Reg) (x : Dword) (i j k : Nat) : (s.setReg r x i j k).xtag = s.xtag := rfl
@[simp] theorem State.setReg_migq (r : Reg) (x : Dword) (i j k : Nat) : (s.setReg r x i j k).migq = s.migq := rfl
@[simp] theorem State.setReg_mig (r : Reg) (x : Dword) (i j k : Nat) : (s.setReg r x i j k).mig = s.mig := rfl
@[simp] theorem State.setReg_shoot (r : Reg) (x : Dword) (i j k : Nat) : (s.setReg r x i j k).shoot = s.shoot := rfl
@[simp] theorem State.setReg_lanes (r : Reg) (x : Dword) (i j k : Nat) : (s.setReg r x i j k).lanes = s.lanes := rfl
@[simp] theorem State.setReg_refs (r : Reg) (x : Dword) (i j k : Nat) : (s.setReg r x i j k).refs = s.refs := rfl
@[simp] theorem State.setReg_ports (r : Reg) (x : Dword) (i j k : Nat) : (s.setReg r x i j k).ports = s.ports := rfl
@[simp] theorem State.setReg_links (r : Reg) (x : Dword) (i j k : Nat) : (s.setReg r x i j k).links = s.links := rfl
@[simp] theorem State.setReg_fabSlots (r : Reg) (x : Dword) (i j k : Nat) : (s.setReg r x i j k).fabSlots = s.fabSlots := rfl
@[simp] theorem State.setReg_fabWait (r : Reg) (x : Dword) (i j k : Nat) : (s.setReg r x i j k).fabWait = s.fabWait := rfl
@[simp] theorem State.setReg_remq (r : Reg) (x : Dword) (i j k : Nat) : (s.setReg r x i j k).remq = s.remq := rfl
@[simp] theorem State.setReg_remote (r : Reg) (x : Dword) (i j k : Nat) : (s.setReg r x i j k).remote = s.remote := rfl
@[simp] theorem State.setReg_remTag (r : Reg) (x : Dword) (i j k : Nat) : (s.setReg r x i j k).remTag = s.remTag := rfl
@[simp] theorem State.setReg_sites (r : Reg) (x : Dword) (i j k : Nat) : (s.setReg r x i j k).sites = s.sites := rfl
@[simp] theorem State.setReg_reasons (r : Reg) (x : Dword) (i j k : Nat) : (s.setReg r x i j k).reasons = s.reasons := rfl
@[simp] theorem State.setReg_rings (r : Reg) (x : Dword) (i j k : Nat) : (s.setReg r x i j k).rings = s.rings := rfl
@[simp] theorem State.setReg_msix (r : Reg) (x : Dword) (i j k : Nat) : (s.setReg r x i j k).msix = s.msix := rfl
@[simp] theorem State.setReg_hostRsp (r : Reg) (x : Dword) (i j k : Nat) : (s.setReg r x i j k).hostRsp = s.hostRsp := rfl
@[simp] theorem State.setReg_dic (r : Reg) (x : Dword) (i j k : Nat) : (s.setReg r x i j k).dic = s.dic := rfl
@[simp] theorem State.setReg_pow (r : Reg) (x : Dword) (i j k : Nat) : (s.setReg r x i j k).pow = s.pow := rfl
@[simp] theorem State.setReg_domReq (r : Reg) (x : Dword) (i j k : Nat) : (s.setReg r x i j k).domReq = s.domReq := rfl
@[simp] theorem State.setReg_domStart (r : Reg) (x : Dword) (i j k : Nat) : (s.setReg r x i j k).domStart = s.domStart := rfl
@[simp] theorem State.setReg_sup (r : Reg) (x : Dword) (i j k : Nat) : (s.setReg r x i j k).sup = s.sup := rfl
@[simp] theorem State.setReg_keep (r : Reg) (x : Dword) (i j k : Nat) : (s.setReg r x i j k).keep = s.keep := rfl
@[simp] theorem State.setReg_mram (r : Reg) (x : Dword) (i j k : Nat) : (s.setReg r x i j k).mram = s.mram := rfl
@[simp] theorem State.setReg_topoRun (r : Reg) (x : Dword) (i j k : Nat) : (s.setReg r x i j k).topoRun = s.topoRun := rfl
@[simp] theorem State.setReg_startEnd (r : Reg) (x : Dword) (i j k : Nat) : (s.setReg r x i j k).startEnd = s.startEnd := rfl
@[simp] theorem State.setReg_twinRing (r : Reg) (x : Dword) (i j k : Nat) : (s.setReg r x i j k).twinRing = s.twinRing := rfl
@[simp] theorem State.setReg_twinNext (r : Reg) (x : Dword) (i j k : Nat) : (s.setReg r x i j k).twinNext = s.twinNext := rfl
@[simp] theorem State.setReg_twinIn (r : Reg) (x : Dword) (i j k : Nat) : (s.setReg r x i j k).twinIn = s.twinIn := rfl
@[simp] theorem State.setReg_twinNotes (r : Reg) (x : Dword) (i j k : Nat) : (s.setReg r x i j k).twinNotes = s.twinNotes := rfl
@[simp] theorem State.setReg_twinWr (r : Reg) (x : Dword) (i j k : Nat) : (s.setReg r x i j k).twinWr = s.twinWr := rfl
@[simp] theorem State.setReg_twinBit (r : Reg) (x : Dword) (i j k : Nat) : (s.setReg r x i j k).twinBit = s.twinBit := rfl
@[simp] theorem State.setReg_twinPeer (r : Reg) (x : Dword) (i j k : Nat) : (s.setReg r x i j k).twinPeer = s.twinPeer := rfl
@[simp] theorem State.setReg_twinSync (r : Reg) (x : Dword) (i j k : Nat) : (s.setReg r x i j k).twinSync = s.twinSync := rfl
@[simp] theorem State.setReg_rindWait (r : Reg) (x : Dword) (i j k : Nat) : (s.setReg r x i j k).rindWait = s.rindWait := rfl
@[simp] theorem State.setReg_drbg (r : Reg) (x : Dword) (i j k : Nat) : (s.setReg r x i j k).drbg = s.drbg := rfl
@[simp] theorem State.setReg_cfgDigest (r : Reg) (x : Dword) (i j k : Nat) : (s.setReg r x i j k).cfgDigest = s.cfgDigest := rfl
@[simp] theorem State.setReg_jtag (r : Reg) (x : Dword) (i j k : Nat) : (s.setReg r x i j k).jtag = s.jtag := rfl
@[simp] theorem State.setReg_jtagDr (r : Reg) (x : Dword) (i j k : Nat) : (s.setReg r x i j k).jtagDr = s.jtagDr := rfl
@[simp] theorem State.setReg_sbRsp (r : Reg) (x : Dword) (i j k : Nat) : (s.setReg r x i j k).sbRsp = s.sbRsp := rfl

/-! ### `setFld` -/

@[simp] theorem State.setFld_pending (f : Fld) (x i j k : Nat) : (s.setFld f x i j k).pending = s.pending := rfl
@[simp] theorem State.setFld_mem (f : Fld) (x i j k : Nat) : (s.setFld f x i j k).mem = s.mem := rfl
@[simp] theorem State.setFld_free (f : Fld) (x i j k : Nat) : (s.setFld f x i j k).free = s.free := rfl
@[simp] theorem State.setFld_tscCopy (f : Fld) (x i j k : Nat) : (s.setFld f x i j k).tscCopy = s.tscCopy := rfl
@[simp] theorem State.setFld_net (f : Fld) (x i j k : Nat) : (s.setFld f x i j k).net = s.net := rfl
@[simp] theorem State.setFld_rebased (f : Fld) (x i j k : Nat) : (s.setFld f x i j k).rebased = s.rebased := rfl
@[simp] theorem State.setFld_audit (f : Fld) (x i j k : Nat) : (s.setFld f x i j k).audit = s.audit := rfl
@[simp] theorem State.setFld_late (f : Fld) (x i j k : Nat) : (s.setFld f x i j k).late = s.late := rfl
@[simp] theorem State.setFld_mgmtRsp (f : Fld) (x i j k : Nat) : (s.setFld f x i j k).mgmtRsp = s.mgmtRsp := rfl
@[simp] theorem State.setFld_ledgerTest (f : Fld) (x i j k : Nat) : (s.setFld f x i j k).ledgerTest = s.ledgerTest := rfl
@[simp] theorem State.setFld_img (f : Fld) (x i j k : Nat) : (s.setFld f x i j k).img = s.img := rfl
@[simp] theorem State.setFld_reloading (f : Fld) (x i j k : Nat) : (s.setFld f x i j k).reloading = s.reloading := rfl
@[simp] theorem State.setFld_mcRun (f : Fld) (x i j k : Nat) : (s.setFld f x i j k).mcRun = s.mcRun := rfl
@[simp] theorem State.setFld_mcQueue (f : Fld) (x i j k : Nat) : (s.setFld f x i j k).mcQueue = s.mcQueue := rfl
@[simp] theorem State.setFld_cores (f : Fld) (x i j k : Nat) : (s.setFld f x i j k).cores = s.cores := rfl
@[simp] theorem State.setFld_streams (f : Fld) (x i j k : Nat) : (s.setFld f x i j k).streams = s.streams := rfl
@[simp] theorem State.setFld_twinWait (f : Fld) (x i j k : Nat) : (s.setFld f x i j k).twinWait = s.twinWait := rfl
@[simp] theorem State.setFld_churns (f : Fld) (x i j k : Nat) : (s.setFld f x i j k).churns = s.churns := rfl
@[simp] theorem State.setFld_redLanes (f : Fld) (x i j k : Nat) : (s.setFld f x i j k).redLanes = s.redLanes := rfl
@[simp] theorem State.setFld_regQueue (f : Fld) (x i j k : Nat) : (s.setFld f x i j k).regQueue = s.regQueue := rfl
@[simp] theorem State.setFld_tasks (f : Fld) (x i j k : Nat) : (s.setFld f x i j k).tasks = s.tasks := rfl
@[simp] theorem State.setFld_lastDisp (f : Fld) (x i j k : Nat) : (s.setFld f x i j k).lastDisp = s.lastDisp := rfl
@[simp] theorem State.setFld_ladles (f : Fld) (x i j k : Nat) : (s.setFld f x i j k).ladles = s.ladles := rfl
@[simp] theorem State.setFld_slots (f : Fld) (x i j k : Nat) : (s.setFld f x i j k).slots = s.slots := rfl
@[simp] theorem State.setFld_credOut (f : Fld) (x i j k : Nat) : (s.setFld f x i j k).credOut = s.credOut := rfl
@[simp] theorem State.setFld_excluded (f : Fld) (x i j k : Nat) : (s.setFld f x i j k).excluded = s.excluded := rfl
@[simp] theorem State.setFld_specs (f : Fld) (x i j k : Nat) : (s.setFld f x i j k).specs = s.specs := rfl
@[simp] theorem State.setFld_slices (f : Fld) (x i j k : Nat) : (s.setFld f x i j k).slices = s.slices := rfl
@[simp] theorem State.setFld_memq (f : Fld) (x i j k : Nat) : (s.setFld f x i j k).memq = s.memq := rfl
@[simp] theorem State.setFld_hostRds (f : Fld) (x i j k : Nat) : (s.setFld f x i j k).hostRds = s.hostRds := rfl
@[simp] theorem State.setFld_crks (f : Fld) (x i j k : Nat) : (s.setFld f x i j k).crks = s.crks := rfl
@[simp] theorem State.setFld_valid (f : Fld) (x i j k : Nat) : (s.setFld f x i j k).valid = s.valid := rfl
@[simp] theorem State.setFld_cels (f : Fld) (x i j k : Nat) : (s.setFld f x i j k).cels = s.cels := rfl
@[simp] theorem State.setFld_fqSeq (f : Fld) (x i j k : Nat) : (s.setFld f x i j k).fqSeq = s.fqSeq := rfl
@[simp] theorem State.setFld_ringWrites (f : Fld) (x i j k : Nat) : (s.setFld f x i j k).ringWrites = s.ringWrites := rfl
@[simp] theorem State.setFld_tlb (f : Fld) (x i j k : Nat) : (s.setFld f x i j k).tlb = s.tlb := rfl
@[simp] theorem State.setFld_micro (f : Fld) (x i j k : Nat) : (s.setFld f x i j k).micro = s.micro := rfl
@[simp] theorem State.setFld_walks (f : Fld) (x i j k : Nat) : (s.setFld f x i j k).walks = s.walks := rfl
@[simp] theorem State.setFld_xltRetry (f : Fld) (x i j k : Nat) : (s.setFld f x i j k).xltRetry = s.xltRetry := rfl
@[simp] theorem State.setFld_xtag (f : Fld) (x i j k : Nat) : (s.setFld f x i j k).xtag = s.xtag := rfl
@[simp] theorem State.setFld_migq (f : Fld) (x i j k : Nat) : (s.setFld f x i j k).migq = s.migq := rfl
@[simp] theorem State.setFld_mig (f : Fld) (x i j k : Nat) : (s.setFld f x i j k).mig = s.mig := rfl
@[simp] theorem State.setFld_shoot (f : Fld) (x i j k : Nat) : (s.setFld f x i j k).shoot = s.shoot := rfl
@[simp] theorem State.setFld_lanes (f : Fld) (x i j k : Nat) : (s.setFld f x i j k).lanes = s.lanes := rfl
@[simp] theorem State.setFld_refs (f : Fld) (x i j k : Nat) : (s.setFld f x i j k).refs = s.refs := rfl
@[simp] theorem State.setFld_ports (f : Fld) (x i j k : Nat) : (s.setFld f x i j k).ports = s.ports := rfl
@[simp] theorem State.setFld_links (f : Fld) (x i j k : Nat) : (s.setFld f x i j k).links = s.links := rfl
@[simp] theorem State.setFld_fabSlots (f : Fld) (x i j k : Nat) : (s.setFld f x i j k).fabSlots = s.fabSlots := rfl
@[simp] theorem State.setFld_fabWait (f : Fld) (x i j k : Nat) : (s.setFld f x i j k).fabWait = s.fabWait := rfl
@[simp] theorem State.setFld_remq (f : Fld) (x i j k : Nat) : (s.setFld f x i j k).remq = s.remq := rfl
@[simp] theorem State.setFld_remote (f : Fld) (x i j k : Nat) : (s.setFld f x i j k).remote = s.remote := rfl
@[simp] theorem State.setFld_remTag (f : Fld) (x i j k : Nat) : (s.setFld f x i j k).remTag = s.remTag := rfl
@[simp] theorem State.setFld_sites (f : Fld) (x i j k : Nat) : (s.setFld f x i j k).sites = s.sites := rfl
@[simp] theorem State.setFld_reasons (f : Fld) (x i j k : Nat) : (s.setFld f x i j k).reasons = s.reasons := rfl
@[simp] theorem State.setFld_rings (f : Fld) (x i j k : Nat) : (s.setFld f x i j k).rings = s.rings := rfl
@[simp] theorem State.setFld_msix (f : Fld) (x i j k : Nat) : (s.setFld f x i j k).msix = s.msix := rfl
@[simp] theorem State.setFld_hostRsp (f : Fld) (x i j k : Nat) : (s.setFld f x i j k).hostRsp = s.hostRsp := rfl
@[simp] theorem State.setFld_dic (f : Fld) (x i j k : Nat) : (s.setFld f x i j k).dic = s.dic := rfl
@[simp] theorem State.setFld_pow (f : Fld) (x i j k : Nat) : (s.setFld f x i j k).pow = s.pow := rfl
@[simp] theorem State.setFld_domReq (f : Fld) (x i j k : Nat) : (s.setFld f x i j k).domReq = s.domReq := rfl
@[simp] theorem State.setFld_domStart (f : Fld) (x i j k : Nat) : (s.setFld f x i j k).domStart = s.domStart := rfl
@[simp] theorem State.setFld_sup (f : Fld) (x i j k : Nat) : (s.setFld f x i j k).sup = s.sup := rfl
@[simp] theorem State.setFld_keep (f : Fld) (x i j k : Nat) : (s.setFld f x i j k).keep = s.keep := rfl
@[simp] theorem State.setFld_mram (f : Fld) (x i j k : Nat) : (s.setFld f x i j k).mram = s.mram := rfl
@[simp] theorem State.setFld_topoRun (f : Fld) (x i j k : Nat) : (s.setFld f x i j k).topoRun = s.topoRun := rfl
@[simp] theorem State.setFld_startEnd (f : Fld) (x i j k : Nat) : (s.setFld f x i j k).startEnd = s.startEnd := rfl
@[simp] theorem State.setFld_twinRing (f : Fld) (x i j k : Nat) : (s.setFld f x i j k).twinRing = s.twinRing := rfl
@[simp] theorem State.setFld_twinNext (f : Fld) (x i j k : Nat) : (s.setFld f x i j k).twinNext = s.twinNext := rfl
@[simp] theorem State.setFld_twinIn (f : Fld) (x i j k : Nat) : (s.setFld f x i j k).twinIn = s.twinIn := rfl
@[simp] theorem State.setFld_twinNotes (f : Fld) (x i j k : Nat) : (s.setFld f x i j k).twinNotes = s.twinNotes := rfl
@[simp] theorem State.setFld_twinWr (f : Fld) (x i j k : Nat) : (s.setFld f x i j k).twinWr = s.twinWr := rfl
@[simp] theorem State.setFld_twinBit (f : Fld) (x i j k : Nat) : (s.setFld f x i j k).twinBit = s.twinBit := rfl
@[simp] theorem State.setFld_twinPeer (f : Fld) (x i j k : Nat) : (s.setFld f x i j k).twinPeer = s.twinPeer := rfl
@[simp] theorem State.setFld_twinSync (f : Fld) (x i j k : Nat) : (s.setFld f x i j k).twinSync = s.twinSync := rfl
@[simp] theorem State.setFld_rindWait (f : Fld) (x i j k : Nat) : (s.setFld f x i j k).rindWait = s.rindWait := rfl
@[simp] theorem State.setFld_drbg (f : Fld) (x i j k : Nat) : (s.setFld f x i j k).drbg = s.drbg := rfl
@[simp] theorem State.setFld_cfgDigest (f : Fld) (x i j k : Nat) : (s.setFld f x i j k).cfgDigest = s.cfgDigest := rfl
@[simp] theorem State.setFld_jtag (f : Fld) (x i j k : Nat) : (s.setFld f x i j k).jtag = s.jtag := rfl
@[simp] theorem State.setFld_jtagDr (f : Fld) (x i j k : Nat) : (s.setFld f x i j k).jtagDr = s.jtagDr := rfl
@[simp] theorem State.setFld_sbRsp (f : Fld) (x i j k : Nat) : (s.setFld f x i j k).sbRsp = s.sbRsp := rfl

/-! ### `setCore` -/

@[simp] theorem State.setCore_pending (c : Nat) (x : CoreSt) : (s.setCore c x).pending = s.pending := rfl
@[simp] theorem State.setCore_regs (c : Nat) (x : CoreSt) : (s.setCore c x).regs = s.regs := rfl
@[simp] theorem State.setCore_mem (c : Nat) (x : CoreSt) : (s.setCore c x).mem = s.mem := rfl
@[simp] theorem State.setCore_free (c : Nat) (x : CoreSt) : (s.setCore c x).free = s.free := rfl
@[simp] theorem State.setCore_tscCopy (c : Nat) (x : CoreSt) : (s.setCore c x).tscCopy = s.tscCopy := rfl
@[simp] theorem State.setCore_net (c : Nat) (x : CoreSt) : (s.setCore c x).net = s.net := rfl
@[simp] theorem State.setCore_rebased (c : Nat) (x : CoreSt) : (s.setCore c x).rebased = s.rebased := rfl
@[simp] theorem State.setCore_audit (c : Nat) (x : CoreSt) : (s.setCore c x).audit = s.audit := rfl
@[simp] theorem State.setCore_late (c : Nat) (x : CoreSt) : (s.setCore c x).late = s.late := rfl
@[simp] theorem State.setCore_mgmtRsp (c : Nat) (x : CoreSt) : (s.setCore c x).mgmtRsp = s.mgmtRsp := rfl
@[simp] theorem State.setCore_ledgerTest (c : Nat) (x : CoreSt) : (s.setCore c x).ledgerTest = s.ledgerTest := rfl
@[simp] theorem State.setCore_img (c : Nat) (x : CoreSt) : (s.setCore c x).img = s.img := rfl
@[simp] theorem State.setCore_reloading (c : Nat) (x : CoreSt) : (s.setCore c x).reloading = s.reloading := rfl
@[simp] theorem State.setCore_mcRun (c : Nat) (x : CoreSt) : (s.setCore c x).mcRun = s.mcRun := rfl
@[simp] theorem State.setCore_mcQueue (c : Nat) (x : CoreSt) : (s.setCore c x).mcQueue = s.mcQueue := rfl
@[simp] theorem State.setCore_streams (c : Nat) (x : CoreSt) : (s.setCore c x).streams = s.streams := rfl
@[simp] theorem State.setCore_twinWait (c : Nat) (x : CoreSt) : (s.setCore c x).twinWait = s.twinWait := rfl
@[simp] theorem State.setCore_churns (c : Nat) (x : CoreSt) : (s.setCore c x).churns = s.churns := rfl
@[simp] theorem State.setCore_redLanes (c : Nat) (x : CoreSt) : (s.setCore c x).redLanes = s.redLanes := rfl
@[simp] theorem State.setCore_regQueue (c : Nat) (x : CoreSt) : (s.setCore c x).regQueue = s.regQueue := rfl
@[simp] theorem State.setCore_tasks (c : Nat) (x : CoreSt) : (s.setCore c x).tasks = s.tasks := rfl
@[simp] theorem State.setCore_lastDisp (c : Nat) (x : CoreSt) : (s.setCore c x).lastDisp = s.lastDisp := rfl
@[simp] theorem State.setCore_ladles (c : Nat) (x : CoreSt) : (s.setCore c x).ladles = s.ladles := rfl
@[simp] theorem State.setCore_slots (c : Nat) (x : CoreSt) : (s.setCore c x).slots = s.slots := rfl
@[simp] theorem State.setCore_credOut (c : Nat) (x : CoreSt) : (s.setCore c x).credOut = s.credOut := rfl
@[simp] theorem State.setCore_excluded (c : Nat) (x : CoreSt) : (s.setCore c x).excluded = s.excluded := rfl
@[simp] theorem State.setCore_specs (c : Nat) (x : CoreSt) : (s.setCore c x).specs = s.specs := rfl
@[simp] theorem State.setCore_slices (c : Nat) (x : CoreSt) : (s.setCore c x).slices = s.slices := rfl
@[simp] theorem State.setCore_memq (c : Nat) (x : CoreSt) : (s.setCore c x).memq = s.memq := rfl
@[simp] theorem State.setCore_hostRds (c : Nat) (x : CoreSt) : (s.setCore c x).hostRds = s.hostRds := rfl
@[simp] theorem State.setCore_crks (c : Nat) (x : CoreSt) : (s.setCore c x).crks = s.crks := rfl
@[simp] theorem State.setCore_valid (c : Nat) (x : CoreSt) : (s.setCore c x).valid = s.valid := rfl
@[simp] theorem State.setCore_cels (c : Nat) (x : CoreSt) : (s.setCore c x).cels = s.cels := rfl
@[simp] theorem State.setCore_fqSeq (c : Nat) (x : CoreSt) : (s.setCore c x).fqSeq = s.fqSeq := rfl
@[simp] theorem State.setCore_ringWrites (c : Nat) (x : CoreSt) : (s.setCore c x).ringWrites = s.ringWrites := rfl
@[simp] theorem State.setCore_tlb (c : Nat) (x : CoreSt) : (s.setCore c x).tlb = s.tlb := rfl
@[simp] theorem State.setCore_micro (c : Nat) (x : CoreSt) : (s.setCore c x).micro = s.micro := rfl
@[simp] theorem State.setCore_walks (c : Nat) (x : CoreSt) : (s.setCore c x).walks = s.walks := rfl
@[simp] theorem State.setCore_xltRetry (c : Nat) (x : CoreSt) : (s.setCore c x).xltRetry = s.xltRetry := rfl
@[simp] theorem State.setCore_xtag (c : Nat) (x : CoreSt) : (s.setCore c x).xtag = s.xtag := rfl
@[simp] theorem State.setCore_migq (c : Nat) (x : CoreSt) : (s.setCore c x).migq = s.migq := rfl
@[simp] theorem State.setCore_mig (c : Nat) (x : CoreSt) : (s.setCore c x).mig = s.mig := rfl
@[simp] theorem State.setCore_shoot (c : Nat) (x : CoreSt) : (s.setCore c x).shoot = s.shoot := rfl
@[simp] theorem State.setCore_lanes (c : Nat) (x : CoreSt) : (s.setCore c x).lanes = s.lanes := rfl
@[simp] theorem State.setCore_refs (c : Nat) (x : CoreSt) : (s.setCore c x).refs = s.refs := rfl
@[simp] theorem State.setCore_ports (c : Nat) (x : CoreSt) : (s.setCore c x).ports = s.ports := rfl
@[simp] theorem State.setCore_links (c : Nat) (x : CoreSt) : (s.setCore c x).links = s.links := rfl
@[simp] theorem State.setCore_fabSlots (c : Nat) (x : CoreSt) : (s.setCore c x).fabSlots = s.fabSlots := rfl
@[simp] theorem State.setCore_fabWait (c : Nat) (x : CoreSt) : (s.setCore c x).fabWait = s.fabWait := rfl
@[simp] theorem State.setCore_remq (c : Nat) (x : CoreSt) : (s.setCore c x).remq = s.remq := rfl
@[simp] theorem State.setCore_remote (c : Nat) (x : CoreSt) : (s.setCore c x).remote = s.remote := rfl
@[simp] theorem State.setCore_remTag (c : Nat) (x : CoreSt) : (s.setCore c x).remTag = s.remTag := rfl
@[simp] theorem State.setCore_sites (c : Nat) (x : CoreSt) : (s.setCore c x).sites = s.sites := rfl
@[simp] theorem State.setCore_reasons (c : Nat) (x : CoreSt) : (s.setCore c x).reasons = s.reasons := rfl
@[simp] theorem State.setCore_rings (c : Nat) (x : CoreSt) : (s.setCore c x).rings = s.rings := rfl
@[simp] theorem State.setCore_msix (c : Nat) (x : CoreSt) : (s.setCore c x).msix = s.msix := rfl
@[simp] theorem State.setCore_hostRsp (c : Nat) (x : CoreSt) : (s.setCore c x).hostRsp = s.hostRsp := rfl
@[simp] theorem State.setCore_dic (c : Nat) (x : CoreSt) : (s.setCore c x).dic = s.dic := rfl
@[simp] theorem State.setCore_pow (c : Nat) (x : CoreSt) : (s.setCore c x).pow = s.pow := rfl
@[simp] theorem State.setCore_domReq (c : Nat) (x : CoreSt) : (s.setCore c x).domReq = s.domReq := rfl
@[simp] theorem State.setCore_domStart (c : Nat) (x : CoreSt) : (s.setCore c x).domStart = s.domStart := rfl
@[simp] theorem State.setCore_sup (c : Nat) (x : CoreSt) : (s.setCore c x).sup = s.sup := rfl
@[simp] theorem State.setCore_keep (c : Nat) (x : CoreSt) : (s.setCore c x).keep = s.keep := rfl
@[simp] theorem State.setCore_mram (c : Nat) (x : CoreSt) : (s.setCore c x).mram = s.mram := rfl
@[simp] theorem State.setCore_topoRun (c : Nat) (x : CoreSt) : (s.setCore c x).topoRun = s.topoRun := rfl
@[simp] theorem State.setCore_startEnd (c : Nat) (x : CoreSt) : (s.setCore c x).startEnd = s.startEnd := rfl
@[simp] theorem State.setCore_twinRing (c : Nat) (x : CoreSt) : (s.setCore c x).twinRing = s.twinRing := rfl
@[simp] theorem State.setCore_twinNext (c : Nat) (x : CoreSt) : (s.setCore c x).twinNext = s.twinNext := rfl
@[simp] theorem State.setCore_twinIn (c : Nat) (x : CoreSt) : (s.setCore c x).twinIn = s.twinIn := rfl
@[simp] theorem State.setCore_twinNotes (c : Nat) (x : CoreSt) : (s.setCore c x).twinNotes = s.twinNotes := rfl
@[simp] theorem State.setCore_twinWr (c : Nat) (x : CoreSt) : (s.setCore c x).twinWr = s.twinWr := rfl
@[simp] theorem State.setCore_twinBit (c : Nat) (x : CoreSt) : (s.setCore c x).twinBit = s.twinBit := rfl
@[simp] theorem State.setCore_twinPeer (c : Nat) (x : CoreSt) : (s.setCore c x).twinPeer = s.twinPeer := rfl
@[simp] theorem State.setCore_twinSync (c : Nat) (x : CoreSt) : (s.setCore c x).twinSync = s.twinSync := rfl
@[simp] theorem State.setCore_rindWait (c : Nat) (x : CoreSt) : (s.setCore c x).rindWait = s.rindWait := rfl
@[simp] theorem State.setCore_drbg (c : Nat) (x : CoreSt) : (s.setCore c x).drbg = s.drbg := rfl
@[simp] theorem State.setCore_cfgDigest (c : Nat) (x : CoreSt) : (s.setCore c x).cfgDigest = s.cfgDigest := rfl
@[simp] theorem State.setCore_jtag (c : Nat) (x : CoreSt) : (s.setCore c x).jtag = s.jtag := rfl
@[simp] theorem State.setCore_jtagDr (c : Nat) (x : CoreSt) : (s.setCore c x).jtagDr = s.jtagDr := rfl
@[simp] theorem State.setCore_sbRsp (c : Nat) (x : CoreSt) : (s.setCore c x).sbRsp = s.sbRsp := rfl

/-! ### `updCore` -/

@[simp] theorem State.updCore_pending (c : Nat) (f : CoreSt → CoreSt) : (s.updCore c f).pending = s.pending := rfl
@[simp] theorem State.updCore_regs (c : Nat) (f : CoreSt → CoreSt) : (s.updCore c f).regs = s.regs := rfl
@[simp] theorem State.updCore_mem (c : Nat) (f : CoreSt → CoreSt) : (s.updCore c f).mem = s.mem := rfl
@[simp] theorem State.updCore_free (c : Nat) (f : CoreSt → CoreSt) : (s.updCore c f).free = s.free := rfl
@[simp] theorem State.updCore_tscCopy (c : Nat) (f : CoreSt → CoreSt) : (s.updCore c f).tscCopy = s.tscCopy := rfl
@[simp] theorem State.updCore_net (c : Nat) (f : CoreSt → CoreSt) : (s.updCore c f).net = s.net := rfl
@[simp] theorem State.updCore_rebased (c : Nat) (f : CoreSt → CoreSt) : (s.updCore c f).rebased = s.rebased := rfl
@[simp] theorem State.updCore_audit (c : Nat) (f : CoreSt → CoreSt) : (s.updCore c f).audit = s.audit := rfl
@[simp] theorem State.updCore_late (c : Nat) (f : CoreSt → CoreSt) : (s.updCore c f).late = s.late := rfl
@[simp] theorem State.updCore_mgmtRsp (c : Nat) (f : CoreSt → CoreSt) : (s.updCore c f).mgmtRsp = s.mgmtRsp := rfl
@[simp] theorem State.updCore_ledgerTest (c : Nat) (f : CoreSt → CoreSt) : (s.updCore c f).ledgerTest = s.ledgerTest := rfl
@[simp] theorem State.updCore_img (c : Nat) (f : CoreSt → CoreSt) : (s.updCore c f).img = s.img := rfl
@[simp] theorem State.updCore_reloading (c : Nat) (f : CoreSt → CoreSt) : (s.updCore c f).reloading = s.reloading := rfl
@[simp] theorem State.updCore_mcRun (c : Nat) (f : CoreSt → CoreSt) : (s.updCore c f).mcRun = s.mcRun := rfl
@[simp] theorem State.updCore_mcQueue (c : Nat) (f : CoreSt → CoreSt) : (s.updCore c f).mcQueue = s.mcQueue := rfl
@[simp] theorem State.updCore_streams (c : Nat) (f : CoreSt → CoreSt) : (s.updCore c f).streams = s.streams := rfl
@[simp] theorem State.updCore_twinWait (c : Nat) (f : CoreSt → CoreSt) : (s.updCore c f).twinWait = s.twinWait := rfl
@[simp] theorem State.updCore_churns (c : Nat) (f : CoreSt → CoreSt) : (s.updCore c f).churns = s.churns := rfl
@[simp] theorem State.updCore_redLanes (c : Nat) (f : CoreSt → CoreSt) : (s.updCore c f).redLanes = s.redLanes := rfl
@[simp] theorem State.updCore_regQueue (c : Nat) (f : CoreSt → CoreSt) : (s.updCore c f).regQueue = s.regQueue := rfl
@[simp] theorem State.updCore_tasks (c : Nat) (f : CoreSt → CoreSt) : (s.updCore c f).tasks = s.tasks := rfl
@[simp] theorem State.updCore_lastDisp (c : Nat) (f : CoreSt → CoreSt) : (s.updCore c f).lastDisp = s.lastDisp := rfl
@[simp] theorem State.updCore_ladles (c : Nat) (f : CoreSt → CoreSt) : (s.updCore c f).ladles = s.ladles := rfl
@[simp] theorem State.updCore_slots (c : Nat) (f : CoreSt → CoreSt) : (s.updCore c f).slots = s.slots := rfl
@[simp] theorem State.updCore_credOut (c : Nat) (f : CoreSt → CoreSt) : (s.updCore c f).credOut = s.credOut := rfl
@[simp] theorem State.updCore_excluded (c : Nat) (f : CoreSt → CoreSt) : (s.updCore c f).excluded = s.excluded := rfl
@[simp] theorem State.updCore_specs (c : Nat) (f : CoreSt → CoreSt) : (s.updCore c f).specs = s.specs := rfl
@[simp] theorem State.updCore_slices (c : Nat) (f : CoreSt → CoreSt) : (s.updCore c f).slices = s.slices := rfl
@[simp] theorem State.updCore_memq (c : Nat) (f : CoreSt → CoreSt) : (s.updCore c f).memq = s.memq := rfl
@[simp] theorem State.updCore_hostRds (c : Nat) (f : CoreSt → CoreSt) : (s.updCore c f).hostRds = s.hostRds := rfl
@[simp] theorem State.updCore_crks (c : Nat) (f : CoreSt → CoreSt) : (s.updCore c f).crks = s.crks := rfl
@[simp] theorem State.updCore_valid (c : Nat) (f : CoreSt → CoreSt) : (s.updCore c f).valid = s.valid := rfl
@[simp] theorem State.updCore_cels (c : Nat) (f : CoreSt → CoreSt) : (s.updCore c f).cels = s.cels := rfl
@[simp] theorem State.updCore_fqSeq (c : Nat) (f : CoreSt → CoreSt) : (s.updCore c f).fqSeq = s.fqSeq := rfl
@[simp] theorem State.updCore_ringWrites (c : Nat) (f : CoreSt → CoreSt) : (s.updCore c f).ringWrites = s.ringWrites := rfl
@[simp] theorem State.updCore_tlb (c : Nat) (f : CoreSt → CoreSt) : (s.updCore c f).tlb = s.tlb := rfl
@[simp] theorem State.updCore_micro (c : Nat) (f : CoreSt → CoreSt) : (s.updCore c f).micro = s.micro := rfl
@[simp] theorem State.updCore_walks (c : Nat) (f : CoreSt → CoreSt) : (s.updCore c f).walks = s.walks := rfl
@[simp] theorem State.updCore_xltRetry (c : Nat) (f : CoreSt → CoreSt) : (s.updCore c f).xltRetry = s.xltRetry := rfl
@[simp] theorem State.updCore_xtag (c : Nat) (f : CoreSt → CoreSt) : (s.updCore c f).xtag = s.xtag := rfl
@[simp] theorem State.updCore_migq (c : Nat) (f : CoreSt → CoreSt) : (s.updCore c f).migq = s.migq := rfl
@[simp] theorem State.updCore_mig (c : Nat) (f : CoreSt → CoreSt) : (s.updCore c f).mig = s.mig := rfl
@[simp] theorem State.updCore_shoot (c : Nat) (f : CoreSt → CoreSt) : (s.updCore c f).shoot = s.shoot := rfl
@[simp] theorem State.updCore_lanes (c : Nat) (f : CoreSt → CoreSt) : (s.updCore c f).lanes = s.lanes := rfl
@[simp] theorem State.updCore_refs (c : Nat) (f : CoreSt → CoreSt) : (s.updCore c f).refs = s.refs := rfl
@[simp] theorem State.updCore_ports (c : Nat) (f : CoreSt → CoreSt) : (s.updCore c f).ports = s.ports := rfl
@[simp] theorem State.updCore_links (c : Nat) (f : CoreSt → CoreSt) : (s.updCore c f).links = s.links := rfl
@[simp] theorem State.updCore_fabSlots (c : Nat) (f : CoreSt → CoreSt) : (s.updCore c f).fabSlots = s.fabSlots := rfl
@[simp] theorem State.updCore_fabWait (c : Nat) (f : CoreSt → CoreSt) : (s.updCore c f).fabWait = s.fabWait := rfl
@[simp] theorem State.updCore_remq (c : Nat) (f : CoreSt → CoreSt) : (s.updCore c f).remq = s.remq := rfl
@[simp] theorem State.updCore_remote (c : Nat) (f : CoreSt → CoreSt) : (s.updCore c f).remote = s.remote := rfl
@[simp] theorem State.updCore_remTag (c : Nat) (f : CoreSt → CoreSt) : (s.updCore c f).remTag = s.remTag := rfl
@[simp] theorem State.updCore_sites (c : Nat) (f : CoreSt → CoreSt) : (s.updCore c f).sites = s.sites := rfl
@[simp] theorem State.updCore_reasons (c : Nat) (f : CoreSt → CoreSt) : (s.updCore c f).reasons = s.reasons := rfl
@[simp] theorem State.updCore_rings (c : Nat) (f : CoreSt → CoreSt) : (s.updCore c f).rings = s.rings := rfl
@[simp] theorem State.updCore_msix (c : Nat) (f : CoreSt → CoreSt) : (s.updCore c f).msix = s.msix := rfl
@[simp] theorem State.updCore_hostRsp (c : Nat) (f : CoreSt → CoreSt) : (s.updCore c f).hostRsp = s.hostRsp := rfl
@[simp] theorem State.updCore_dic (c : Nat) (f : CoreSt → CoreSt) : (s.updCore c f).dic = s.dic := rfl
@[simp] theorem State.updCore_pow (c : Nat) (f : CoreSt → CoreSt) : (s.updCore c f).pow = s.pow := rfl
@[simp] theorem State.updCore_domReq (c : Nat) (f : CoreSt → CoreSt) : (s.updCore c f).domReq = s.domReq := rfl
@[simp] theorem State.updCore_domStart (c : Nat) (f : CoreSt → CoreSt) : (s.updCore c f).domStart = s.domStart := rfl
@[simp] theorem State.updCore_sup (c : Nat) (f : CoreSt → CoreSt) : (s.updCore c f).sup = s.sup := rfl
@[simp] theorem State.updCore_keep (c : Nat) (f : CoreSt → CoreSt) : (s.updCore c f).keep = s.keep := rfl
@[simp] theorem State.updCore_mram (c : Nat) (f : CoreSt → CoreSt) : (s.updCore c f).mram = s.mram := rfl
@[simp] theorem State.updCore_topoRun (c : Nat) (f : CoreSt → CoreSt) : (s.updCore c f).topoRun = s.topoRun := rfl
@[simp] theorem State.updCore_startEnd (c : Nat) (f : CoreSt → CoreSt) : (s.updCore c f).startEnd = s.startEnd := rfl
@[simp] theorem State.updCore_twinRing (c : Nat) (f : CoreSt → CoreSt) : (s.updCore c f).twinRing = s.twinRing := rfl
@[simp] theorem State.updCore_twinNext (c : Nat) (f : CoreSt → CoreSt) : (s.updCore c f).twinNext = s.twinNext := rfl
@[simp] theorem State.updCore_twinIn (c : Nat) (f : CoreSt → CoreSt) : (s.updCore c f).twinIn = s.twinIn := rfl
@[simp] theorem State.updCore_twinNotes (c : Nat) (f : CoreSt → CoreSt) : (s.updCore c f).twinNotes = s.twinNotes := rfl
@[simp] theorem State.updCore_twinWr (c : Nat) (f : CoreSt → CoreSt) : (s.updCore c f).twinWr = s.twinWr := rfl
@[simp] theorem State.updCore_twinBit (c : Nat) (f : CoreSt → CoreSt) : (s.updCore c f).twinBit = s.twinBit := rfl
@[simp] theorem State.updCore_twinPeer (c : Nat) (f : CoreSt → CoreSt) : (s.updCore c f).twinPeer = s.twinPeer := rfl
@[simp] theorem State.updCore_twinSync (c : Nat) (f : CoreSt → CoreSt) : (s.updCore c f).twinSync = s.twinSync := rfl
@[simp] theorem State.updCore_rindWait (c : Nat) (f : CoreSt → CoreSt) : (s.updCore c f).rindWait = s.rindWait := rfl
@[simp] theorem State.updCore_drbg (c : Nat) (f : CoreSt → CoreSt) : (s.updCore c f).drbg = s.drbg := rfl
@[simp] theorem State.updCore_cfgDigest (c : Nat) (f : CoreSt → CoreSt) : (s.updCore c f).cfgDigest = s.cfgDigest := rfl
@[simp] theorem State.updCore_jtag (c : Nat) (f : CoreSt → CoreSt) : (s.updCore c f).jtag = s.jtag := rfl
@[simp] theorem State.updCore_jtagDr (c : Nat) (f : CoreSt → CoreSt) : (s.updCore c f).jtagDr = s.jtagDr := rfl
@[simp] theorem State.updCore_sbRsp (c : Nat) (f : CoreSt → CoreSt) : (s.updCore c f).sbRsp = s.sbRsp := rfl

/-! ### `drawn` -/

@[simp] theorem State.drawn_pending : (s.drawn).pending = s.pending := rfl
@[simp] theorem State.drawn_regs : (s.drawn).regs = s.regs := rfl
@[simp] theorem State.drawn_mem : (s.drawn).mem = s.mem := rfl
@[simp] theorem State.drawn_tscCopy : (s.drawn).tscCopy = s.tscCopy := rfl
@[simp] theorem State.drawn_net : (s.drawn).net = s.net := rfl
@[simp] theorem State.drawn_rebased : (s.drawn).rebased = s.rebased := rfl
@[simp] theorem State.drawn_audit : (s.drawn).audit = s.audit := rfl
@[simp] theorem State.drawn_late : (s.drawn).late = s.late := rfl
@[simp] theorem State.drawn_mgmtRsp : (s.drawn).mgmtRsp = s.mgmtRsp := rfl
@[simp] theorem State.drawn_ledgerTest : (s.drawn).ledgerTest = s.ledgerTest := rfl
@[simp] theorem State.drawn_img : (s.drawn).img = s.img := rfl
@[simp] theorem State.drawn_reloading : (s.drawn).reloading = s.reloading := rfl
@[simp] theorem State.drawn_mcRun : (s.drawn).mcRun = s.mcRun := rfl
@[simp] theorem State.drawn_mcQueue : (s.drawn).mcQueue = s.mcQueue := rfl
@[simp] theorem State.drawn_cores : (s.drawn).cores = s.cores := rfl
@[simp] theorem State.drawn_streams : (s.drawn).streams = s.streams := rfl
@[simp] theorem State.drawn_twinWait : (s.drawn).twinWait = s.twinWait := rfl
@[simp] theorem State.drawn_churns : (s.drawn).churns = s.churns := rfl
@[simp] theorem State.drawn_redLanes : (s.drawn).redLanes = s.redLanes := rfl
@[simp] theorem State.drawn_regQueue : (s.drawn).regQueue = s.regQueue := rfl
@[simp] theorem State.drawn_tasks : (s.drawn).tasks = s.tasks := rfl
@[simp] theorem State.drawn_lastDisp : (s.drawn).lastDisp = s.lastDisp := rfl
@[simp] theorem State.drawn_ladles : (s.drawn).ladles = s.ladles := rfl
@[simp] theorem State.drawn_slots : (s.drawn).slots = s.slots := rfl
@[simp] theorem State.drawn_credOut : (s.drawn).credOut = s.credOut := rfl
@[simp] theorem State.drawn_excluded : (s.drawn).excluded = s.excluded := rfl
@[simp] theorem State.drawn_specs : (s.drawn).specs = s.specs := rfl
@[simp] theorem State.drawn_slices : (s.drawn).slices = s.slices := rfl
@[simp] theorem State.drawn_memq : (s.drawn).memq = s.memq := rfl
@[simp] theorem State.drawn_hostRds : (s.drawn).hostRds = s.hostRds := rfl
@[simp] theorem State.drawn_crks : (s.drawn).crks = s.crks := rfl
@[simp] theorem State.drawn_valid : (s.drawn).valid = s.valid := rfl
@[simp] theorem State.drawn_cels : (s.drawn).cels = s.cels := rfl
@[simp] theorem State.drawn_fqSeq : (s.drawn).fqSeq = s.fqSeq := rfl
@[simp] theorem State.drawn_ringWrites : (s.drawn).ringWrites = s.ringWrites := rfl
@[simp] theorem State.drawn_tlb : (s.drawn).tlb = s.tlb := rfl
@[simp] theorem State.drawn_micro : (s.drawn).micro = s.micro := rfl
@[simp] theorem State.drawn_walks : (s.drawn).walks = s.walks := rfl
@[simp] theorem State.drawn_xltRetry : (s.drawn).xltRetry = s.xltRetry := rfl
@[simp] theorem State.drawn_xtag : (s.drawn).xtag = s.xtag := rfl
@[simp] theorem State.drawn_migq : (s.drawn).migq = s.migq := rfl
@[simp] theorem State.drawn_mig : (s.drawn).mig = s.mig := rfl
@[simp] theorem State.drawn_shoot : (s.drawn).shoot = s.shoot := rfl
@[simp] theorem State.drawn_lanes : (s.drawn).lanes = s.lanes := rfl
@[simp] theorem State.drawn_refs : (s.drawn).refs = s.refs := rfl
@[simp] theorem State.drawn_ports : (s.drawn).ports = s.ports := rfl
@[simp] theorem State.drawn_links : (s.drawn).links = s.links := rfl
@[simp] theorem State.drawn_fabSlots : (s.drawn).fabSlots = s.fabSlots := rfl
@[simp] theorem State.drawn_fabWait : (s.drawn).fabWait = s.fabWait := rfl
@[simp] theorem State.drawn_remq : (s.drawn).remq = s.remq := rfl
@[simp] theorem State.drawn_remote : (s.drawn).remote = s.remote := rfl
@[simp] theorem State.drawn_remTag : (s.drawn).remTag = s.remTag := rfl
@[simp] theorem State.drawn_sites : (s.drawn).sites = s.sites := rfl
@[simp] theorem State.drawn_reasons : (s.drawn).reasons = s.reasons := rfl
@[simp] theorem State.drawn_rings : (s.drawn).rings = s.rings := rfl
@[simp] theorem State.drawn_msix : (s.drawn).msix = s.msix := rfl
@[simp] theorem State.drawn_hostRsp : (s.drawn).hostRsp = s.hostRsp := rfl
@[simp] theorem State.drawn_dic : (s.drawn).dic = s.dic := rfl
@[simp] theorem State.drawn_pow : (s.drawn).pow = s.pow := rfl
@[simp] theorem State.drawn_domReq : (s.drawn).domReq = s.domReq := rfl
@[simp] theorem State.drawn_domStart : (s.drawn).domStart = s.domStart := rfl
@[simp] theorem State.drawn_sup : (s.drawn).sup = s.sup := rfl
@[simp] theorem State.drawn_keep : (s.drawn).keep = s.keep := rfl
@[simp] theorem State.drawn_mram : (s.drawn).mram = s.mram := rfl
@[simp] theorem State.drawn_topoRun : (s.drawn).topoRun = s.topoRun := rfl
@[simp] theorem State.drawn_startEnd : (s.drawn).startEnd = s.startEnd := rfl
@[simp] theorem State.drawn_twinRing : (s.drawn).twinRing = s.twinRing := rfl
@[simp] theorem State.drawn_twinNext : (s.drawn).twinNext = s.twinNext := rfl
@[simp] theorem State.drawn_twinIn : (s.drawn).twinIn = s.twinIn := rfl
@[simp] theorem State.drawn_twinNotes : (s.drawn).twinNotes = s.twinNotes := rfl
@[simp] theorem State.drawn_twinWr : (s.drawn).twinWr = s.twinWr := rfl
@[simp] theorem State.drawn_twinBit : (s.drawn).twinBit = s.twinBit := rfl
@[simp] theorem State.drawn_twinPeer : (s.drawn).twinPeer = s.twinPeer := rfl
@[simp] theorem State.drawn_twinSync : (s.drawn).twinSync = s.twinSync := rfl
@[simp] theorem State.drawn_rindWait : (s.drawn).rindWait = s.rindWait := rfl
@[simp] theorem State.drawn_drbg : (s.drawn).drbg = s.drbg := rfl
@[simp] theorem State.drawn_cfgDigest : (s.drawn).cfgDigest = s.cfgDigest := rfl
@[simp] theorem State.drawn_jtag : (s.drawn).jtag = s.jtag := rfl
@[simp] theorem State.drawn_jtagDr : (s.drawn).jtagDr = s.jtagDr := rfl
@[simp] theorem State.drawn_sbRsp : (s.drawn).sbRsp = s.sbRsp := rfl

/-! ### `recvMsg` -/

@[simp] theorem State.recvMsg_pending (m : Msg) : (s.recvMsg m).pending = s.pending := rfl
@[simp] theorem State.recvMsg_regs (m : Msg) : (s.recvMsg m).regs = s.regs := rfl
@[simp] theorem State.recvMsg_mem (m : Msg) : (s.recvMsg m).mem = s.mem := rfl
@[simp] theorem State.recvMsg_free (m : Msg) : (s.recvMsg m).free = s.free := rfl
@[simp] theorem State.recvMsg_tscCopy (m : Msg) : (s.recvMsg m).tscCopy = s.tscCopy := rfl
@[simp] theorem State.recvMsg_rebased (m : Msg) : (s.recvMsg m).rebased = s.rebased := rfl
@[simp] theorem State.recvMsg_audit (m : Msg) : (s.recvMsg m).audit = s.audit := rfl
@[simp] theorem State.recvMsg_late (m : Msg) : (s.recvMsg m).late = s.late := rfl
@[simp] theorem State.recvMsg_mgmtRsp (m : Msg) : (s.recvMsg m).mgmtRsp = s.mgmtRsp := rfl
@[simp] theorem State.recvMsg_ledgerTest (m : Msg) : (s.recvMsg m).ledgerTest = s.ledgerTest := rfl
@[simp] theorem State.recvMsg_img (m : Msg) : (s.recvMsg m).img = s.img := rfl
@[simp] theorem State.recvMsg_reloading (m : Msg) : (s.recvMsg m).reloading = s.reloading := rfl
@[simp] theorem State.recvMsg_mcRun (m : Msg) : (s.recvMsg m).mcRun = s.mcRun := rfl
@[simp] theorem State.recvMsg_mcQueue (m : Msg) : (s.recvMsg m).mcQueue = s.mcQueue := rfl
@[simp] theorem State.recvMsg_cores (m : Msg) : (s.recvMsg m).cores = s.cores := rfl
@[simp] theorem State.recvMsg_streams (m : Msg) : (s.recvMsg m).streams = s.streams := rfl
@[simp] theorem State.recvMsg_twinWait (m : Msg) : (s.recvMsg m).twinWait = s.twinWait := rfl
@[simp] theorem State.recvMsg_churns (m : Msg) : (s.recvMsg m).churns = s.churns := rfl
@[simp] theorem State.recvMsg_redLanes (m : Msg) : (s.recvMsg m).redLanes = s.redLanes := rfl
@[simp] theorem State.recvMsg_regQueue (m : Msg) : (s.recvMsg m).regQueue = s.regQueue := rfl
@[simp] theorem State.recvMsg_tasks (m : Msg) : (s.recvMsg m).tasks = s.tasks := rfl
@[simp] theorem State.recvMsg_lastDisp (m : Msg) : (s.recvMsg m).lastDisp = s.lastDisp := rfl
@[simp] theorem State.recvMsg_ladles (m : Msg) : (s.recvMsg m).ladles = s.ladles := rfl
@[simp] theorem State.recvMsg_slots (m : Msg) : (s.recvMsg m).slots = s.slots := rfl
@[simp] theorem State.recvMsg_credOut (m : Msg) : (s.recvMsg m).credOut = s.credOut := rfl
@[simp] theorem State.recvMsg_excluded (m : Msg) : (s.recvMsg m).excluded = s.excluded := rfl
@[simp] theorem State.recvMsg_specs (m : Msg) : (s.recvMsg m).specs = s.specs := rfl
@[simp] theorem State.recvMsg_slices (m : Msg) : (s.recvMsg m).slices = s.slices := rfl
@[simp] theorem State.recvMsg_memq (m : Msg) : (s.recvMsg m).memq = s.memq := rfl
@[simp] theorem State.recvMsg_hostRds (m : Msg) : (s.recvMsg m).hostRds = s.hostRds := rfl
@[simp] theorem State.recvMsg_crks (m : Msg) : (s.recvMsg m).crks = s.crks := rfl
@[simp] theorem State.recvMsg_valid (m : Msg) : (s.recvMsg m).valid = s.valid := rfl
@[simp] theorem State.recvMsg_cels (m : Msg) : (s.recvMsg m).cels = s.cels := rfl
@[simp] theorem State.recvMsg_fqSeq (m : Msg) : (s.recvMsg m).fqSeq = s.fqSeq := rfl
@[simp] theorem State.recvMsg_ringWrites (m : Msg) : (s.recvMsg m).ringWrites = s.ringWrites := rfl
@[simp] theorem State.recvMsg_tlb (m : Msg) : (s.recvMsg m).tlb = s.tlb := rfl
@[simp] theorem State.recvMsg_micro (m : Msg) : (s.recvMsg m).micro = s.micro := rfl
@[simp] theorem State.recvMsg_walks (m : Msg) : (s.recvMsg m).walks = s.walks := rfl
@[simp] theorem State.recvMsg_xltRetry (m : Msg) : (s.recvMsg m).xltRetry = s.xltRetry := rfl
@[simp] theorem State.recvMsg_xtag (m : Msg) : (s.recvMsg m).xtag = s.xtag := rfl
@[simp] theorem State.recvMsg_migq (m : Msg) : (s.recvMsg m).migq = s.migq := rfl
@[simp] theorem State.recvMsg_mig (m : Msg) : (s.recvMsg m).mig = s.mig := rfl
@[simp] theorem State.recvMsg_shoot (m : Msg) : (s.recvMsg m).shoot = s.shoot := rfl
@[simp] theorem State.recvMsg_lanes (m : Msg) : (s.recvMsg m).lanes = s.lanes := rfl
@[simp] theorem State.recvMsg_refs (m : Msg) : (s.recvMsg m).refs = s.refs := rfl
@[simp] theorem State.recvMsg_ports (m : Msg) : (s.recvMsg m).ports = s.ports := rfl
@[simp] theorem State.recvMsg_links (m : Msg) : (s.recvMsg m).links = s.links := rfl
@[simp] theorem State.recvMsg_fabSlots (m : Msg) : (s.recvMsg m).fabSlots = s.fabSlots := rfl
@[simp] theorem State.recvMsg_fabWait (m : Msg) : (s.recvMsg m).fabWait = s.fabWait := rfl
@[simp] theorem State.recvMsg_remq (m : Msg) : (s.recvMsg m).remq = s.remq := rfl
@[simp] theorem State.recvMsg_remote (m : Msg) : (s.recvMsg m).remote = s.remote := rfl
@[simp] theorem State.recvMsg_remTag (m : Msg) : (s.recvMsg m).remTag = s.remTag := rfl
@[simp] theorem State.recvMsg_sites (m : Msg) : (s.recvMsg m).sites = s.sites := rfl
@[simp] theorem State.recvMsg_reasons (m : Msg) : (s.recvMsg m).reasons = s.reasons := rfl
@[simp] theorem State.recvMsg_rings (m : Msg) : (s.recvMsg m).rings = s.rings := rfl
@[simp] theorem State.recvMsg_msix (m : Msg) : (s.recvMsg m).msix = s.msix := rfl
@[simp] theorem State.recvMsg_hostRsp (m : Msg) : (s.recvMsg m).hostRsp = s.hostRsp := rfl
@[simp] theorem State.recvMsg_dic (m : Msg) : (s.recvMsg m).dic = s.dic := rfl
@[simp] theorem State.recvMsg_pow (m : Msg) : (s.recvMsg m).pow = s.pow := rfl
@[simp] theorem State.recvMsg_domReq (m : Msg) : (s.recvMsg m).domReq = s.domReq := rfl
@[simp] theorem State.recvMsg_domStart (m : Msg) : (s.recvMsg m).domStart = s.domStart := rfl
@[simp] theorem State.recvMsg_sup (m : Msg) : (s.recvMsg m).sup = s.sup := rfl
@[simp] theorem State.recvMsg_keep (m : Msg) : (s.recvMsg m).keep = s.keep := rfl
@[simp] theorem State.recvMsg_mram (m : Msg) : (s.recvMsg m).mram = s.mram := rfl
@[simp] theorem State.recvMsg_topoRun (m : Msg) : (s.recvMsg m).topoRun = s.topoRun := rfl
@[simp] theorem State.recvMsg_startEnd (m : Msg) : (s.recvMsg m).startEnd = s.startEnd := rfl
@[simp] theorem State.recvMsg_twinRing (m : Msg) : (s.recvMsg m).twinRing = s.twinRing := rfl
@[simp] theorem State.recvMsg_twinNext (m : Msg) : (s.recvMsg m).twinNext = s.twinNext := rfl
@[simp] theorem State.recvMsg_twinIn (m : Msg) : (s.recvMsg m).twinIn = s.twinIn := rfl
@[simp] theorem State.recvMsg_twinNotes (m : Msg) : (s.recvMsg m).twinNotes = s.twinNotes := rfl
@[simp] theorem State.recvMsg_twinWr (m : Msg) : (s.recvMsg m).twinWr = s.twinWr := rfl
@[simp] theorem State.recvMsg_twinBit (m : Msg) : (s.recvMsg m).twinBit = s.twinBit := rfl
@[simp] theorem State.recvMsg_twinPeer (m : Msg) : (s.recvMsg m).twinPeer = s.twinPeer := rfl
@[simp] theorem State.recvMsg_twinSync (m : Msg) : (s.recvMsg m).twinSync = s.twinSync := rfl
@[simp] theorem State.recvMsg_rindWait (m : Msg) : (s.recvMsg m).rindWait = s.rindWait := rfl
@[simp] theorem State.recvMsg_drbg (m : Msg) : (s.recvMsg m).drbg = s.drbg := rfl
@[simp] theorem State.recvMsg_cfgDigest (m : Msg) : (s.recvMsg m).cfgDigest = s.cfgDigest := rfl
@[simp] theorem State.recvMsg_jtag (m : Msg) : (s.recvMsg m).jtag = s.jtag := rfl
@[simp] theorem State.recvMsg_jtagDr (m : Msg) : (s.recvMsg m).jtagDr = s.jtagDr := rfl
@[simp] theorem State.recvMsg_sbRsp (m : Msg) : (s.recvMsg m).sbRsp = s.sbRsp := rfl

/-! ### The units -/

@[simp] theorem State.put_pending (m : Msg) : (s.put m).pending = s.pending := rfl
@[simp] theorem State.put_regs (m : Msg) : (s.put m).regs = s.regs := rfl
@[simp] theorem State.put_mem (m : Msg) : (s.put m).mem = s.mem := rfl
@[simp] theorem State.put_free (m : Msg) : (s.put m).free = s.free := rfl
@[simp] theorem State.put_img (m : Msg) : (s.put m).img = s.img := rfl
@[simp] theorem State.put_cores (m : Msg) : (s.put m).cores = s.cores := rfl
@[simp] theorem State.put_mram (m : Msg) : (s.put m).mram = s.mram := rfl
@[simp] theorem State.put_sup (m : Msg) : (s.put m).sup = s.sup := rfl

@[simp] theorem State.setCred_pending (p n v x : Nat) : (s.setCred p n v x).pending = s.pending := rfl
@[simp] theorem State.setCred_regs (p n v x : Nat) : (s.setCred p n v x).regs = s.regs := rfl
@[simp] theorem State.setCred_mem (p n v x : Nat) : (s.setCred p n v x).mem = s.mem := rfl
@[simp] theorem State.setCred_free (p n v x : Nat) : (s.setCred p n v x).free = s.free := rfl
@[simp] theorem State.setCred_net (p n v x : Nat) : (s.setCred p n v x).net = s.net := rfl
@[simp] theorem State.setCred_img (p n v x : Nat) : (s.setCred p n v x).img = s.img := rfl
@[simp] theorem State.setCred_cores (p n v x : Nat) : (s.setCred p n v x).cores = s.cores := rfl
@[simp] theorem State.setCred_mram (p n v x : Nat) : (s.setCred p n v x).mram = s.mram := rfl
@[simp] theorem State.setCred_sup (p n v x : Nat) : (s.setCred p n v x).sup = s.sup := rfl

@[simp] theorem State.setSlot_pending (l i : Nat) (x : Option RedSlot) : (s.setSlot l i x).pending = s.pending := rfl
@[simp] theorem State.setSlot_regs (l i : Nat) (x : Option RedSlot) : (s.setSlot l i x).regs = s.regs := rfl
@[simp] theorem State.setSlot_mem (l i : Nat) (x : Option RedSlot) : (s.setSlot l i x).mem = s.mem := rfl
@[simp] theorem State.setSlot_free (l i : Nat) (x : Option RedSlot) : (s.setSlot l i x).free = s.free := rfl
@[simp] theorem State.setSlot_net (l i : Nat) (x : Option RedSlot) : (s.setSlot l i x).net = s.net := rfl
@[simp] theorem State.setSlot_img (l i : Nat) (x : Option RedSlot) : (s.setSlot l i x).img = s.img := rfl
@[simp] theorem State.setSlot_cores (l i : Nat) (x : Option RedSlot) : (s.setSlot l i x).cores = s.cores := rfl
@[simp] theorem State.setSlot_mram (l i : Nat) (x : Option RedSlot) : (s.setSlot l i x).mram = s.mram := rfl
@[simp] theorem State.setSlot_sup (l i : Nat) (x : Option RedSlot) : (s.setSlot l i x).sup = s.sup := rfl
/-- A unit reads as replaced. -/
theorem State.setSlot_same (l i : Nat) (x : Option RedSlot) (h : smSorted s.slots = true) : (s.setSlot l i x).slot l i = x := by
  simp only [State.slot, State.setSlot, smGet_smSet _ h, if_pos]

@[simp] theorem State.setChurn_pending (v : Nat) (x : ChurnSt) : (s.setChurn v x).pending = s.pending := rfl
@[simp] theorem State.setChurn_regs (v : Nat) (x : ChurnSt) : (s.setChurn v x).regs = s.regs := rfl
@[simp] theorem State.setChurn_mem (v : Nat) (x : ChurnSt) : (s.setChurn v x).mem = s.mem := rfl
@[simp] theorem State.setChurn_free (v : Nat) (x : ChurnSt) : (s.setChurn v x).free = s.free := rfl
@[simp] theorem State.setChurn_net (v : Nat) (x : ChurnSt) : (s.setChurn v x).net = s.net := rfl
@[simp] theorem State.setChurn_img (v : Nat) (x : ChurnSt) : (s.setChurn v x).img = s.img := rfl
@[simp] theorem State.setChurn_cores (v : Nat) (x : ChurnSt) : (s.setChurn v x).cores = s.cores := rfl
@[simp] theorem State.setChurn_mram (v : Nat) (x : ChurnSt) : (s.setChurn v x).mram = s.mram := rfl
@[simp] theorem State.setChurn_sup (v : Nat) (x : ChurnSt) : (s.setChurn v x).sup = s.sup := rfl
/-- A unit reads as replaced. -/
theorem State.setChurn_same (v : Nat) (x : ChurnSt) (h : smSorted s.churns = true) : (s.setChurn v x).churn v = x := by
  simp only [State.churn, State.setChurn, smGet_smSet _ h, if_pos]

@[simp] theorem State.setRedLane_pending (v e l : Nat) (x : RedLane) : (s.setRedLane v e l x).pending = s.pending := rfl
@[simp] theorem State.setRedLane_regs (v e l : Nat) (x : RedLane) : (s.setRedLane v e l x).regs = s.regs := rfl
@[simp] theorem State.setRedLane_mem (v e l : Nat) (x : RedLane) : (s.setRedLane v e l x).mem = s.mem := rfl
@[simp] theorem State.setRedLane_free (v e l : Nat) (x : RedLane) : (s.setRedLane v e l x).free = s.free := rfl
@[simp] theorem State.setRedLane_net (v e l : Nat) (x : RedLane) : (s.setRedLane v e l x).net = s.net := rfl
@[simp] theorem State.setRedLane_img (v e l : Nat) (x : RedLane) : (s.setRedLane v e l x).img = s.img := rfl
@[simp] theorem State.setRedLane_cores (v e l : Nat) (x : RedLane) : (s.setRedLane v e l x).cores = s.cores := rfl
@[simp] theorem State.setRedLane_mram (v e l : Nat) (x : RedLane) : (s.setRedLane v e l x).mram = s.mram := rfl
@[simp] theorem State.setRedLane_sup (v e l : Nat) (x : RedLane) : (s.setRedLane v e l x).sup = s.sup := rfl
/-- A unit reads as replaced. -/
theorem State.setRedLane_same (v e l : Nat) (x : RedLane) (h : smSorted s.redLanes = true) : (s.setRedLane v e l x).redLane v e l = x := by
  simp only [State.redLane, State.setRedLane, smGet_smSet _ h, if_pos]

@[simp] theorem State.setLadle_pending (v l : Nat) (x : LadleSt) : (s.setLadle v l x).pending = s.pending := rfl
@[simp] theorem State.setLadle_regs (v l : Nat) (x : LadleSt) : (s.setLadle v l x).regs = s.regs := rfl
@[simp] theorem State.setLadle_mem (v l : Nat) (x : LadleSt) : (s.setLadle v l x).mem = s.mem := rfl
@[simp] theorem State.setLadle_free (v l : Nat) (x : LadleSt) : (s.setLadle v l x).free = s.free := rfl
@[simp] theorem State.setLadle_net (v l : Nat) (x : LadleSt) : (s.setLadle v l x).net = s.net := rfl
@[simp] theorem State.setLadle_img (v l : Nat) (x : LadleSt) : (s.setLadle v l x).img = s.img := rfl
@[simp] theorem State.setLadle_cores (v l : Nat) (x : LadleSt) : (s.setLadle v l x).cores = s.cores := rfl
@[simp] theorem State.setLadle_mram (v l : Nat) (x : LadleSt) : (s.setLadle v l x).mram = s.mram := rfl
@[simp] theorem State.setLadle_sup (v l : Nat) (x : LadleSt) : (s.setLadle v l x).sup = s.sup := rfl
/-- A unit reads as replaced. -/
theorem State.setLadle_same (v l : Nat) (x : LadleSt) (h : smSorted s.ladles = true) : (s.setLadle v l x).ladle v l = x := by
  simp only [State.ladle, State.setLadle, smGet_smSet _ h, if_pos]

@[simp] theorem State.setSpec_pending (v : Nat) (x : SpecSt) : (s.setSpec v x).pending = s.pending := rfl
@[simp] theorem State.setSpec_regs (v : Nat) (x : SpecSt) : (s.setSpec v x).regs = s.regs := rfl
@[simp] theorem State.setSpec_mem (v : Nat) (x : SpecSt) : (s.setSpec v x).mem = s.mem := rfl
@[simp] theorem State.setSpec_free (v : Nat) (x : SpecSt) : (s.setSpec v x).free = s.free := rfl
@[simp] theorem State.setSpec_net (v : Nat) (x : SpecSt) : (s.setSpec v x).net = s.net := rfl
@[simp] theorem State.setSpec_img (v : Nat) (x : SpecSt) : (s.setSpec v x).img = s.img := rfl
@[simp] theorem State.setSpec_cores (v : Nat) (x : SpecSt) : (s.setSpec v x).cores = s.cores := rfl
@[simp] theorem State.setSpec_mram (v : Nat) (x : SpecSt) : (s.setSpec v x).mram = s.mram := rfl
@[simp] theorem State.setSpec_sup (v : Nat) (x : SpecSt) : (s.setSpec v x).sup = s.sup := rfl
/-- A unit reads as replaced. -/
theorem State.setSpec_same (v : Nat) (x : SpecSt) (h : smSorted s.specs = true) : (s.setSpec v x).spec v = x := by
  simp only [State.spec, State.setSpec, smGet_smSet _ h, if_pos]

@[simp] theorem State.setTaskSt_pending (v k : Nat) (x : TaskSt) : (s.setTaskSt v k x).pending = s.pending := rfl
@[simp] theorem State.setTaskSt_regs (v k : Nat) (x : TaskSt) : (s.setTaskSt v k x).regs = s.regs := rfl
@[simp] theorem State.setTaskSt_mem (v k : Nat) (x : TaskSt) : (s.setTaskSt v k x).mem = s.mem := rfl
@[simp] theorem State.setTaskSt_free (v k : Nat) (x : TaskSt) : (s.setTaskSt v k x).free = s.free := rfl
@[simp] theorem State.setTaskSt_net (v k : Nat) (x : TaskSt) : (s.setTaskSt v k x).net = s.net := rfl
@[simp] theorem State.setTaskSt_img (v k : Nat) (x : TaskSt) : (s.setTaskSt v k x).img = s.img := rfl
@[simp] theorem State.setTaskSt_cores (v k : Nat) (x : TaskSt) : (s.setTaskSt v k x).cores = s.cores := rfl
@[simp] theorem State.setTaskSt_mram (v k : Nat) (x : TaskSt) : (s.setTaskSt v k x).mram = s.mram := rfl
@[simp] theorem State.setTaskSt_sup (v k : Nat) (x : TaskSt) : (s.setTaskSt v k x).sup = s.sup := rfl

@[simp] theorem State.setPort_pending (p : Nat) (x : PortSt) : (s.setPort p x).pending = s.pending := rfl
@[simp] theorem State.setPort_regs (p : Nat) (x : PortSt) : (s.setPort p x).regs = s.regs := rfl
@[simp] theorem State.setPort_mem (p : Nat) (x : PortSt) : (s.setPort p x).mem = s.mem := rfl
@[simp] theorem State.setPort_free (p : Nat) (x : PortSt) : (s.setPort p x).free = s.free := rfl
@[simp] theorem State.setPort_net (p : Nat) (x : PortSt) : (s.setPort p x).net = s.net := rfl
@[simp] theorem State.setPort_img (p : Nat) (x : PortSt) : (s.setPort p x).img = s.img := rfl
@[simp] theorem State.setPort_cores (p : Nat) (x : PortSt) : (s.setPort p x).cores = s.cores := rfl
@[simp] theorem State.setPort_mram (p : Nat) (x : PortSt) : (s.setPort p x).mram = s.mram := rfl
@[simp] theorem State.setPort_sup (p : Nat) (x : PortSt) : (s.setPort p x).sup = s.sup := rfl
/-- A unit reads as replaced. -/
theorem State.setPort_same (p : Nat) (x : PortSt) (h : smSorted s.ports = true) : (s.setPort p x).port p = x := by
  simp only [State.port, State.setPort, smGet_smSet _ h, if_pos]

@[simp] theorem State.setLn_pending (p j : Nat) (x : LaneSt) : (s.setLn p j x).pending = s.pending := rfl
@[simp] theorem State.setLn_regs (p j : Nat) (x : LaneSt) : (s.setLn p j x).regs = s.regs := rfl
@[simp] theorem State.setLn_mem (p j : Nat) (x : LaneSt) : (s.setLn p j x).mem = s.mem := rfl
@[simp] theorem State.setLn_free (p j : Nat) (x : LaneSt) : (s.setLn p j x).free = s.free := rfl
@[simp] theorem State.setLn_net (p j : Nat) (x : LaneSt) : (s.setLn p j x).net = s.net := rfl
@[simp] theorem State.setLn_img (p j : Nat) (x : LaneSt) : (s.setLn p j x).img = s.img := rfl
@[simp] theorem State.setLn_cores (p j : Nat) (x : LaneSt) : (s.setLn p j x).cores = s.cores := rfl
@[simp] theorem State.setLn_mram (p j : Nat) (x : LaneSt) : (s.setLn p j x).mram = s.mram := rfl
@[simp] theorem State.setLn_sup (p j : Nat) (x : LaneSt) : (s.setLn p j x).sup = s.sup := rfl
/-- A unit reads as replaced. -/
theorem State.setLn_same (p j : Nat) (x : LaneSt) (h : smSorted s.lanes = true) : (s.setLn p j x).ln p j = x := by
  simp only [State.ln, State.setLn, smGet_smSet _ h, if_pos]

@[simp] theorem State.setLink_pending (g : Nat) (x : LinkSt) : (s.setLink g x).pending = s.pending := rfl
@[simp] theorem State.setLink_regs (g : Nat) (x : LinkSt) : (s.setLink g x).regs = s.regs := rfl
@[simp] theorem State.setLink_mem (g : Nat) (x : LinkSt) : (s.setLink g x).mem = s.mem := rfl
@[simp] theorem State.setLink_free (g : Nat) (x : LinkSt) : (s.setLink g x).free = s.free := rfl
@[simp] theorem State.setLink_net (g : Nat) (x : LinkSt) : (s.setLink g x).net = s.net := rfl
@[simp] theorem State.setLink_img (g : Nat) (x : LinkSt) : (s.setLink g x).img = s.img := rfl
@[simp] theorem State.setLink_cores (g : Nat) (x : LinkSt) : (s.setLink g x).cores = s.cores := rfl
@[simp] theorem State.setLink_mram (g : Nat) (x : LinkSt) : (s.setLink g x).mram = s.mram := rfl
@[simp] theorem State.setLink_sup (g : Nat) (x : LinkSt) : (s.setLink g x).sup = s.sup := rfl
/-- A unit reads as replaced. -/
theorem State.setLink_same (g : Nat) (x : LinkSt) (h : smSorted s.links = true) : (s.setLink g x).link g = x := by
  simp only [State.link, State.setLink, smGet_smSet _ h, if_pos]

@[simp] theorem State.setSite_pending (n : Nat) (x : SiteSt) : (s.setSite n x).pending = s.pending := rfl
@[simp] theorem State.setSite_regs (n : Nat) (x : SiteSt) : (s.setSite n x).regs = s.regs := rfl
@[simp] theorem State.setSite_mem (n : Nat) (x : SiteSt) : (s.setSite n x).mem = s.mem := rfl
@[simp] theorem State.setSite_free (n : Nat) (x : SiteSt) : (s.setSite n x).free = s.free := rfl
@[simp] theorem State.setSite_net (n : Nat) (x : SiteSt) : (s.setSite n x).net = s.net := rfl
@[simp] theorem State.setSite_img (n : Nat) (x : SiteSt) : (s.setSite n x).img = s.img := rfl
@[simp] theorem State.setSite_cores (n : Nat) (x : SiteSt) : (s.setSite n x).cores = s.cores := rfl
@[simp] theorem State.setSite_mram (n : Nat) (x : SiteSt) : (s.setSite n x).mram = s.mram := rfl
@[simp] theorem State.setSite_sup (n : Nat) (x : SiteSt) : (s.setSite n x).sup = s.sup := rfl
/-- A unit reads as replaced. -/
theorem State.setSite_same (n : Nat) (x : SiteSt) (h : smSorted s.sites = true) : (s.setSite n x).site n = x := by
  simp only [State.site, State.setSite, smGet_smSet _ h, if_pos]

@[simp] theorem State.setRing_pending (r : Nat) (x : RingSt) : (s.setRing r x).pending = s.pending := rfl
@[simp] theorem State.setRing_regs (r : Nat) (x : RingSt) : (s.setRing r x).regs = s.regs := rfl
@[simp] theorem State.setRing_mem (r : Nat) (x : RingSt) : (s.setRing r x).mem = s.mem := rfl
@[simp] theorem State.setRing_free (r : Nat) (x : RingSt) : (s.setRing r x).free = s.free := rfl
@[simp] theorem State.setRing_net (r : Nat) (x : RingSt) : (s.setRing r x).net = s.net := rfl
@[simp] theorem State.setRing_img (r : Nat) (x : RingSt) : (s.setRing r x).img = s.img := rfl
@[simp] theorem State.setRing_cores (r : Nat) (x : RingSt) : (s.setRing r x).cores = s.cores := rfl
@[simp] theorem State.setRing_mram (r : Nat) (x : RingSt) : (s.setRing r x).mram = s.mram := rfl
@[simp] theorem State.setRing_sup (r : Nat) (x : RingSt) : (s.setRing r x).sup = s.sup := rfl
/-- A unit reads as replaced. -/
theorem State.setRing_same (r : Nat) (x : RingSt) (h : smSorted s.rings = true) : (s.setRing r x).ring r = x := by
  simp only [State.ring, State.setRing, smGet_smSet _ h, if_pos]

@[simp] theorem State.setVector_pending (v : Nat) (x : Msix) : (s.setVector v x).pending = s.pending := rfl
@[simp] theorem State.setVector_regs (v : Nat) (x : Msix) : (s.setVector v x).regs = s.regs := rfl
@[simp] theorem State.setVector_mem (v : Nat) (x : Msix) : (s.setVector v x).mem = s.mem := rfl
@[simp] theorem State.setVector_free (v : Nat) (x : Msix) : (s.setVector v x).free = s.free := rfl
@[simp] theorem State.setVector_net (v : Nat) (x : Msix) : (s.setVector v x).net = s.net := rfl
@[simp] theorem State.setVector_img (v : Nat) (x : Msix) : (s.setVector v x).img = s.img := rfl
@[simp] theorem State.setVector_cores (v : Nat) (x : Msix) : (s.setVector v x).cores = s.cores := rfl
@[simp] theorem State.setVector_mram (v : Nat) (x : Msix) : (s.setVector v x).mram = s.mram := rfl
@[simp] theorem State.setVector_sup (v : Nat) (x : Msix) : (s.setVector v x).sup = s.sup := rfl
/-- A unit reads as replaced. -/
theorem State.setVector_same (v : Nat) (x : Msix) (h : smSorted s.msix = true) : (s.setVector v x).vector v = x := by
  simp only [State.vector, State.setVector, smGet_smSet _ h, if_pos]

@[simp] theorem State.setCel_pending (p : Nat) (x : CelSt) : (s.setCel p x).pending = s.pending := rfl
@[simp] theorem State.setCel_regs (p : Nat) (x : CelSt) : (s.setCel p x).regs = s.regs := rfl
@[simp] theorem State.setCel_mem (p : Nat) (x : CelSt) : (s.setCel p x).mem = s.mem := rfl
@[simp] theorem State.setCel_free (p : Nat) (x : CelSt) : (s.setCel p x).free = s.free := rfl
@[simp] theorem State.setCel_net (p : Nat) (x : CelSt) : (s.setCel p x).net = s.net := rfl
@[simp] theorem State.setCel_img (p : Nat) (x : CelSt) : (s.setCel p x).img = s.img := rfl
@[simp] theorem State.setCel_cores (p : Nat) (x : CelSt) : (s.setCel p x).cores = s.cores := rfl
@[simp] theorem State.setCel_mram (p : Nat) (x : CelSt) : (s.setCel p x).mram = s.mram := rfl
@[simp] theorem State.setCel_sup (p : Nat) (x : CelSt) : (s.setCel p x).sup = s.sup := rfl
/-- A unit reads as replaced. -/
theorem State.setCel_same (p : Nat) (x : CelSt) (h : smSorted s.cels = true) : (s.setCel p x).cel p = x := by
  simp only [State.cel, State.setCel, smGet_smSet _ h, if_pos]

@[simp] theorem State.setDicTgt_pending (t : Nat) (b : Bool) (x : DicTgt) : (s.setDicTgt t b x).pending = s.pending := rfl
@[simp] theorem State.setDicTgt_regs (t : Nat) (b : Bool) (x : DicTgt) : (s.setDicTgt t b x).regs = s.regs := rfl
@[simp] theorem State.setDicTgt_mem (t : Nat) (b : Bool) (x : DicTgt) : (s.setDicTgt t b x).mem = s.mem := rfl
@[simp] theorem State.setDicTgt_free (t : Nat) (b : Bool) (x : DicTgt) : (s.setDicTgt t b x).free = s.free := rfl
@[simp] theorem State.setDicTgt_net (t : Nat) (b : Bool) (x : DicTgt) : (s.setDicTgt t b x).net = s.net := rfl
@[simp] theorem State.setDicTgt_img (t : Nat) (b : Bool) (x : DicTgt) : (s.setDicTgt t b x).img = s.img := rfl
@[simp] theorem State.setDicTgt_cores (t : Nat) (b : Bool) (x : DicTgt) : (s.setDicTgt t b x).cores = s.cores := rfl
@[simp] theorem State.setDicTgt_mram (t : Nat) (b : Bool) (x : DicTgt) : (s.setDicTgt t b x).mram = s.mram := rfl
@[simp] theorem State.setDicTgt_sup (t : Nat) (b : Bool) (x : DicTgt) : (s.setDicTgt t b x).sup = s.sup := rfl
/-- A unit reads as replaced. -/
theorem State.setDicTgt_same (t : Nat) (b : Bool) (x : DicTgt) (h : smSorted s.dic = true) : (s.setDicTgt t b x).dicTgt t b = x := by
  simp only [State.dicTgt, State.setDicTgt, smGet_smSet _ h, if_pos]

@[simp] theorem State.setVatPow_pending (v : Nat) (x : VatPow) : (s.setVatPow v x).pending = s.pending := rfl
@[simp] theorem State.setVatPow_regs (v : Nat) (x : VatPow) : (s.setVatPow v x).regs = s.regs := rfl
@[simp] theorem State.setVatPow_mem (v : Nat) (x : VatPow) : (s.setVatPow v x).mem = s.mem := rfl
@[simp] theorem State.setVatPow_free (v : Nat) (x : VatPow) : (s.setVatPow v x).free = s.free := rfl
@[simp] theorem State.setVatPow_net (v : Nat) (x : VatPow) : (s.setVatPow v x).net = s.net := rfl
@[simp] theorem State.setVatPow_img (v : Nat) (x : VatPow) : (s.setVatPow v x).img = s.img := rfl
@[simp] theorem State.setVatPow_cores (v : Nat) (x : VatPow) : (s.setVatPow v x).cores = s.cores := rfl
@[simp] theorem State.setVatPow_mram (v : Nat) (x : VatPow) : (s.setVatPow v x).mram = s.mram := rfl
@[simp] theorem State.setVatPow_sup (v : Nat) (x : VatPow) : (s.setVatPow v x).sup = s.sup := rfl
/-- A unit reads as replaced. -/
theorem State.setVatPow_same (v : Nat) (x : VatPow) (h : smSorted s.pow = true) : (s.setVatPow v x).vatPow v = x := by
  simp only [State.vatPow, State.setVatPow, smGet_smSet _ h, if_pos]

@[simp] theorem State.setTwinEnt_pending (i : Nat) (x : Option TwinEnt) : (s.setTwinEnt i x).pending = s.pending := rfl
@[simp] theorem State.setTwinEnt_regs (i : Nat) (x : Option TwinEnt) : (s.setTwinEnt i x).regs = s.regs := rfl
@[simp] theorem State.setTwinEnt_mem (i : Nat) (x : Option TwinEnt) : (s.setTwinEnt i x).mem = s.mem := rfl
@[simp] theorem State.setTwinEnt_free (i : Nat) (x : Option TwinEnt) : (s.setTwinEnt i x).free = s.free := rfl
@[simp] theorem State.setTwinEnt_net (i : Nat) (x : Option TwinEnt) : (s.setTwinEnt i x).net = s.net := rfl
@[simp] theorem State.setTwinEnt_img (i : Nat) (x : Option TwinEnt) : (s.setTwinEnt i x).img = s.img := rfl
@[simp] theorem State.setTwinEnt_cores (i : Nat) (x : Option TwinEnt) : (s.setTwinEnt i x).cores = s.cores := rfl
@[simp] theorem State.setTwinEnt_mram (i : Nat) (x : Option TwinEnt) : (s.setTwinEnt i x).mram = s.mram := rfl
@[simp] theorem State.setTwinEnt_sup (i : Nat) (x : Option TwinEnt) : (s.setTwinEnt i x).sup = s.sup := rfl
/-- A unit reads as replaced. -/
theorem State.setTwinEnt_same (i : Nat) (x : Option TwinEnt) (h : smSorted s.twinRing = true) : (s.setTwinEnt i x).twinEnt i = x := by
  simp only [State.twinEnt, State.setTwinEnt, smGet_smSet _ h, if_pos]

@[simp] theorem State.setStream_pending (v n : Nat) (x : Stream) : (s.setStream v n x).pending = s.pending := rfl
@[simp] theorem State.setStream_regs (v n : Nat) (x : Stream) : (s.setStream v n x).regs = s.regs := rfl
@[simp] theorem State.setStream_mem (v n : Nat) (x : Stream) : (s.setStream v n x).mem = s.mem := rfl
@[simp] theorem State.setStream_free (v n : Nat) (x : Stream) : (s.setStream v n x).free = s.free := rfl
@[simp] theorem State.setStream_net (v n : Nat) (x : Stream) : (s.setStream v n x).net = s.net := rfl
@[simp] theorem State.setStream_img (v n : Nat) (x : Stream) : (s.setStream v n x).img = s.img := rfl
@[simp] theorem State.setStream_cores (v n : Nat) (x : Stream) : (s.setStream v n x).cores = s.cores := rfl
@[simp] theorem State.setStream_mram (v n : Nat) (x : Stream) : (s.setStream v n x).mram = s.mram := rfl
@[simp] theorem State.setStream_sup (v n : Nat) (x : Stream) : (s.setStream v n x).sup = s.sup := rfl
/-- A unit reads as replaced. -/
theorem State.setStream_same (v n : Nat) (x : Stream) (h : smSorted s.streams = true) : (s.setStream v n x).stream v n = x := by
  simp only [State.stream, State.setStream, smGet_smSet _ h, if_pos]

/-! ### Cores -/

/-- A core reads as replaced, another as before. -/
theorem State.core_setCore (h : smSorted s.cores = true) (c d : Nat) (x : CoreSt) : (s.setCore c x).core d = if d = c then x else s.core d := by
  simp only [State.core, State.setCore, smGet_smSet _ h]

theorem State.core_updCore (h : smSorted s.cores = true) (c d : Nat) (f : CoreSt → CoreSt) : (s.updCore c f).core d = if d = c then f (s.core c) else s.core d :=
  s.core_setCore h c d _

/-- A change of a core keeps the canonical form of the cores. -/
theorem State.cores_wf_setCore (h : smWf {} s.cores = true) (c : Nat) (x : CoreSt) : smWf {} (s.setCore c x).cores = true := smWf_smSet h _ _

/-- Replacing a core's state keeps every map in canonical form. -/
theorem State.canon_setCore (h : s.canon = true) (c : Nat) (x : CoreSt) : (s.setCore c x).canon = true := by
  simp only [State.canon, Bool.and_eq_true] at h ⊢
  exact ⟨⟨h.1.1, h.1.2⟩, s.cores_wf_setCore h.2 c x⟩

/-- Setting a register keeps every map in canonical form. -/
theorem State.canon_setReg (h : s.canon = true) (r : Reg) (x : Dword) (i j k : Nat) : (s.setReg r x i j k).canon = true := by
  simp only [State.canon, Bool.and_eq_true] at h ⊢
  exact ⟨⟨h.1.1, State.regs_wf_setReg h.1.2 r x i j k⟩, h.2⟩

/-- Setting a field keeps every map in canonical form. -/
theorem State.canon_setFld (h : s.canon = true) (f : Fld) (x i j k : Nat) : (s.setFld f x i j k).canon = true :=
  s.canon_setReg h _ _ _ _ _

/-- Reset memory is in canonical form. -/
theorem reset_mem_wf : Memory.wf State.reset.mem = true := rfl

end Sys2Proof.Machine
end

