-- ==== Sys2Proof/Tests/Slice0.lean ====
section
/-! SUPPORT. Tests of the model. For every statement with hypotheses, one theorem (witness_<its name>) shows a state and
operands that meet them, clause by clause; then small checks of single steps, of words, and of terms that are no commands.
The states are built from `State.reset` by the helpers between the theorems. -/

set_option Elab.async false
set_option exponentiation.threshold 1024
set_option maxRecDepth 4096
set_option linter.unusedVariables false

namespace Sys2Proof.Tests

open Sys2Proof Sys2Proof.Machine

/-- Vats 0 and 1 are powered and belong to partition 0; the first page of vat 0 is the first page of the cellar; slot 0 of
vat 0's destination table leads to a core of it. -/
def live : State :=
  let s : State := { State.reset with
    img := { configured := true, parts := [(0, { vatMask := 3 })] }
    tlb := [(0, { vpage := 0, big := false, ga := 0x800000000, w := true, tgt := 0, ref := false })] }
  ((s.setFld PWR_DOM_STAT.STATE 2 0).setFld PWR_DOM_STAT.STATE 2 1).setFld VAT_NET_DTAB.VALID 1 0 0

/-- Core 0 of vat 0 runs the task of slot 0 and is about to execute the word `w`; `f` sets what else it holds. -/
def ready (w : Word) (f : CoreSt → CoreSt := id) : State :=
  ((live.setFld VAT_TASK_CTL.STATE 3 0 0).setReg VAT_CORE_STAT 0 0 0).updCore 0
    (fun x => f { x with task := some 0, fbuf := [(w, false)] })

theorem ready_other (w : Word) (f : CoreSt → CoreSt) (d : Nat) (h : d ≠ 0) : ((ready w f).core d).task = none := by
  show (smGet ({} : CoreSt) (smSet {} [] 0 _) d).task = none
  rw [smGet_smSet _ (by rfl)]
  simp [h, smGet]

/-- A unit of the crock and a unit of cellar position 0 belong to partition 0, and the slices of vats 0 and 1 are usable. -/
def mems : State :=
  let s := { live with
    img := { live.img with
      crock := [{ base := 0, size := 1, part := 0, imode := 1, vat := 0, keep := false, kv := false, shared := false, crock := 0 }]
      cellar := [{ pos := 0, part := 0, keep := false, encrypt := false, shared := false, base := 0, size := 1 }] } }
  (s.setFld VAT_CRM_CFG.USABLE 1 0).setFld VAT_CRM_CFG.USABLE 1 1

/-- States and operands that meet the hypotheses of `StepRunsFront`. -/
theorem witness_StepRunsFront :
   ∃ (c : Instr) (cs : List Instr) (s : State), s.pending = c :: cs :=
  ⟨.xltResume 0, [], { State.reset with pending := [.xltResume 0] }, by decide +kernel⟩

/-- States and operands that meet the hypotheses of `EveryStepAnswers`, clause by clause. -/
theorem witness_EveryStepAnswers :
    (∃ (s : State), s.pending = [] ∧ s.sup.aux = false)
    ∧ (∃ (s : State), s.pending = [] ∧ s.canon = true ∧ s.sup.aux = true ∧ s.sup.refLost = false) :=
  ⟨⟨State.reset, by decide +kernel, by decide +kernel⟩,
   ⟨{ State.reset with sup := { State.reset.sup with aux := true } }, by decide +kernel, by decide +kernel,
    by decide +kernel, by decide +kernel⟩⟩

/-- States and operands that meet the hypotheses of `CoreWordsDecode`. -/
theorem witness_CoreWordsDecode :
   ∃ (i : Instr) (c : CoreId) (w : Word), coreWord i = some (c, w) ∧ plainInsn i = true :=
  ⟨.addi 0 ⟨1, 2, 3⟩, 0, encI 0x02 ⟨1, 2, 3⟩, by decide +kernel, by decide +kernel⟩

/-- States and operands that meet the hypotheses of `CoreWordsEncode`. -/
theorem witness_CoreWordsEncode :
   ∃ (c : CoreId) (w : Word), coreDecode c w ≠ .undefinedOpcode c w :=
  ⟨0, encI 0x02 ⟨1, 2, 3⟩, by decide +kernel⟩

/-- States and operands that meet the hypotheses of `IdleCoreExecutesNothing`. -/
theorem witness_IdleCoreExecutesNothing :
   ∃ (i : Instr) (c : CoreId) (w : Word) (s : State), coreWord i = some (c, w) ∧ (s.fatal = true ∨ (s.core c).task = none ∨
      s.canIssue c = false ∨ (s.core c).fbuf.head?.map Prod.fst ≠ some w) :=
  ⟨.addi 0 ⟨1, 2, 3⟩, 0, encI 0x02 ⟨1, 2, 3⟩, State.reset, by decide +kernel, by decide +kernel⟩

/-- States and operands that meet the hypotheses of `ScalarFrame`. -/
theorem witness_ScalarFrame :
   ∃ (i : Instr) (c : CoreId) (d : BitVec 5) (s t : State), scalarDest i = some (c, d) ∧ s.canon = true ∧ exec i s = .next t :=
  ⟨.addi 0 ⟨1, 2, 3⟩, 0, 1, ready (encI 0x02 ⟨1, 2, 3⟩), _, by decide +kernel, by decide +kernel, rfl⟩

/-- States and operands that meet the hypotheses of `StoreThenLoad`. -/
theorem witness_StoreThenLoad :
   ∃ (c : CoreId) (a : SArg) (b : IArg) (x : Nat) (s : State), Ready s c (encS 0x09 a) ∧ s.canon = true ∧ x = localAddr
      (s.core c) a.rs1 a.imm ∧ x ≤ 0xFFFF ∧ x % 4 = 0 ∧ s.sbFull c = false :=
  ⟨0, ⟨3, 0, 0x7FFC⟩, ⟨4, 0, 0x7FFC⟩, 0x7FFC, ready (encS 0x09 ⟨3, 0, 0x7FFC⟩), by unfold Ready; decide +kernel,
    by decide +kernel, by decide +kernel, by decide +kernel, by decide +kernel, by decide +kernel⟩

/-- States and operands that meet the hypotheses of `TrapDelivery`. -/
theorem witness_TrapDelivery :
   ∃ (c : CoreId) (r : Trap) (w : Word) (s t : State), s.canon = true ∧ (∀ k, (s.core c).task = some k → k < 256) ∧ (∀ d, d
      ≠ c.val → (s.core d).task ≠ none → vatOf d = vatOf c → (s.core d).task ≠ (s.core c).task) ∧ t = s.takeTrap c r w :=
  ⟨0, { cause := 1 }, 0, ready 0, _, by decide +kernel, by decide +kernel, fun d hd ht => absurd (ready_other 0 id d hd) ht,
    rfl⟩

/-- States and operands that meet the hypotheses of `CoreStepsKeepForm`. -/
theorem witness_CoreStepsKeepForm :
   ∃ (c : CoreId) (w : Word) (i : Instr) (cs : List Instr) (s t : State), coreWord i = some (c, w) ∧ s.pending = i :: cs ∧
      s.canon = true ∧ step s = .next t :=
  ⟨0, encI 0x02 ⟨1, 2, 3⟩, .addi 0 ⟨1, 2, 3⟩, [], { ready (encI 0x02 ⟨1, 2, 3⟩) with pending := [.addi 0 ⟨1, 2, 3⟩] }, _,
    by decide +kernel, by decide +kernel, by decide +kernel, rfl⟩

/-- States and operands that meet the hypotheses of `ScalarArithmetic`, clause by clause. -/
theorem witness_ScalarArithmetic :
    (∃ (c : CoreId) (r : RArg) (fn : BitVec 6) (s : State) (v : Word), Ready s c (encR 0x01 r fn) ∧ r.fx = 0 ∧ aluOp
      fn.toNat ((s.core c).s r.rs1) ((s.core c).s r.rs2) = some v)
    ∧ (∃ (c : CoreId) (a : IArg) (s : State), Ready s c (encI 0x02 a))
    ∧ (∃ (c : CoreId) (a : IArg) (s : State), Ready s c (encI 0x03 a))
    ∧ (∃ (c : CoreId) (a : IArg) (s : State), Ready s c (encI 0x04 a))
    ∧ (∃ (c : CoreId) (a : IArg) (s : State), Ready s c (encI 0x05 a) ∧ bvBits a.imm 5 2 ≠ 3 ∧ bvBits a.imm 7 9 = 0)
    ∧ (∃ (c : CoreId) (a : IArg) (s : State), Ready s c (encI 0x06 a) ∧ a.rs1 = 0)
    ∧ (∃ (c : CoreId) (r : RArg) (fn : BitVec 6) (s : State), Ready s c (encR 0x07 r fn) ∧ r.fx = 0 ∧ fn.toNat ≤ 3)
    ∧ (∃ (c : CoreId) (rd : BitVec 5) (q : Word) (s : State), (s.core c).div = some (rd, q)) :=
  ⟨⟨0, ⟨1, 2, 3, 0⟩, 0, ready (encR 0x01 ⟨1, 2, 3, 0⟩ 0), 0, by unfold Ready; decide +kernel, by decide +kernel,
    by decide +kernel⟩,
   ⟨0, ⟨1, 2, 0xFFFF⟩, ready (encI 0x02 ⟨1, 2, 0xFFFF⟩), by unfold Ready; decide +kernel⟩,
   ⟨0, ⟨1, 2, 0xFFFF⟩, ready (encI 0x03 ⟨1, 2, 0xFFFF⟩), by unfold Ready; decide +kernel⟩,
   ⟨0, ⟨0, 2, 0xFFFF⟩, ready (encI 0x04 ⟨0, 2, 0xFFFF⟩), by unfold Ready; decide +kernel⟩,
   ⟨0, ⟨1, 2, 0x5F⟩, ready (encI 0x05 ⟨1, 2, 0x5F⟩), by unfold Ready; decide +kernel, by decide +kernel, by decide +kernel⟩,
   ⟨0, ⟨1, 0, 0xFFFF⟩, ready (encI 0x06 ⟨1, 0, 0xFFFF⟩), by unfold Ready; decide +kernel, by decide +kernel⟩,
   ⟨0, ⟨1, 2, 3, 0⟩, 3, ready (encR 0x07 ⟨1, 2, 3, 0⟩ 3), by unfold Ready; decide +kernel, by decide +kernel,
    by decide +kernel⟩,
   ⟨0, 1, 5, ready 0 (fun x => { x with div := some (1, 5) }), by decide +kernel⟩⟩

/-- States and operands that meet the hypotheses of `LocalMemory`, clause by clause. -/
theorem witness_LocalMemory :
    (∃ (c : CoreId) (a : IArg) (s : State) (d : Nat), Ready s c (encI 0x08 a) ∧ localAddr (s.core c) a.rs1 a.imm ≤ 0xFFFF ∧
      localAddr (s.core c) a.rs1 a.imm % 4 = 0 ∧ localLoad s c (localAddr (s.core c) a.rs1 a.imm) 4 = some d ∧ s.injBits c 0
      = 0)
    ∧ (∃ (c : CoreId) (a : SArg) (s : State), Ready s c (encS 0x09 a) ∧ localAddr (s.core c) a.rs1 a.imm ≤ 0xFFFF ∧
      localAddr (s.core c) a.rs1 a.imm % 4 = 0 ∧ (s.core c).sb.length < 8)
    ∧ (∃ (c : CoreId) (r : RArg) (half : Bool) (s : State) (d : Nat), Ready s c (encR 0x0A r (if half then 0x10 else 0x00))
      ∧ r.fx = 0 ∧ r.rs2 = 0 ∧ ((s.core c).s r.rs1).toNat ≤ 0xFFFF ∧ ((s.core c).s r.rs1).toNat % (if half then 2 else 1) =
      0 ∧ localLoad s c ((s.core c).s r.rs1).toNat (if half then 2 else 1) = some d ∧ s.injBits c 0 = 0)
    ∧ (∃ (c : CoreId) (r : RArg) (half : Bool) (s : State) (d : Nat), Ready s c (encR 0x0A r (if half then 0x14 else 0x04))
      ∧ r.fx = 0 ∧ r.rs2 = 0 ∧ ((s.core c).s r.rs1).toNat ≤ 0xFFFF ∧ ((s.core c).s r.rs1).toNat % (if half then 2 else 1) =
      0 ∧ localLoad s c ((s.core c).s r.rs1).toNat (if half then 2 else 1) = some d ∧ s.injBits c 0 = 0)
    ∧ (∃ (c : CoreId) (r : RArg) (half : Bool) (s : State), Ready s c (encR 0x0A r (if half then 0x18 else 0x08)) ∧ r.fx = 0
      ∧ r.rd = 0 ∧ ((s.core c).s r.rs1).toNat ≤ 0xFFFF ∧ ((s.core c).s r.rs1).toNat % (if half then 2 else 1) = 0 ∧ (s.core
      c).sb.length < 8)
    ∧ (∃ (c : CoreId) (vr : BitVec 4) (a : VMArg) (s : State), Ready s c (encVM 0x10 vr a) ∧ vmRes a true = false ∧
      localAddr (s.core c) a.rs1 a.imm ≤ 0xFFFF ∧ localAddr (s.core c) a.rs1 a.imm % 64 = 0 ∧ (∀ m ∈ s.members c, localLoad
      s m (localAddr (s.core c) a.rs1 a.imm) 64 ≠ none ∧ s.injBits m 0 = 0))
    ∧ (∃ (c : CoreId) (vr : BitVec 4) (a : VMArg) (s : State), Ready s c (encVM 0x11 vr a) ∧ vmRes a true = false ∧
      localAddr (s.core c) a.rs1 a.imm ≤ 0xFFFF ∧ localAddr (s.core c) a.rs1 a.imm % 64 = 0 ∧ (∀ m ∈ s.members c, (s.core
      m).sb.length < 8))
    ∧ (∃ (c : CoreId) (e : SbEntry) (es : List SbEntry) (s : State), (s.core c).sb = e :: es ∧ e.far = false) :=
  ⟨⟨0, ⟨1, 0, 0x7FFC⟩, ready (encI 0x08 ⟨1, 0, 0x7FFC⟩), 0, by unfold Ready; decide +kernel, by decide +kernel,
    by decide +kernel, by decide +kernel, by decide +kernel⟩,
   ⟨0, ⟨1, 0, 0x7FFC⟩, ready (encS 0x09 ⟨1, 0, 0x7FFC⟩), by unfold Ready; decide +kernel, by decide +kernel,
    by decide +kernel, by decide +kernel⟩,
   ⟨0, ⟨1, 2, 0, 0⟩, true, ready (encR 0x0A ⟨1, 2, 0, 0⟩ 0x10) (fun x => { x with sreg := [(2, 0xFFFE)] }), 0,
    by unfold Ready; decide +kernel, by decide +kernel, by decide +kernel, by decide +kernel, by decide +kernel,
    by decide +kernel, by decide +kernel⟩,
   ⟨0, ⟨1, 2, 0, 0⟩, false, ready (encR 0x0A ⟨1, 2, 0, 0⟩ 0x04) (fun x => { x with sreg := [(2, 0xFFFF)] }), 0,
    by unfold Ready; decide +kernel, by decide +kernel, by decide +kernel, by decide +kernel, by decide +kernel,
    by decide +kernel, by decide +kernel⟩,
   ⟨0, ⟨0, 2, 3, 0⟩, true, ready (encR 0x0A ⟨0, 2, 3, 0⟩ 0x18) (fun x => { x with sreg := [(2, 0xFFFE)] }),
    by unfold Ready; decide +kernel, by decide +kernel, by decide +kernel, by decide +kernel, by decide +kernel,
    by decide +kernel⟩,
   ⟨0, 15, ⟨0, 1, 0⟩, ready (encVM 0x10 15 ⟨0, 1, 0⟩) (fun x => { x with sreg := [(1, 0xFFC0)] }),
    by unfold Ready; decide +kernel, by decide +kernel, by decide +kernel, by decide +kernel, by decide +kernel⟩,
   ⟨0, 15, ⟨0, 1, 0⟩, ready (encVM 0x11 15 ⟨0, 1, 0⟩) (fun x => { x with sreg := [(1, 0xFFC0)] }),
    by unfold Ready; decide +kernel, by decide +kernel, by decide +kernel, by decide +kernel, by decide +kernel⟩,
   ⟨0, { far := false, line := 1, mask := 1, data := 5 }, [],
    ready 0 (fun x => { x with sb := [{ far := false, line := 1, mask := 1, data := 5 }] }), by decide +kernel,
    by decide +kernel⟩⟩

/-- States and operands that meet the hypotheses of `ControlFlow`, clause by clause. -/
theorem witness_ControlFlow :
    (∃ (c : CoreId) (op : BrOp) (r1 r2 : BitVec 5) (off : BitVec 16) (s : State), Ready s c (encB (brCode op) r1 r2 off))
    ∧ (∃ (c : CoreId) (off : BitVec 26) (s : State), Ready s c (encJ 0x1E off))
    ∧ (∃ (c : CoreId) (a : IArg) (s : State), Ready s c (encI 0x1F a) ∧ localAddr (s.core c) a.rs1 a.imm % 4 = 0 ∧ localAddr
      (s.core c) a.rs1 a.imm ≤ 0xFFFF)
    ∧ (∃ (c : CoreId) (r : RArg) (s : State), Ready s c (encR 0x36 r 0) ∧ resR r = false ∧ (s.core c).sb = [])
    ∧ (∃ (c : CoreId) (r : RArg) (s : State), Ready s c (encR 0x36 r 7) ∧ resR r = false ∧ (s.core c).inHandler = true)
    ∧ (∃ (c : CoreId) (r : RArg) (s : State), Ready s c (encR 0x36 r 4) ∧ r.rd = 0 ∧ r.rs1 = 0 ∧ r.rs2 = 0)
    ∧ (∃ (c : CoreId) (w : Word) (sub : Nat) (s : State), Ready s c w ∧ undefWord w = some sub) :=
  ⟨⟨0, .bltu, 1, 2, 0xFFFC, ready (encB (brCode .bltu) 1 2 0xFFFC), by unfold Ready; decide +kernel⟩,
   ⟨0, 0x3FFFFFC, ready (encJ 0x1E 0x3FFFFFC), by unfold Ready; decide +kernel⟩,
   ⟨0, ⟨1, 2, 0⟩, ready (encI 0x1F ⟨1, 2, 0⟩) (fun x => { x with sreg := [(2, 0xFFFC)] }), by unfold Ready; decide +kernel,
    by decide +kernel, by decide +kernel⟩,
   ⟨0, ⟨0, 0, 0, 0⟩, ready (encR 0x36 ⟨0, 0, 0, 0⟩ 0), by unfold Ready; decide +kernel, by decide +kernel,
    by decide +kernel⟩,
   ⟨0, ⟨0, 0, 0, 0⟩, ready (encR 0x36 ⟨0, 0, 0, 0⟩ 7) (fun x => { x with inHandler := true }),
    by unfold Ready; decide +kernel, by decide +kernel, by decide +kernel⟩,
   ⟨0, ⟨0, 0, 0, 31⟩, ready (encR 0x36 ⟨0, 0, 0, 31⟩ 4), by unfold Ready; decide +kernel, by decide +kernel,
    by decide +kernel, by decide +kernel⟩,
   ⟨0, 0xFC000000, 0, ready 0xFC000000, by unfold Ready; decide +kernel, by decide +kernel⟩⟩

/-- States and operands that meet the hypotheses of `SystemOperations`, clause by clause. -/
theorem witness_SystemOperations :
    (∃ (c : CoreId) (a : IArg) (s : State) (old : Word), Ready s c (encI 0x35 a) ∧ bvBits a.imm 12 2 = 0 ∧ bvBits a.imm 14 2
      = 3 ∧ a.rs1 = 0 ∧ csrRead c (s.core c) (bvBits a.imm 0 12) = some old)
    ∧ (∃ (c : CoreId) (a : IArg) (s : State) (old : Word), Ready s c (encI 0x35 a) ∧ bvBits a.imm 12 2 = 0 ∧ bvBits a.imm 14
      2 ≠ 3 ∧ csrRead c (s.core c) (bvBits a.imm 0 12) = some old ∧ csrRo (bvBits a.imm 0 12) = false ∧ csrOk (bvBits a.imm
      0 12) (csrNew (bvBits a.imm 14 2) old ((s.core c).s a.rs1)) = true)
    ∧ (∃ (c : CoreId) (r : RArg) (s : State), Ready s c (encR 0x36 r 1) ∧ resR r = false)
    ∧ (∃ (c : CoreId) (r : RArg) (s : State), Ready s c (encR 0x36 r 2) ∧ resR r = false)
    ∧ (∃ (c : CoreId) (r : RArg) (s : State), Ready s c (encR 0x36 r 3) ∧ resR r = false ∧ s.aborting c = false)
    ∧ (∃ (c : CoreId) (r : RArg) (lag : Fin 5) (s : State), Ready s c (encR 0x36 r 5) ∧ r.rs1 = 0 ∧ r.rs2 = 0 ∧ r.fx = 0 ∧
      oddReg r.rd = false) :=
  ⟨⟨0, ⟨1, 0, 0xC021⟩, ready (encI 0x35 ⟨1, 0, 0xC021⟩), 0, by unfold Ready; decide +kernel, by decide +kernel,
    by decide +kernel, by decide +kernel, by decide +kernel⟩,
   ⟨0, ⟨1, 2, 0x0001⟩, ready (encI 0x35 ⟨1, 2, 0x0001⟩), 0, by unfold Ready; decide +kernel, by decide +kernel,
    by decide +kernel, by decide +kernel, by decide +kernel, by decide +kernel⟩,
   ⟨0, ⟨0, 0, 0, 0⟩, ready (encR 0x36 ⟨0, 0, 0, 0⟩ 1), by unfold Ready; decide +kernel, by decide +kernel⟩,
   ⟨0, ⟨0, 0, 0, 0⟩, ready (encR 0x36 ⟨0, 0, 0, 0⟩ 2), by unfold Ready; decide +kernel, by decide +kernel⟩,
   ⟨0, ⟨0, 0, 0, 0⟩, ready (encR 0x36 ⟨0, 0, 0, 0⟩ 3), by unfold Ready; decide +kernel, by decide +kernel,
    by decide +kernel⟩,
   ⟨0, ⟨30, 0, 0, 0⟩, 4, ready (encR 0x36 ⟨30, 0, 0, 0⟩ 5), by unfold Ready; decide +kernel, by decide +kernel,
    by decide +kernel, by decide +kernel, by decide +kernel⟩⟩

/-- States and operands that meet the hypotheses of `LaneWise`, clause by clause. -/
theorem witness_LaneWise :
    (∃ (c : CoreId) (v : VArg) (s : State), Ready s c (encV 0x20 v) ∧ lowFn v ≤ 10 ∧ v.fn.getLsbD 6 = false ∧ v.fmt.toNat ≤
      2)
    ∧ (∃ (c : CoreId) (v : VArg) (s : State), Ready s c (encV 0x21 v) ∧ lowFn v ≤ 5 ∧ v.fn.getLsbD 6 = false ∧ 2 ≤
      v.fmt.toNat ∧ v.fmt.toNat ≤ 4)
    ∧ (∃ (c : CoreId) (v : VSArg) (s : State), Ready s c (encVS 0x22 v) ∧ v.fn = 0 ∧ v.res = 0 ∧ v.rs = 0 ∧ v.lane = 0)
    ∧ (∃ (c : CoreId) (v : VSArg) (s : State), Ready s c (encVS 0x22 v) ∧ v.fn = 1 ∧ v.res = 0 ∧ v.vs1 = 0 ∧ v.lane = 0)
    ∧ (∃ (c : CoreId) (v : VSArg) (s : State), Ready s c (encVS 0x22 v) ∧ v.fn = 2 ∧ v.res = 0 ∧ v.vs1 = 0)
    ∧ (∃ (c : CoreId) (v : VSArg) (s : State), Ready s c (encVS 0x22 v) ∧ v.fn = 3 ∧ v.res = 0 ∧ v.vd = 0)
    ∧ (∃ (c : CoreId) (v : VSArg) (s : State), Ready s c (encVS 0x22 v) ∧ v.fn = 4 ∧ v.res = 0 ∧ v.vd.getLsbD 3 = false ∧
      v.vs1 = 0 ∧ v.lane = 0)
    ∧ (∃ (c : CoreId) (v : VSArg) (s : State), Ready s c (encVS 0x22 v) ∧ v.fn = 5 ∧ v.res = 0 ∧ v.vs1.getLsbD 3 = false ∧
      v.vd = 0 ∧ v.lane = 0)
    ∧ (∃ (c : CoreId) (v : VArg) (s : State), Ready s c (encV 0x23 v) ∧ lowFn v ≤ 1 ∧ v.fmt = 0 ∧ (v.fn.getLsbD 6 = true →
      (s.core c).kind = 2))
    ∧ (∃ (c : CoreId) (v : VArg) (s : State), Ready s c (encV 0x24 v) ∧ v.fn.toNat ≤ 8 ∧ v.vd.getLsbD 3 = false ∧
      (v.fn.toNat < 6 → v.fmt = 0) ∧ (6 ≤ v.fn.toNat → 2 ≤ v.fmt.toNat ∧ v.fmt.toNat ≤ 4))
    ∧ (∃ (c : CoreId) (v : VArg) (s : State), Ready s c (encV 0x2B v) ∧ cvtFmt v.fmt.toNat = true ∧ cvtFmt (bvBits v.fn 3 4)
      = true ∧ bvBits v.fn 0 3 = 0 ∧ v.pm = 0 ∧ (512 < cvtCount v.fmt.toNat (bvBits v.fn 3 4) * fmtWidth v.fmt.toNat →
      oddReg v.vs1 = false) ∧ (512 < cvtCount v.fmt.toNat (bvBits v.fn 3 4) * fmtWidth (bvBits v.fn 3 4) → oddReg v.vd =
      false)) :=
  ⟨⟨0, ⟨1, 2, 3, 7, 2, 10⟩, ready (encV 0x20 ⟨1, 2, 3, 7, 2, 10⟩), by unfold Ready; decide +kernel, by decide +kernel,
    by decide +kernel, by decide +kernel⟩,
   ⟨0, ⟨1, 2, 3, 7, 4, 5⟩, ready (encV 0x21 ⟨1, 2, 3, 7, 4, 5⟩), by unfold Ready; decide +kernel, by decide +kernel,
    by decide +kernel, by decide +kernel, by decide +kernel⟩,
   ⟨0, ⟨1, 2, 0, 0, 0, 0⟩, ready (encVS 0x22 ⟨1, 2, 0, 0, 0, 0⟩), by unfold Ready; decide +kernel, by decide +kernel,
    by decide +kernel, by decide +kernel, by decide +kernel⟩,
   ⟨0, ⟨1, 0, 3, 0, 0, 1⟩, ready (encVS 0x22 ⟨1, 0, 3, 0, 0, 1⟩), by unfold Ready; decide +kernel, by decide +kernel,
    by decide +kernel, by decide +kernel, by decide +kernel⟩,
   ⟨0, ⟨1, 0, 3, 15, 0, 2⟩, ready (encVS 0x22 ⟨1, 0, 3, 15, 0, 2⟩), by unfold Ready; decide +kernel, by decide +kernel,
    by decide +kernel, by decide +kernel⟩,
   ⟨0, ⟨0, 2, 3, 15, 0, 3⟩, ready (encVS 0x22 ⟨0, 2, 3, 15, 0, 3⟩), by unfold Ready; decide +kernel, by decide +kernel,
    by decide +kernel, by decide +kernel⟩,
   ⟨0, ⟨7, 0, 3, 0, 0, 4⟩, ready (encVS 0x22 ⟨7, 0, 3, 0, 0, 4⟩), by unfold Ready; decide +kernel, by decide +kernel,
    by decide +kernel, by decide +kernel, by decide +kernel, by decide +kernel⟩,
   ⟨0, ⟨0, 7, 3, 0, 0, 5⟩, ready (encVS 0x22 ⟨0, 7, 3, 0, 0, 5⟩), by unfold Ready; decide +kernel, by decide +kernel,
    by decide +kernel, by decide +kernel, by decide +kernel, by decide +kernel⟩,
   ⟨0, ⟨1, 2, 3, 0, 0, 0x41⟩, ready (encV 0x23 ⟨1, 2, 3, 0, 0, 0x41⟩) (fun x => { x with member := 8 }),
    by unfold Ready; decide +kernel, by decide +kernel, by decide +kernel, by decide +kernel⟩,
   ⟨0, ⟨7, 2, 3, 0, 4, 8⟩, ready (encV 0x24 ⟨7, 2, 3, 0, 4, 8⟩), by unfold Ready; decide +kernel, by decide +kernel,
    by decide +kernel, by decide +kernel, by decide +kernel⟩,
   ⟨0, ⟨2, 4, 0, 0, 2, 16⟩, ready (encV 0x2B ⟨2, 4, 0, 0, 2, 16⟩), by unfold Ready; decide +kernel, by decide +kernel,
    by decide +kernel, by decide +kernel, by decide +kernel, by decide +kernel, by decide +kernel⟩⟩

/-- States and operands that meet the hypotheses of `Accumulators`, clause by clause. -/
theorem witness_Accumulators :
    (∃ (c : CoreId) (d : DArg) (s : State), Ready s c (encD 0x28 d 0) ∧ dotIll d [] = none)
    ∧ (∃ (c : CoreId) (d : DArg) (s : State), Ready s c (encD 0x28 d 1) ∧ dotIll d [] = none ∧ (s.core c).kind = 1)
    ∧ (∃ (c : CoreId) (f : XArg) (s : State), Ready s c (encX 0x29 f) ∧ f.fn = 0 ∧ 5 ≤ f.fmt.toNat ∧ f.fmt.toNat ≤ 11 ∧
      f.afmt ≠ 3 ∧ oddReg f.vs1 = false ∧ f.ss.toNat + 1 ≤ 31 ∧ (f.fmt = 9 → f.sel.getLsbD 0 = false ∧ f.ss.toNat + 2 ≤ 31 ∧
      oddReg f.ss = false) ∧ (f.fmt = 11 → f.sel.getLsbD 0 = false ∧ f.ss.toNat + 4 ≤ 31 ∧ f.ss.toNat % 4 = 0))
    ∧ (∃ (c : CoreId) (d : DArg) (s : State), Ready s c (encD 0x2A d 0) ∧ accRes d = false)
    ∧ (∃ (c : CoreId) (d : DArg) (s : State), Ready s c (encD 0x2A d 1) ∧ accIll d = none)
    ∧ (∃ (c : CoreId) (d : DArg) (s : State), Ready s c (encD 0x2A d 2) ∧ accIll d = none)
    ∧ (∃ (c : CoreId) (d : DArg) (s : State), Ready s c (encD 0x2A d 3) ∧ accIll d = none) :=
  ⟨⟨0, ⟨3, 0, 2, 4, 7, 4, 15⟩, ready (encD 0x28 ⟨3, 0, 2, 4, 7, 4, 15⟩ 0), by unfold Ready; decide +kernel,
    by decide +kernel⟩,
   ⟨0, ⟨3, 0, 2, 4, 7, 4, 15⟩, ready (encD 0x28 ⟨3, 0, 2, 4, 7, 4, 15⟩ 1) (fun x => { x with member := 4 }),
    by unfold Ready; decide +kernel, by decide +kernel, by decide +kernel⟩,
   ⟨0, ⟨1, 4, 6, 7, 11, 2, 2, 0⟩, ready (encX 0x29 ⟨1, 4, 6, 7, 11, 2, 2, 0⟩), by unfold Ready; decide +kernel,
    by decide +kernel, by decide +kernel, by decide +kernel, by decide +kernel, by decide +kernel, by decide +kernel,
    by decide +kernel, by decide +kernel⟩,
   ⟨0, ⟨3, 0, 0, 0, 7, 0, 0⟩, ready (encD 0x2A ⟨3, 0, 0, 0, 7, 0, 0⟩ 0), by unfold Ready; decide +kernel, by decide +kernel⟩,
   ⟨0, ⟨3, 0, 2, 0, 7, 12, 0⟩, ready (encD 0x2A ⟨3, 0, 2, 0, 7, 12, 0⟩ 1), by unfold Ready; decide +kernel,
    by decide +kernel⟩,
   ⟨0, ⟨3, 0, 2, 0, 7, 4, 0⟩, ready (encD 0x2A ⟨3, 0, 2, 0, 7, 4, 0⟩ 2), by unfold Ready; decide +kernel, by decide +kernel⟩,
   ⟨0, ⟨3, 0, 2, 0, 7, 2, 0⟩, ready (encD 0x2A ⟨3, 0, 2, 0, 7, 2, 0⟩ 3), by unfold Ready; decide +kernel, by decide +kernel⟩⟩

def blocked (k : BlkKind) : State := ready 0 (fun x => { x with blk := some { kind := k, fa := 0x40, word := 0, waits := [0] } })

/-- States and operands that meet the hypotheses of `FarAccesses`, clause by clause. -/
theorem witness_FarAccesses :
    (∃ (c : CoreId) (a : IArg) (parity : Bool) (s t : State) (d : Nat), Ready s c (encI 0x0B a) ∧ oddReg a.rs1 = false ∧
      farSum (s.core c) a.rs1 a.imm < 2 ^ 48 ∧ farSum (s.core c) a.rs1 a.imm % 4 = 0 ∧ s.farPeek c (encI 0x0B a) 0 c (farSum
      (s.core c) a.rs1 a.imm) 4 parity = .hit d t)
    ∧ (∃ (c : CoreId) (a : IArg) (parity : Bool) (s : State) (d : Nat), Ready s c (encI 0x0B a) ∧ oddReg a.rs1 = false ∧
      farSum (s.core c) a.rs1 a.imm < 2 ^ 48 ∧ farSum (s.core c) a.rs1 a.imm % 4 = 0 ∧ s.farPeek c (encI 0x0B a) 0 c (farSum
      (s.core c) a.rs1 a.imm) 4 parity = .fwd d)
    ∧ (∃ (c : CoreId) (a : IArg) (parity : Bool) (s t u : State) (fa : Nat) (ga : Dword), Ready s c (encI 0x0B a) ∧ oddReg
      a.rs1 = false ∧ fa = farSum (s.core c) a.rs1 a.imm ∧ fa < 2 ^ 48 ∧ fa % 4 = 0 ∧ s.farPeek c (encI 0x0B a) 0 c fa 4
      parity = .go ga false t ∧ u = (t.bump VAT_CORE_PC_CC_MISS (vatOf c) (idxOf c)).send (.req (.core c) 0 (ga &&&    63)
      (.read 64)))
    ∧ (∃ (c : CoreId) (vr : BitVec 4) (a : VMArg) (parity : Bool) (s : State) (fa : Nat), Ready s c (encVM 0x12 vr a) ∧
      vmRes a false = false ∧ oddReg a.rs1 = false ∧ fa = farSum (s.core c) a.rs1 a.imm ∧ fa < 2 ^ 48 ∧ fa % 64 = 0 ∧ (∀ e ∈
      indexed (s.members c), (∃ d t, s.farPeek c (encVM 0x12 vr a) e.1 e.2 ((fa + 64 * e.1) % 2 ^ 48) 64 parity = .hit d t)
      ∨ (∃ ga t, s.farPeek c (encVM 0x12 vr a) e.1 e.2 ((fa + 64 * e.1) % 2 ^ 48) 64 parity = .go ga false t)))
    ∧ (∃ (c : CoreId) (a : SArg) (s t : State) (fa : Nat) (ga : Dword), Ready s c (encS 0x0C a) ∧ oddReg a.rs1 = false ∧ fa
      = farSum (s.core c) a.rs1 a.imm ∧ fa < 2 ^ 48 ∧ fa % 4 = 0 ∧ s.sbFull c = false ∧ s.signBlocked (vatOf c) (idxOf c) =
      false ∧ s.farAddr c (encS 0x0C a) fa true 0 = .ga ga t)
    ∧ (∃ (c : CoreId) (vr : BitVec 4) (a : VMArg) (s t : State) (fa : Nat) (ga : Dword), Ready s c (encVM 0x13 vr a) ∧ vmRes
      a true = false ∧ oddReg a.rs1 = false ∧ s.members c = [c.val] ∧ fa = farSum (s.core c) a.rs1 a.imm ∧ fa < 2 ^ 48 ∧ fa
      % 64 = 0 ∧ s.sbFull c = false ∧ s.signBlocked (vatOf c) (idxOf c) = false ∧ s.farAddr c (encVM 0x13 vr a) fa true 0 =
      .ga ga t)
    ∧ (∃ (c : CoreId) (r : RArg) (fn : AmoFn) (s t : State) (fa : Nat) (ga : Dword), Ready s c (encR 0x34 r (amoCode fn)) ∧
      r.fx = 0 ∧ oddReg r.rs1 = false ∧ fa = ((s.core c).pair r.rs1).toNat ∧ fa < 2 ^ 48 ∧ fa % 4 = 0 ∧ (s.core c).sb = [] ∧
      s.farAddr c (encR 0x34 r (amoCode fn)) fa true 0 = .ga ga t ∧ t.signBlocked (vatOf c) (idxOf c) = false)
    ∧ (∃ (c : CoreId) (r : RArg) (s t : State) (fa : Nat) (ga : Dword), Ready s c (encR 0x34 r 9) ∧ r.fx = 0 ∧ oddReg r.rs1
      = false ∧ fa = ((s.core c).pair r.rs1).toNat ∧ fa < 2 ^ 48 ∧ fa % 4 = 0 ∧ (s.core c).sb = [] ∧ s.farAddr c (encR 0x34
      r 9) fa true 0 = .ga ga t ∧ t.signBlocked (vatOf c) (idxOf c) = false) :=
  ⟨⟨0, ⟨1, 2, 0x10⟩, false, ready (encI 0x0B ⟨1, 2, 0x10⟩) (fun x => { x with cache := [(0, { valid := true })] }), _, _,
    by unfold Ready; decide +kernel, by decide +kernel, by decide +kernel, by decide +kernel, rfl⟩,
   ⟨0, ⟨1, 2, 0x10⟩, false,
    ready (encI 0x0B ⟨1, 2, 0x10⟩) (fun x => { x with sb := [{ far := true, line := 0, mask := 0xF0000, data := 0 }] }), _,
    by unfold Ready; decide +kernel, by decide +kernel, by decide +kernel, by decide +kernel, rfl⟩,
   ⟨0, ⟨1, 2, 0x10⟩, false, ready (encI 0x0B ⟨1, 2, 0x10⟩), _, _, _, _, by unfold Ready; decide +kernel, by decide +kernel,
    rfl, by decide +kernel, by decide +kernel, rfl, rfl⟩,
   ⟨0, 3, ⟨1, 2, 0x40⟩, false, ready (encVM 0x12 3 ⟨1, 2, 0x40⟩), 0x40, by unfold Ready; decide +kernel, by decide +kernel,
    by decide +kernel, by decide +kernel, by decide +kernel, by decide +kernel,
    by intro e he; have h : e ∈ [(0, 0)] := he; rw [List.mem_singleton.mp h]; exact .inr ⟨_, _, rfl⟩⟩,
   ⟨0, ⟨1, 2, 0x10⟩, ready (encS 0x0C ⟨1, 2, 0x10⟩), _, 0x10, _, by unfold Ready; decide +kernel, by decide +kernel,
    by decide +kernel, by decide +kernel, by decide +kernel, by decide +kernel, by decide +kernel, rfl⟩,
   ⟨0, 3, ⟨0, 2, 0x40⟩, ready (encVM 0x13 3 ⟨0, 2, 0x40⟩), _, 0x40, _, by unfold Ready; decide +kernel, by decide +kernel,
    by decide +kernel, by decide +kernel, by decide +kernel, by decide +kernel, by decide +kernel, by decide +kernel,
    by decide +kernel, rfl⟩,
   ⟨0, ⟨1, 2, 3, 0⟩, .amaxu, ready (encR 0x34 ⟨1, 2, 3, 0⟩ 8), _, 0, _, by unfold Ready; decide +kernel, by decide +kernel,
    by decide +kernel, by decide +kernel, by decide +kernel, by decide +kernel, by decide +kernel, rfl, by decide +kernel⟩,
   ⟨0, ⟨1, 2, 3, 0⟩, ready (encR 0x34 ⟨1, 2, 3, 0⟩ 9), _, 0, _, by unfold Ready; decide +kernel, by decide +kernel,
    by decide +kernel, by decide +kernel, by decide +kernel, by decide +kernel, by decide +kernel, rfl, by decide +kernel⟩⟩

/-- States and operands that meet the hypotheses of `CurdCache`, clause by clause. -/
theorem witness_CurdCache :
    (∃ (c : CoreId) (a : VMArg) (s t : State) (fa : Nat) (ga : Dword), Ready s c (encVM 0x14 0 a) ∧ vmRes a true = false ∧
      oddReg a.rs1 = false ∧ fa = farSum (s.core c) a.rs1 a.imm ∧ fa < regWindow ∧ (s.core c).wantsPref (fa / 64) = true ∧
      s.xlate (vatOf c) fa false = .ga ga t)
    ∧ (∃ (c : CoreId) (a : VMArg) (s t u : State) (fa : Nat) (ga : Dword), Ready s c (encVM 0x14 1 a) ∧ vmRes a true = false
      ∧ oddReg a.rs1 = false ∧ fa = farSum (s.core c) a.rs1 a.imm ∧ fa < 2 ^ 48 ∧ s.sbFull c = false ∧ s.farAddr c (encVM
      0x14 1 a) (fa / 64 * 64) true 0 = .ga ga t ∧ t.signBlocked (vatOf c) (idxOf c) = false ∧ t.install c .z
      { valid := true, line := fa / 64, pending := true, rtime := t.tsc32 } = .done u)
    ∧ (∃ (c : CoreId) (a : VMArg) (s : State) (fa : Nat), Ready s c (encVM 0x14 2 a) ∧ vmRes a true = false ∧ oddReg a.rs1 =
      false ∧ fa = farSum (s.core c) a.rs1 a.imm ∧ fa < regWindow)
    ∧ (∃ (c : CoreId) (a : VMArg) (s : State), Ready s c (encVM 0x14 3 a) ∧ a.st = 0 ∧ a.rs1 = 0 ∧ a.imm = 0 ∧ (s.core
      c).pref = [])
    ∧ (∃ (c : CoreId) (line time : Nat) (d : Line) (s : State), (s.core c).pref.find? (fun e => e.1 = line) = some (line,
      time))
    ∧ (∃ (c : CoreId) (s : State), s.bit VAT_CORE_STAT.CC_INIT (vatOf c) (idxOf c) = true) :=
  ⟨⟨0, ⟨0, 2, 0x40⟩, ready (encVM 0x14 0 ⟨0, 2, 0x40⟩), _, 0x40, _, by unfold Ready; decide +kernel, by decide +kernel,
    by decide +kernel, by decide +kernel, by decide +kernel, by decide +kernel, rfl⟩,
   ⟨0, ⟨0, 2, 0x40⟩, ready (encVM 0x14 1 ⟨0, 2, 0x40⟩), _, _, 0x40, _, by unfold Ready; decide +kernel, by decide +kernel,
    by decide +kernel, by decide +kernel, by decide +kernel, by decide +kernel, rfl, by decide +kernel, rfl⟩,
   ⟨0, ⟨0, 2, 0x40⟩, ready (encVM 0x14 2 ⟨0, 2, 0x40⟩), 0x40, by unfold Ready; decide +kernel, by decide +kernel,
    by decide +kernel, by decide +kernel, by decide +kernel⟩,
   ⟨0, ⟨0, 0, 0⟩, ready (encVM 0x14 3 ⟨0, 0, 0⟩), by unfold Ready; decide +kernel, by decide +kernel, by decide +kernel,
    by decide +kernel, by decide +kernel⟩,
   ⟨0, 1, 5, 0, ready 0 (fun x => { x with pref := [(1, 5)] }), by decide +kernel⟩,
   ⟨0, live.setFld VAT_CORE_STAT.CC_INIT 1 0 0, by decide +kernel⟩⟩

/-- States and operands that meet the hypotheses of `CoreReplies`, clause by clause. -/
theorem witness_CoreReplies :
    (∃ (c : CoreId) (s t : State) (b : Blocked) (rd : BitVec 5) (d : Line), (s.core c).blk = some b ∧ b.kind = .fld rd ∧ 0 ∈
      b.waits ∧ b.regWin = false ∧ b.noFill = false ∧ (s.recvMsg (.reply (.core ((s.members c).getD 0 c)) 0 (.data
      d))).install ((s.members c).getD 0 c) .d
      { valid := true, line := b.fa % 2 ^ 48 / 64, data := d, age := 0, streaming := false, rtime := b.rtime } = .done t)
    ∧ (∃ (c : CoreId) (m : Fin 4) (s t : State) (b : Blocked) (vr : BitVec 4) (st : Bool) (d : Line), (s.core c).blk = some
      b ∧ b.kind = .vldf vr st ∧ m.val ∈ b.waits ∧ b.regWin = false ∧ b.noFill = false ∧ (s.recvMsg (.reply (.core
      ((s.members c).getD m c)) m (.data d))).install ((s.members c).getD m c) .d
      { valid := true, line := (b.fa + 64 * m.val) % 2 ^ 48 / 64, data := d, age := if st then 3 else 0, streaming := st, rtime := b.rtime }
      = .done t)
    ∧ (∃ (c : CoreId) (s : State) (b : Blocked) (rd : BitVec 5) (w : Word), (s.core c).blk = some b ∧ (b.kind = .fld rd ∨
      b.kind = .atom rd) ∧ 0 ∈ b.waits)
    ∧ (∃ (c : CoreId) (m : Fin 4) (s : State) (b : Blocked), (s.core c).blk = some b ∧ m.val ∈ b.waits)
    ∧ (∃ (c : CoreId) (tag : Nat) (o : OutStore) (s : State), (s.core c).outst.find? (fun o => o.tag = tag && !o.zero) =
      some o)
    ∧ (∃ (c : CoreId) (tag i : Nat) (o : OutStore) (s : State), (s.core c).outst.find? (fun o => o.tag = tag && o.zero) =
      some o ∧ ((s.core c).outst.erase o).any (fun p => p.zero && p.line = o.line) = false ∧ (s.core c).sb.any (fun e =>
      e.zero && e.line = o.line) = false ∧ (s.core c).findLine o.line = some i ∧ ((s.core c).ent i).drop = false)
    ∧ (∃ (c : CoreId) (m : Nat) (b : Blocked) (s : State), (s.core c).blk = some b ∧ m ∈ b.waits)
    ∧ (∃ (c : CoreId) (src : Agent) (tag off n : Nat) (s : State), s.partOf (vatOf c) ≠ none ∧ off < 0x10000 ∧ s.injBits c 0
      = 0)
    ∧ (∃ (c : CoreId) (src : Agent) (tag off : Nat) (m : Mask) (d : Line) (s : State), s.partOf (vatOf c) ≠ none ∧ off <
      0x10000 ∧ s.injBits c 0 = 0) :=
  ⟨⟨0, blocked (.fld 3), _, { kind := .fld 3, fa := 0x40, word := 0, waits := [0] }, 3, 5, by decide +kernel,
    by decide +kernel, by decide +kernel, by decide +kernel, by decide +kernel, rfl⟩,
   ⟨0, 0, blocked (.vldf 3 false), _, { kind := .vldf 3 false, fa := 0x40, word := 0, waits := [0] }, 3, false, 5,
    by decide +kernel, by decide +kernel, by decide +kernel, by decide +kernel, by decide +kernel, rfl⟩,
   ⟨0, blocked (.atom 3), { kind := .atom 3, fa := 0x40, word := 0, waits := [0] }, 3, 7, by decide +kernel,
    by decide +kernel, by decide +kernel⟩,
   ⟨0, 0, blocked (.atom 3), { kind := .atom 3, fa := 0x40, word := 0, waits := [0] }, by decide +kernel, by decide +kernel⟩,
   ⟨0, 2, { tag := 2, zero := false, line := 5 },
    ready 0 (fun x => { x with outst := [{ tag := 2, zero := false, line := 5 }] }), by decide +kernel⟩,
   ⟨0, 2, 0, { tag := 2, zero := true, line := 5 },
    ready 0 (fun x => { x with outst := [{ tag := 2, zero := true, line := 5 }], cache := [(0, { valid := true, line := 5 })] }),
    by decide +kernel, by decide +kernel, by decide +kernel, by decide +kernel, by decide +kernel⟩,
   ⟨0, 0, { kind := .atom 3, fa := 0x40, word := 0, waits := [0] }, blocked (.atom 3), by decide +kernel, by decide +kernel⟩,
   ⟨0, .mgmt, 0, 0xFFFF, 1, live, by decide +kernel, by decide +kernel, by decide +kernel⟩,
   ⟨0, .mgmt, 0, 0xFFC0, 1, 5, live, by decide +kernel, by decide +kernel, by decide +kernel⟩⟩

/-- States and operands that meet the hypotheses of `Messages`, clause by clause. -/
theorem witness_Messages :
    (∃ (c : CoreId) (r : RArg) (s : State), Ready s c (encR 0x30 r 0) ∧ r.rd = 0 ∧ r.fx = 0 ∧ s.srcCheck (vatOf c) (bvBits
      ((s.core c).s r.rs1) 0 12) = none ∧ s.signBlocked (vatOf c) (idxOf c) = false)
    ∧ (∃ (c : CoreId) (r : RArg) (s : State), Ready s c (encR 0x30 r 1) ∧ r.rd = 0 ∧ r.fx = 0 ∧ s.srcCheck (vatOf c) (bvBits
      ((s.core c).s r.rs1) 0 12) = none ∧ s.signBlocked (vatOf c) (idxOf c) = false)
    ∧ (∃ (c : CoreId) (r : RArg) (s : State), Ready s c (encR 0x30 r 2) ∧ r.rd = 0 ∧ r.fx = 0 ∧ s.samePart (vatOf c) (bvBits
      ((s.core c).s r.rs1) 0 6) = true ∧ s.signBlocked (vatOf c) (idxOf c) = false)
    ∧ (∃ (c : CoreId) (r : RArg) (s : State) (m : Word × Word) (x : CoreSt), Ready s c (encR 0x31 r 0) ∧ r.rs2 = 0 ∧ r.fx =
      0 ∧ s.aborting c = false ∧ (s.core c).takeMsg = some (m, x))
    ∧ (∃ (c : CoreId) (r : RArg) (s : State), Ready s c (encR 0x31 r 0) ∧ r.rs2 = 0 ∧ r.fx = 0 ∧ s.aborting c = false ∧
      (s.core c).takeMsg = none)
    ∧ (∃ (c : CoreId) (r : RArg) (s : State), Ready s c (encR 0x31 r 1) ∧ r.rs2 = 0 ∧ r.fx = 0)
    ∧ (∃ (c : CoreId) (sender payload : Word) (s : State), (s.core c).rx0.length < 6 ∧ (s.core c).wait = none)
    ∧ (∃ (c : CoreId) (sender payload : Word) (s : State), (s.core c).rx1.length < 2 ∧ (s.core c).wait = none)
    ∧ (∃ (c : CoreId) (r : RArg) (s : State) (k : Nat), Ready s c (encR 0x36 r 6) ∧ resR r = false ∧ s.aborting c = false ∧
      s.fenced c = true ∧ (s.core c).task = some k ∧ (descRearm (s.task (vatOf c) k).desc && descGateEn (s.task (vatOf c)
      k).desc) = false)
    ∧ (∃ (c : CoreId) (d : DArg) (s : State), Ready s c (encD 0x2A d 4) ∧ accRes d = false ∧ s.samePart (vatOf c) (tagVat
      ((s.core c).ptag.setWidth 16)) = true ∧ s.signBlocked (vatOf c) (idxOf c) = false) :=
  ⟨⟨0, ⟨0, 2, 3, 0⟩, ready (encR 0x30 ⟨0, 2, 3, 0⟩ 0), by unfold Ready; decide +kernel, by decide +kernel,
    by decide +kernel, by decide +kernel, by decide +kernel⟩,
   ⟨0, ⟨0, 2, 3, 0⟩, ready (encR 0x30 ⟨0, 2, 3, 0⟩ 1), by unfold Ready; decide +kernel, by decide +kernel,
    by decide +kernel, by decide +kernel, by decide +kernel⟩,
   ⟨0, ⟨0, 2, 3, 0⟩, ready (encR 0x30 ⟨0, 2, 3, 0⟩ 2), by unfold Ready; decide +kernel, by decide +kernel,
    by decide +kernel, by decide +kernel, by decide +kernel⟩,
   ⟨0, ⟨1, 2, 0, 0⟩, ready (encR 0x31 ⟨1, 2, 0, 0⟩ 0) (fun x => { x with rx0 := [(1, 2)] }), _, _,
    by unfold Ready; decide +kernel, by decide +kernel, by decide +kernel, by decide +kernel, rfl⟩,
   ⟨0, ⟨1, 2, 0, 0⟩, ready (encR 0x31 ⟨1, 2, 0, 0⟩ 0), by unfold Ready; decide +kernel, by decide +kernel,
    by decide +kernel, by decide +kernel, by decide +kernel⟩,
   ⟨0, ⟨1, 1, 0, 0⟩, ready (encR 0x31 ⟨1, 1, 0, 0⟩ 1), by unfold Ready; decide +kernel, by decide +kernel,
    by decide +kernel⟩,
   ⟨0, 1, 2, ready 0, by decide +kernel, by decide +kernel⟩,
   ⟨0, 1, 2, ready 0, by decide +kernel, by decide +kernel⟩,
   ⟨0, ⟨0, 0, 0, 0⟩, ready (encR 0x36 ⟨0, 0, 0, 0⟩ 6), 0, by unfold Ready; decide +kernel, by decide +kernel,
    by decide +kernel, by decide +kernel, by decide +kernel, by decide +kernel⟩,
   ⟨0, ⟨1, 0, 0, 0, 7, 0, 0⟩, ready (encD 0x2A ⟨1, 0, 0, 0, 7, 0, 0⟩ 4), by unfold Ready; decide +kernel, by decide +kernel,
    by decide +kernel, by decide +kernel⟩⟩

/-- States and operands that meet the hypotheses of `Tasks`, clause by clause. -/
theorem witness_Tasks :
    (∃ (v : VatId) (k : SlotIx) (data : Dword) (s : State), s.vatLive v = true ∧ s.taskState v k = 0)
    ∧ (∃ (v : VatId) (k : SlotIx) (data : Dword) (s : State), s.vatLive v = true ∧ s.taskState v k = 0)
    ∧ (∃ (v : VatId) (k : SlotIx) (d : Dword) (s : State), s.vatLive v = true ∧ s.taskState v k = 0 ∧ d = s.reg
      VAT_TASK_DESC v k ∧ descEntry d % 4 = 0 ∧ s.isTarget v (descTarget d) = true ∧ descGateEn d = false ∧ (descOutEn d =
      true → s.tallyOk v (descOut d) = true))
    ∧ (∃ (v : VatId) (k : SlotIx) (d : Dword) (s : State), s.vatLive v = true ∧ s.taskState v k = 0 ∧ d = s.reg
      VAT_TASK_DESC v k ∧ descEntry d % 4 = 0 ∧ s.isTarget v (descTarget d) = true ∧ descGateEn d = true ∧ s.tallyOk v
      (descGate d) = true ∧ (descOutEn d = true → s.tallyOk v (descOut d) = true))
    ∧ (∃ (v : VatId) (k : SlotIx) (s : State), s.vatLive v = true ∧ s.taskState v k = 1)
    ∧ (∃ (v : VatId) (k : SlotIx) (s : State), s.vatLive v = true ∧ (s.taskState v k = 1 ∨ s.taskState v k = 2))
    ∧ (∃ (v : VatId) (k : SlotIx) (s : State), s.vatLive v = true ∧ s.taskState v k = 3)
    ∧ (∃ (v : VatId) (k : SlotIx) (s : State), s.vatLive v = true ∧ 5 ≤ s.taskState v k)
    ∧ (∃ (v : VatId) (k : SlotIx) (s : State), s.vatLive v = true)
    ∧ (∃ (v k : VatId) (i : Nat) (s : State), s.canon = true ∧ s.vatLive v = true ∧ s.fatal = false ∧ s.isTarget v k = true
      ∧ s.targetIdle v k = true ∧ s.pickSlot v k = some i) :=
  ⟨⟨0, 255, 0, live, by decide +kernel, by decide +kernel⟩,
   ⟨0, 255, 0, live, by decide +kernel, by decide +kernel⟩,
   ⟨0, 255, _, live, by decide +kernel, by decide +kernel, rfl, by decide +kernel, by decide +kernel, by decide +kernel,
    by decide +kernel⟩,
   ⟨0, 255, _, live.setReg VAT_TASK_DESC 0x4000000000 0 255, by decide +kernel, by decide +kernel, rfl, by decide +kernel,
    by decide +kernel, by decide +kernel, by decide +kernel, by decide +kernel⟩,
   ⟨0, 255, live.setFld VAT_TASK_CTL.STATE 1 0 255, by decide +kernel, by decide +kernel⟩,
   ⟨0, 255, live.setFld VAT_TASK_CTL.STATE 2 0 255, by decide +kernel, by decide +kernel⟩,
   ⟨0, 0, ready 0, by decide +kernel, by decide +kernel⟩,
   ⟨0, 255, live.setFld VAT_TASK_CTL.STATE 7 0 255, by decide +kernel, by decide +kernel⟩,
   ⟨1, 0, live, by decide +kernel⟩,
   ⟨0, 0, 255, (live.setFld VAT_TASK_CTL.STATE 2 0 255).setReg VAT_CORE_STAT 0 0 0, by decide +kernel, by decide +kernel,
    by decide +kernel, by decide +kernel, by decide +kernel, by decide +kernel⟩⟩

/-- States and operands that meet the hypotheses of `Tallies`, clause by clause. -/
theorem witness_Tallies :
    (∃ (c : CoreId) (r : RArg) (t : Nat) (s : State), Ready s c (encR 0x32 r 0) ∧ r.rd = 0 ∧ r.fx = 0 ∧ t = bvBits ((s.core
      c).s r.rs1) 0 14 ∧ s.tallyOk (vatOf c) t = true ∧ s.signBlocked (vatOf c) (idxOf c) = false)
    ∧ (∃ (c : CoreId) (r : RArg) (t : Nat) (s : State), Ready s c (encR 0x32 r 1) ∧ r.rs2 = 0 ∧ r.fx = 0 ∧ t = bvBits
      ((s.core c).s r.rs1) 0 14 ∧ s.tallyOk (vatOf c) t = true ∧ s.aborting c = false)
    ∧ (∃ (c : CoreId) (r : RArg) (t : Nat) (s : State), Ready s c (encR 0x32 r 2) ∧ r.rs2 = 0 ∧ r.fx = 0 ∧ t = bvBits
      ((s.core c).s r.rs1) 0 14 ∧ s.tallyOk (vatOf c) t = true)
    ∧ (∃ (c : CoreId) (r : RArg) (t : Nat) (s : State), Ready s c (encR 0x32 r 3) ∧ r.rd = 0 ∧ r.fx = 0 ∧ t = bvBits
      ((s.core c).s r.rs1) 0 14 ∧ s.tallyOk (vatOf c) t = true)
    ∧ (∃ (t : TallyId) (n : Word) (org : Nat) (s : State), s.vatLive (tallyVat t.toNat) = true ∧ s.tnetOrder (tInc t.toNat
      n.toNat org) = true)
    ∧ (∃ (t : TallyId) (w : VatId) (org : Nat) (s u : State), s.vatLive (tallyVat t.toNat) = true ∧ s.tnetOrder (tReg
      t.toNat w org) = true ∧ u = (s.recvMsg (.tnet (tReg t.toNat w org))).tallyEcc t.toNat)
    ∧ (∃ (w : VatId) (t : TallyId) (s u : State) (c : Nat) (rd : BitVec 5) (n : Nat) (b : Bool), s.tnetOrder (tAck t.toNat
      w) = true ∧ (s.recvMsg (.tnet (tAck t.toNat w))).popReg w t.toNat = some (.core c, u) ∧ (u.core c).wait = some (.twait
      rd n b))
    ∧ (∃ (w : VatId) (t : TallyId) (s u : State) (v k : Nat), s.tnetOrder (tAck t.toNat w) = true ∧ (s.recvMsg (.tnet (tAck
      t.toNat w))).popReg w t.toNat = some (.slot v k, u) ∧ u.haltingCore v k = none)
    ∧ (∃ (w : VatId) (t : TallyId) (count : Word) (s : State), s.tnetOrder (tRel t.toNat count.toNat 0 w false) = true)
    ∧ (∃ (t : TallyId) (c : CoreId) (s u : State), s.vatLive (tallyVat t.toNat) = true ∧ s.tnetOrder (tRead t.toNat c) =
      true ∧ u = (s.recvMsg (.tnet (tRead t.toNat c))).tallyEcc t.toNat)
    ∧ (∃ (t : TallyId) (c : CoreId) (count : Word) (s : State) (b : Blocked) (rd : BitVec 5), (s.core c).blk = some b ∧
      b.kind = .trd rd ∧ s.tnetOrder (tReadReply t.toNat count.toNat c) = true)
    ∧ (∃ (t : TallyId) (x : Word) (org : Nat) (s : State), s.vatLive (tallyVat t.toNat) = true ∧ s.tnetOrder (tThr t.toNat
      x.toNat org) = true)
    ∧ (∃ (t : TallyId) (x : Word) (s : State), s.vatLive (tallyVat t.toNat) = true)
    ∧ (∃ (t : TallyId) (x : Word) (s : State), s.vatLive (tallyVat t.toNat) = true)
    ∧ (∃ (t : TallyId) (x : Word) (s : State), s.vatLive (tallyVat t.toNat) = true) :=
  ⟨⟨0, ⟨0, 2, 3, 0⟩, _, ready (encR 0x32 ⟨0, 2, 3, 0⟩ 0), by unfold Ready; decide +kernel, by decide +kernel,
    by decide +kernel, rfl, by decide +kernel, by decide +kernel⟩,
   ⟨0, ⟨1, 2, 0, 0⟩, _, ready (encR 0x32 ⟨1, 2, 0, 0⟩ 1), by unfold Ready; decide +kernel, by decide +kernel,
    by decide +kernel, rfl, by decide +kernel, by decide +kernel⟩,
   ⟨0, ⟨1, 2, 0, 0⟩, _, ready (encR 0x32 ⟨1, 2, 0, 0⟩ 2), by unfold Ready; decide +kernel, by decide +kernel,
    by decide +kernel, rfl, by decide +kernel⟩,
   ⟨0, ⟨0, 2, 3, 0⟩, _, ready (encR 0x32 ⟨0, 2, 3, 0⟩ 3), by unfold Ready; decide +kernel, by decide +kernel,
    by decide +kernel, rfl, by decide +kernel⟩,
   ⟨0, 5, 0, live, by decide +kernel, by decide +kernel⟩,
   ⟨0, 1, 4096, live, _, by decide +kernel, by decide +kernel, rfl⟩,
   ⟨0, 5, { ready 0 (fun x => { x with wait := some (.twait 3 5 false) }) with regQueue := [(0, 5, .core 0)] }, _, 0, 3, 5,
    false, by decide +kernel, rfl, by decide +kernel⟩,
   ⟨0, 5, { live with regQueue := [(0, 5, .slot 0 7)] }, _, 0, 7, by decide +kernel, rfl, by decide +kernel⟩,
   ⟨0, 5, 9, live, by decide +kernel⟩,
   ⟨5, 0, live, _, by decide +kernel, by decide +kernel, rfl⟩,
   ⟨5, 0, 9, blocked (.trd 3), { kind := .trd 3, fa := 0x40, word := 0, waits := [0] }, 3, by decide +kernel,
    by decide +kernel, by decide +kernel⟩,
   ⟨5, 9, 0, live, by decide +kernel, by decide +kernel⟩,
   ⟨5, 9, live, by decide +kernel⟩,
   ⟨5, 9, live, by decide +kernel⟩,
   ⟨5, 9, live, by decide +kernel⟩⟩

/-- A submission by core 0 to ladle 0, and one from a complete staging. -/
def sub0 : State × Nat × Nat :=
  (ready (encR 0x33 ⟨1, 0, 15, 0⟩ 0)).ladleSubmit 0 0 (lineWords (((ready (encR 0x33 ⟨1, 0, 15, 0⟩ 0)).core 0).v 15)) false (some 0)
def stg7 : State := live.setLadle 0 0 { stg := [0x01, 0, 0, 64 + 2 ^ 32, 0, 0, 0] }
def sub7 : State × Nat × Nat := (live.setLadle 0 0 {}).ladleSubmit 0 0 [0x01, 0, 0, 64 + 2 ^ 32, 0, 0, 0, 0] false none

/-- A program of vat 0's churn that is about to execute `w`. -/
def prog (w : Word) : ChurnRun := { pc := 0, prog := [(0, w)] }

/-- Vat 0's churn runs `r`. -/
def churning (r : ChurnRun) : State := live.setChurn 0 { run := some r }

/-- Ladle 0 of vat 0 is enabled, with the descriptor `d` at the head of its queue, beginning it where `a` says so. -/
def ladling (d : LItem) (a : Option LAct := none) : State :=
  (live.setFld VAT_LADLE_STAT.STATE 1 0 0).setLadle 0 0 { queue := [d], act := a }

/-- A descriptor of an operation that moves nothing. -/
def desc (op : Dword) : LItem := { seq := 0, words := [op, 0, 0, 0, 0, 0, 0, 0] }

/-- A partial of one window. -/
def part1 (tag : BitVec 16) (merged : Nat) : Partial :=
  { tag := tag, lane := 0, expect := 2, merged := merged, p := true, n := false, q := false, aov := false, wins := [⟨1, 0⟩] }

/-- States and operands that meet the hypotheses of `ChurnArithmetic`, clause by clause. -/
theorem witness_ChurnArithmetic :
    (∃ (v : VatId) (op : ChurnOp) (a : CArg) (s : State) (r : ChurnRun), ChurnReady s v (encC (churnOpCode op) a) r)
    ∧ (∃ (v : VatId) (a : CArg) (s : State) (r : ChurnRun), ChurnReady s v (encC 0x0C a) r)
    ∧ (∃ (v : VatId) (a : CArg) (s : State) (r : ChurnRun), ChurnReady s v (encC 0x0D a) r)
    ∧ (∃ (v : VatId) (a : CArg) (s : State) (r : ChurnRun), ChurnReady s v (encC 0x10 a) r)
    ∧ (∃ (v : VatId) (a : CArg) (s : State) (r : ChurnRun), ChurnReady s v (encC 0x11 a) r)
    ∧ (∃ (v : VatId) (a : CArg) (s : State) (r : ChurnRun) (b : Bool) (fl : Flags), ChurnReady s v (encC 0x12 a) r ∧
      fcmpElem 7 .b32 (r.f a.ra) (r.f a.rb) = (b, fl))
    ∧ (∃ (v : VatId) (op : ChurnF) (a : CArg) (s : State) (r : ChurnRun) (d : Nat) (fl : Flags), ChurnReady s v (encC
      (churnFCode op) a) r ∧ vfpElem (match op with | .fadd => 0 | .fsub => 1 | .fmul => 2) .b32 ⟨0, 0⟩ (r.f a.ra) (r.f
      a.rb) 0 = (d, fl))
    ∧ (∃ (v : VatId) (a : CArg) (s : State) (r : ChurnRun) (d : Nat) (fl : Flags), ChurnReady s v (encC 0x16 a) r ∧ fexp2
      (r.f a.ra) = (d, fl))
    ∧ (∃ (v : VatId) (a : CArg) (s : State) (r : ChurnRun) (d : Nat) (fl : Flags), ChurnReady s v (encC 0x17 a) r ∧ frcp
      (r.f a.ra) = (d, fl))
    ∧ (∃ (v : VatId) (a : CArg) (s : State) (r : ChurnRun), ChurnReady s v (encC 0x18 a) r)
    ∧ (∃ (v : VatId) (a : CArg) (s : State) (r : ChurnRun) (k : Nat), ChurnReady s v (encC 0x19 a) r ∧ k = bvBits (smGet 0
      (s.churn v).scratch (a.imm.toNat % 512)) 0 7 ∧ 1 ≤ k ∧ k ≤ 64)
    ∧ (∃ (v : VatId) (op : ChurnBr) (a : CArg) (s : State) (r : ChurnRun), ChurnReady s v (encC (churnBrCode op) a) r) :=
  ⟨⟨0, .sll, ⟨1, 2, 3, 0⟩, churning (prog (encC 6 ⟨1, 2, 3, 0⟩)), prog (encC 6 ⟨1, 2, 3, 0⟩),
    by unfold ChurnReady; decide +kernel⟩,
   ⟨0, ⟨1, 2, 0, 0x3FFF⟩, churning (prog (encC 0x0C ⟨1, 2, 0, 0x3FFF⟩)), prog (encC 0x0C ⟨1, 2, 0, 0x3FFF⟩),
    by unfold ChurnReady; decide +kernel⟩,
   ⟨0, ⟨1, 2, 0, 63⟩, churning (prog (encC 0x0D ⟨1, 2, 0, 63⟩)), prog (encC 0x0D ⟨1, 2, 0, 63⟩),
    by unfold ChurnReady; decide +kernel⟩,
   ⟨0, ⟨1, 2, 0, 511⟩, churning (prog (encC 0x10 ⟨1, 2, 0, 511⟩)), prog (encC 0x10 ⟨1, 2, 0, 511⟩),
    by unfold ChurnReady; decide +kernel⟩,
   ⟨0, ⟨1, 2, 0, 511⟩, churning (prog (encC 0x11 ⟨1, 2, 0, 511⟩)), prog (encC 0x11 ⟨1, 2, 0, 511⟩),
    by unfold ChurnReady; decide +kernel⟩,
   ⟨0, ⟨1, 2, 3, 0⟩, churning (prog (encC 0x12 ⟨1, 2, 3, 0⟩)), prog (encC 0x12 ⟨1, 2, 3, 0⟩), _, _,
    by unfold ChurnReady; decide +kernel, rfl⟩,
   ⟨0, .fsub, ⟨1, 2, 3, 0⟩, churning (prog (encC 0x14 ⟨1, 2, 3, 0⟩)), prog (encC 0x14 ⟨1, 2, 3, 0⟩), _, _,
    by unfold ChurnReady; decide +kernel, rfl⟩,
   ⟨0, ⟨1, 2, 0, 0⟩, churning (prog (encC 0x16 ⟨1, 2, 0, 0⟩)), prog (encC 0x16 ⟨1, 2, 0, 0⟩), _, _,
    by unfold ChurnReady; decide +kernel, rfl⟩,
   ⟨0, ⟨1, 2, 0, 0⟩, churning (prog (encC 0x17 ⟨1, 2, 0, 0⟩)), prog (encC 0x17 ⟨1, 2, 0, 0⟩), _, _,
    by unfold ChurnReady; decide +kernel, rfl⟩,
   ⟨0, ⟨1, 0, 0, 0⟩, churning (prog (encC 0x18 ⟨1, 0, 0, 0⟩)), prog (encC 0x18 ⟨1, 0, 0, 0⟩),
    by unfold ChurnReady; decide +kernel⟩,
   ⟨0, ⟨0, 2, 0, 0⟩, live.setChurn 0 { run := some (prog (encC 0x19 ⟨0, 2, 0, 0⟩)), scratch := [(0, 64)] },
    prog (encC 0x19 ⟨0, 2, 0, 0⟩), 64, by unfold ChurnReady; decide +kernel, by decide +kernel, by decide +kernel,
    by decide +kernel⟩,
   ⟨0, .bltu, ⟨0, 1, 2, 0x3FFC⟩, churning (prog (encC 0x1C ⟨0, 1, 2, 0x3FFC⟩)), prog (encC 0x1C ⟨0, 1, 2, 0x3FFC⟩),
    by unfold ChurnReady; decide +kernel⟩⟩

/-- States and operands that meet the hypotheses of `ChurnPrograms`, clause by clause. -/
theorem witness_ChurnPrograms :
    (∃ (v : VatId) (a : CArg) (s t : State) (r : ChurnRun) (ga : Dword), ChurnReady s v (encC 0x0E a) r ∧ churnAddr r a % 8
      = 0 ∧ churnAddr r a < 2 ^ 48 ∧ s.xlate v (churnAddr r a) false = .ga ga t)
    ∧ (∃ (v : VatId) (a : CArg) (s t : State) (r : ChurnRun) (ga : Dword), ChurnReady s v (encC 0x0F a) r ∧ churnAddr r a %
      8 = 0 ∧ churnAddr r a < 2 ^ 48 ∧ s.xlate v (churnAddr r a) true = .ga ga t ∧ (∀ st, r.stream = some st → t.signBlocked
      v st = false))
    ∧ (∃ (v : VatId) (s : State) (r : ChurnRun) (rd : BitVec 4) (d : Line), (s.churn v).run = some r ∧ r.wait = some (.ld
      rd))
    ∧ (∃ (v : VatId) (s : State) (r : ChurnRun), (s.churn v).run = some r ∧ r.wait = some .st)
    ∧ (∃ (v : VatId) (s : State) (r : ChurnRun) (w : ChurnWait), (s.churn v).run = some r ∧ r.wait = some w ∧ w ≠ .walk)
    ∧ (∃ (v : VatId) (a : CArg) (s : State) (r : ChurnRun) (t : Nat), ChurnReady s v (encC 0x1D a) r ∧ t = bvBits (r.c a.ra)
      0 14 ∧ s.tallyOk v t = true ∧ (∀ st, r.stream = some st → s.signBlocked v st = false))
    ∧ (∃ (v : VatId) (a : CArg) (s : State) (r : ChurnRun) (w : Nat), ChurnReady s v (encC 0x1E a) r ∧ w = bvBits (r.c a.ra)
      0 6 ∧ s.samePart v w = true ∧ (∀ st, r.stream = some st → s.signBlocked v st = false))
    ∧ (∃ (v : VatId) (a : CArg) (s : State) (r : ChurnRun) (k : Nat), ChurnReady s v (encC 0x1F a) r ∧ k = bvBits (r.c a.ra)
      0 12 ∧ s.srcCheck v k = none ∧ (∀ st, r.stream = some st → s.signBlocked v st = false))
    ∧ (∃ (v : VatId) (a : CArg) (s : State) (r : ChurnRun), ChurnReady s v (encC 0x20 a) r)
    ∧ (∃ (v : VatId) (w : Word) (s : State) (r : ChurnRun), s.vatLive v = true ∧ (s.churn v).run = some r ∧ r.wait = none ∧
      r.count < 65536 ∧ smGet 0 r.prog r.pc = w ∧ churnReserved w = true)
    ∧ (∃ (v : VatId) (s : State) (r : ChurnRun), s.vatLive v = true ∧ (s.churn v).run = some r ∧ r.wait = none ∧ 65536 ≤
      r.count) :=
  ⟨⟨0, ⟨1, 0, 0, 8⟩, churning (prog (encC 0x0E ⟨1, 0, 0, 8⟩)), _, prog (encC 0x0E ⟨1, 0, 0, 8⟩), _,
    by unfold ChurnReady; decide +kernel, by decide +kernel, by decide +kernel, rfl⟩,
   ⟨0, ⟨1, 0, 0, 8⟩, churning (prog (encC 0x0F ⟨1, 0, 0, 8⟩)), _, prog (encC 0x0F ⟨1, 0, 0, 8⟩), _,
    by unfold ChurnReady; decide +kernel, by decide +kernel, by decide +kernel, rfl, fun st h => nomatch h⟩,
   ⟨0, churning { prog 0 with wait := some (.ld 3) }, { prog 0 with wait := some (.ld 3) }, 3, 5, by decide +kernel,
    by decide +kernel⟩,
   ⟨0, churning { prog 0 with wait := some .st }, { prog 0 with wait := some .st }, by decide +kernel, by decide +kernel⟩,
   ⟨0, churning { prog 0 with wait := some .st }, { prog 0 with wait := some .st }, .st, by decide +kernel,
    by decide +kernel, by decide +kernel⟩,
   ⟨0, ⟨0, 1, 2, 0⟩, churning (prog (encC 0x1D ⟨0, 1, 2, 0⟩)), prog (encC 0x1D ⟨0, 1, 2, 0⟩), _,
    by unfold ChurnReady; decide +kernel, rfl, by decide +kernel, fun st h => nomatch h⟩,
   ⟨0, ⟨0, 1, 0, 5⟩, churning (prog (encC 0x1E ⟨0, 1, 0, 5⟩)), prog (encC 0x1E ⟨0, 1, 0, 5⟩), _,
    by unfold ChurnReady; decide +kernel, rfl, by decide +kernel, fun st h => nomatch h⟩,
   ⟨0, ⟨0, 1, 2, 0⟩, churning (prog (encC 0x1F ⟨0, 1, 2, 0⟩)), prog (encC 0x1F ⟨0, 1, 2, 0⟩), _,
    by unfold ChurnReady; decide +kernel, rfl, by decide +kernel, fun st h => nomatch h⟩,
   ⟨0, ⟨0, 0, 0, 0⟩, churning (prog (encC 0x20 ⟨0, 0, 0, 0⟩)), prog (encC 0x20 ⟨0, 0, 0, 0⟩),
    by unfold ChurnReady; decide +kernel⟩,
   ⟨0, 0, churning (prog 0), prog 0, by decide +kernel, by decide +kernel, by decide +kernel, by decide +kernel,
    by decide +kernel, by decide +kernel⟩,
   ⟨0, churning { prog 0 with count := 65536 }, { prog 0 with count := 65536 }, by decide +kernel, by decide +kernel,
    by decide +kernel, by decide +kernel⟩⟩

/-- States and operands that meet the hypotheses of `Reductions`, clause by clause. -/
theorem witness_Reductions :
    (∃ (v : VatId) (src : Nat) (p : Partial) (s : State), s.accepts v = true ∧ tagVat p.tag = v ∧ partialMalformed p false =
      false ∧ s.earlyFull v p = false ∧ s.signBlocked v (64 + p.tag.toNat % 64) = false)
    ∧ (∃ (v : VatId) (src : Nat) (p : Partial) (s : State), s.accepts v = true ∧ tagVat p.tag = v ∧ partialMalformed p false
      = true ∧ s.earlyFull v (partialSanitised p) = false ∧ s.signBlocked v (64 + p.tag.toNat % 64) = false)
    ∧ (∃ (v : VatId) (e : EntryIx) (l : Fin 16) (va : Nat) (ga : Dword) (s : State), (s.redLane v e l).out.find? (fun o =>
      o.1 = va) = some (va, ga))
    ∧ (∃ (v : VatId) (e : EntryIx) (data : Dword) (s : State), s.vatLive v = true ∧ s.bit VAT_RED_STAT.BUSY v e = false ∧
      s.bit VAT_RED_STAT.FAULT v e = false)
    ∧ (∃ (v : VatId) (e : EntryIx) (data : Dword) (s : State), s.vatLive v = true ∧ s.bit VAT_RED_STAT.BUSY v e = false)
    ∧ (∃ (v : VatId) (e : EntryIx) (data : Dword) (s : State), s.vatLive v = true ∧ s.bit VAT_RED_STAT.BUSY v e = false)
    ∧ (∃ (v : VatId) (s : State) (i : Invoc) (is : List Invoc) (r : ChurnRun), s.accepts v = true ∧ (s.churn v).run = none ∧
      (s.churn v).invq = i :: is ∧ r =
      { stream := if i.kind = 0 then some (64 + i.arg.toNat % 64) else none, pc := i.entry, regs := smSet 0 (smSet 0 [] 1 (i.arg.setWidth 64)) 2 (BitVec.ofNat 64 i.kind), prog := (List.range 2048).filterMap (fun k => if (s.reg VAT_CHURN_PROG v k).setWidth 32 = (0 : Word) then none else some (k, (s.reg VAT_CHURN_PROG v k).setWidth 32)) })
    ∧ (∃ (v : VatId) (data : Dword) (s : State), s.accepts v = true ∧ (s.churn v).invq.length < 16)
    ∧ (∃ (v : VatId) (seed : Word) (s : State), s.vatLive v = true)
    ∧ (∃ (v : VatId) (seed : Dword) (s : State), s.vatLive v = true) :=
  ⟨⟨0, 0, part1 3 1, live, by decide +kernel, by decide +kernel, by decide +kernel, by decide +kernel, by decide +kernel⟩,
   ⟨0, 0, part1 3 257, live, by decide +kernel, by decide +kernel, by decide +kernel, by decide +kernel, by decide +kernel⟩,
   ⟨0, 5, 15, 64, 128, live.setRedLane 0 5 15 { out := [(64, 128)] }, by decide +kernel⟩,
   ⟨0, 63, 1, live, by decide +kernel, by decide +kernel, by decide +kernel⟩,
   ⟨0, 63, 1, live, by decide +kernel, by decide +kernel⟩,
   ⟨0, 63, 1, live, by decide +kernel, by decide +kernel⟩,
   ⟨0, live.setChurn 0 { invq := [⟨4, 5, 0⟩] }, ⟨4, 5, 0⟩, [], _, by decide +kernel, by decide +kernel, by decide +kernel,
    rfl⟩,
   ⟨0, 5, live, by decide +kernel, by decide +kernel⟩,
   ⟨0, 5, live, by decide +kernel⟩,
   ⟨0, 5, live, by decide +kernel⟩⟩

/-- States and operands that meet the hypotheses of `Ladles`, clause by clause. -/
theorem witness_Ladles :
    (∃ (v : VatId) (l : LadleIx) (s : State) (d : LItem), LadleReady s v l d ∧ d.op = 1)
    ∧ (∃ (v : VatId) (l : LadleIx) (s : State) (d : LItem), LadleReady s v l d ∧ d.op = 2)
    ∧ (∃ (v : VatId) (l : LadleIx) (s : State) (d : LItem), LadleReady s v l d ∧ d.op = 3)
    ∧ (∃ (v : VatId) (l : LadleIx) (s : State) (d : LItem), LadleReady s v l d ∧ d.op = 4)
    ∧ (∃ (v : VatId) (l : LadleIx) (s : State) (d : LItem), LadleReady s v l d ∧ d.op = 5)
    ∧ (∃ (v : VatId) (l : LadleIx) (s : State) (d : LItem), LadleReady s v l d ∧ d.op = 6 ∧ s.accepts d.callVat = true ∧
      s.invFull d.callVat = false)
    ∧ (∃ (v : VatId) (l : LadleIx) (s : State) (a : LAct) (d : LItem) (ds : List LItem) (tag n : Nat) (ga : Dword) (x :
      Line), s.fld VAT_LADLE_STAT.STATE v l = 1 ∧ (s.ladle v l).act = some a ∧ (s.ladle v l).queue = d :: ds ∧ a.rd = some
      (tag, n, ga) ∧ d.op ≠ 4 ∧ d.op ≠ 5)
    ∧ (∃ (v : VatId) (l : LadleIx) (tag : Nat) (s : State) (a : LAct) (w : Nat × Dword × Bool), s.fld VAT_LADLE_STAT.STATE v
      l = 1 ∧ (s.ladle v l).act = some a ∧ a.wrs.find? (fun w => w.1 = tag) = some w)
    ∧ (∃ (v : VatId) (l : LadleIx) (tag : Nat) (s : State) (a : LAct) (w : Nat × Dword × Bool), s.fld VAT_LADLE_STAT.STATE v
      l = 1 ∧ (s.ladle v l).act = some a ∧ a.rd = none ∧ a.wrs.find? (fun w => w.1 = tag) = some w)
    ∧ (∃ (c : CoreId) (line : Nat) (data : Line) (time : Nat) (s t : State), s.bit VAT_CORE_STAT.CC_INIT (vatOf c) (idxOf c)
      = false ∧ (s.core c).findLine line = none ∧ (s.recvMsg (.inject c line data time)).install c .l
      { valid := true, line := line, data := data, rtime := time } = .done t)
    ∧ (∃ (v : VatId) (l : LadleIx) (s t : State), s.vatLive v = true ∧ (s.ladle v l).stg = [] ∧ t = (s.ladle v
      l).queue.foldl (fun s _ => s.bump VAT_LADLE_PC_FLUSHED v l) s)
    ∧ (∃ (v : VatId) (l : LadleIx) (s : State), s.fld VAT_LADLE_STAT.STATE v l = 3 ∧ (s.ladle v l).act = none)
    ∧ (∃ (v : VatId) (l : LadleIx) (s : State), s.vatLive v = true ∧ s.fld VAT_LADLE_STAT.STATE v l = 2) :=
  ⟨⟨0, 0, ladling (desc 1), desc 1, by unfold LadleReady; decide +kernel, by decide +kernel⟩,
   ⟨0, 0, ladling (desc 2), desc 2, by unfold LadleReady; decide +kernel, by decide +kernel⟩,
   ⟨0, 0, ladling (desc 3), desc 3, by unfold LadleReady; decide +kernel, by decide +kernel⟩,
   ⟨0, 0, ladling (desc 4), desc 4, by unfold LadleReady; decide +kernel, by decide +kernel⟩,
   ⟨0, 0, ladling (desc 5), desc 5, by unfold LadleReady; decide +kernel, by decide +kernel⟩,
   ⟨0, 0, ladling (desc 6), desc 6, by unfold LadleReady; decide +kernel, by decide +kernel, by decide +kernel,
    by decide +kernel⟩,
   ⟨0, 0, ladling (desc 1) (some { rd := some (0, 64, 0) }), { rd := some (0, 64, 0) }, desc 1, [], 0, 64, 0, 5,
    by decide +kernel, by decide +kernel, by decide +kernel, by decide +kernel, by decide +kernel, by decide +kernel⟩,
   ⟨0, 0, 2, ladling (desc 1) (some { wrs := [(2, 64, false)] }), { wrs := [(2, 64, false)] }, (2, 64, false),
    by decide +kernel, by decide +kernel, by decide +kernel⟩,
   ⟨0, 0, 2, ladling (desc 1) (some { wrs := [(2, 64, false)] }), { wrs := [(2, 64, false)] }, (2, 64, false),
    by decide +kernel, by decide +kernel, by decide +kernel, by decide +kernel⟩,
   ⟨0, 5, 7, 0, ready 0, _, by decide +kernel, by decide +kernel, rfl⟩,
   ⟨0, 0, ladling (desc 1), _, by decide +kernel, by decide +kernel, rfl⟩,
   ⟨0, 0, live.setFld VAT_LADLE_STAT.STATE 3 0 0, by decide +kernel, by decide +kernel⟩,
   ⟨0, 3, live.setFld VAT_LADLE_STAT.STATE 2 0 3, by decide +kernel, by decide +kernel⟩⟩

/-- States and operands that meet the hypotheses of `LadleSubmission`, clause by clause. -/
theorem witness_LadleSubmission :
    (∃ (c : CoreId) (r : RArg) (s t : State) (code seq : Nat), Ready s c (encR 0x33 r 0) ∧ r.fx = 0 ∧ r.rs2.getLsbD 4 =
      false ∧ s.signBlocked (vatOf c) (idxOf c) = false ∧ s.ladleSubmit (vatOf c) (bvBits ((s.core c).s r.rs1) 0 2)
      (lineWords ((s.core c).v (bvBits r.rs2 0 4))) false (some (idxOf c)) = (t, code, seq))
    ∧ (∃ (v : VatId) (l : LadleIx) (data : Dword) (s : State), s.vatLive v = true ∧ (s.ladle v l).stg = [])
    ∧ (∃ (v : VatId) (l : LadleIx) (w : Fin 8) (data : Dword) (s : State), s.vatLive v = true ∧ w.val ≠ 0 ∧ w.val ≠ 7 ∧
      (s.ladle v l).stg.length = w ∧ s.bit VAT_LADLE_STG_STAT.DISCARD v l = false)
    ∧ (∃ (v : VatId) (l : LadleIx) (data : Dword) (privileged : Bool) (s t : State) (seq : Nat), s.accepts v = true ∧
      s.stgTakes v l 7 = true ∧ (s.setLadle v l { s.ladle v l with stg := [] }).ladleSubmit v l ((s.ladle v l).stg ++
      [data]) privileged none = (t, 0, seq)) :=
  ⟨⟨0, ⟨1, 0, 15, 0⟩, ready (encR 0x33 ⟨1, 0, 15, 0⟩ 0), sub0.1, sub0.2.1, sub0.2.2, by unfold Ready; decide +kernel,
    by decide +kernel, by decide +kernel, by decide +kernel, by decide +kernel⟩,
   ⟨0, 3, 1, live, by decide +kernel, by decide +kernel⟩,
   ⟨0, 3, 6, 1, live.setLadle 0 3 { stg := [1, 2, 3, 4, 5, 6] }, by decide +kernel, by decide +kernel, by decide +kernel,
    by decide +kernel, by decide +kernel⟩,
   ⟨0, 0, 0, false, stg7, sub7.1, sub7.2.2, by decide +kernel, by decide +kernel, by decide +kernel⟩⟩

/-- States and operands that meet the hypotheses of `VatResetAndNetworks`, clause by clause. -/
theorem witness_VatResetAndNetworks :
    (∃ (v : VatId) (s : State), s.vatLive v = true)
    ∧ (∃ (v : VatId) (s : State), s.bit VAT_STAT.RESETTING v = true)
    ∧ (∃ (v : VatId) (px : Fin 8) (py : Fin 9) (hdr : Dword) (msg d : Nat) (s : State), s.bit VAT_ECC_INJ.ARM v = false ∧
      badHeader false hdr = false ∧ routeDir (8 * (v.val % 8) + px) (9 * (v.val / 8) + py) (bvBits hdr 0 6) (bvBits hdr 6 7)
      = some d ∧ s.credUsed 0 (routerLoc v px py + d * 2 ^ 13) (bvBits hdr 30 2) < 4)
    ∧ (∃ (pool : BitVec 4) (inst : BitVec 16) (vc : Fin 3) (s : State), 0 < s.credUsed pool.toNat inst.toNat vc)
    ∧ (∃ (v : VatId) (px : Fin 8) (py : Fin 9) (src : Nat) (p : Partial) (s : State), s.bit VAT_NET_CTL.MERGE v = false ∧
      s.partCredit v px py p = true)
    ∧ (∃ (v : VatId) (px : Fin 8) (py : Fin 9) (src : Nat) (p : Partial) (s : State), s.bit VAT_NET_CTL.MERGE v = true ∧
      s.fld VAT_NET_CTL.HOLD v ≠ 0 ∧ partialMalformed p false = false ∧ p.merged ≠ expectCount p.expect ∧ (∀ k < 8, s.slot
      (routerLoc v px py) k = none))
    ∧ (∃ (v : VatId) (px : Fin 8) (py : Fin 9) (k : Fin 8) (x : RedSlot) (s : State), s.slot (routerLoc v px py) k = some x
      ∧ x.marked = false ∧ x.time + s.fld VAT_NET_CTL.HOLD v ≤ s.fld MC_TSC.COUNT)
    ∧ (∃ (v : VatId) (px : Fin 8) (py : Fin 9) (k : Fin 8) (x : RedSlot) (p : Partial) (s : State), s.slot (routerLoc v px
      py) k = some x ∧ x.marked = true ∧ p = { x.part with wins := encodeAcc (partialValue x.part) } ∧ s.partCredit v px py
      p = true)
    ∧ (∃ (off : BitVec 16) (vats : BitVec 64) (line : Line) (s : State), off.toNat ≤ 65472)
    ∧ (∃ (v : VatId) (bits : BitVec 104) (i : BitVec 16) (msg : Nat) (s : State), bvBits bits 0 4 < 7 ∧ s.credUsed 3 i.toNat
      0 < 4) :=
  ⟨⟨0, live, by decide +kernel⟩,
   ⟨0, live.setFld VAT_STAT.RESETTING 1 0, by decide +kernel⟩,
   ⟨0, 0, 8, 0x1, 0, _, live, by decide +kernel, by decide +kernel, rfl, by decide +kernel⟩,
   ⟨3, 17, 2, { live with credOut := [(credKey 3 17 2, 4)] }, by decide +kernel⟩,
   ⟨0, 3, 4, 0, part1 3 1, live, by decide +kernel, by decide +kernel⟩,
   ⟨0, 3, 4, 0, part1 3 1, live.setFld VAT_NET_CTL.MERGE 1 0, by decide +kernel, by decide +kernel, by decide +kernel,
    by decide +kernel, by decide +kernel⟩,
   ⟨0, 3, 4, 7, ⟨part1 3 1, 0, false⟩,
    (live.setSlot (routerLoc 0 3 4) 7 (some ⟨part1 3 1, 0, false⟩)).setFld MC_TSC.COUNT 0x10000, by decide +kernel,
    by decide +kernel, by decide +kernel⟩,
   ⟨0, 3, 4, 7, ⟨part1 3 1, 0, true⟩, _, live.setSlot (routerLoc 0 3 4) 7 (some ⟨part1 3 1, 0, true⟩), by decide +kernel,
    by decide +kernel, rfl, by decide +kernel⟩,
   ⟨65472, 3, 5, live, by decide +kernel⟩,
   ⟨0, 0, 17, 0, live, by decide +kernel, by decide +kernel⟩⟩

/-- The speculation unit of vat 0 with its role, in a state, holding `x`. -/
def specUnit (role lead st : Nat) (x : SpecSt := {}) : State :=
  (((live.setFld VAT_SPEC_CTL.ROLE role 0).setFld VAT_SPEC_CTL.LEAD lead 0).setFld VAT_SPEC_STAT.STATE st 0).setSpec 0 x

def sOpen : State :=
  (((((specUnit 1 0 1).setFld VAT_SPEC_CTL.NMAX 6 0).setFld VAT_SPEC_BCFG.NBLK 4 0).setFld VAT_SPEC_BCFG.BLKLOG 4 0).setFld
    VAT_SPEC_POS.L 1 0).setFld VAT_SPEC_BCFG.NSTREAM 1 0 |>.setFld VAT_SPEC_POOLN.NCROCK 8 0
def sStart : State :=
  let s := { specUnit 1 0 0 with img := { configured := true, parts := [(0, { vatMask := 3, verifyPeer := 1 })] } }
  [(VAT_SPEC_BCFG.NSTREAM, 1), (VAT_SPEC_BCFG.BLKLOG, 4), (VAT_SPEC_BCFG.NBLK, 1), (VAT_SPEC_SAMP.TOPK, 1), (VAT_SPEC_PLEN.PLEN, 1)].foldl
    (fun s e => s.setFld e.1 e.2 0) s

/-- States and operands that meet the hypotheses of `SpeculationAndVerdicts`, clause by clause. -/
theorem witness_SpeculationAndVerdicts :
    (∃ (v : VatId) (d : Dword) (s : State), SpecReady s v ∧ s.specState v = 1 ∧ s.specRole v = 2 ∧ s.specPathHeld v = false
      ∧ cmdOp d = 1 ∧ cmdWellFormed d = true)
    ∧ (∃ (v : VatId) (d : Dword) (s : State), SpecReady s v ∧ s.specState v = 1 ∧ s.specRole v = 2 ∧ s.specPathHeld v =
      false ∧ cmdOp d = 2 ∧ cmdWellFormed d = true)
    ∧ (∃ (v : VatId) (d : Dword) (s : State), SpecReady s v ∧ s.specState v = 1 ∧ s.specRole v = 2 ∧ s.specPathHeld v =
      false ∧ cmdOp d = 4 ∧ cmdWellFormed d = true ∧ cmdReason d ≤ 1)
    ∧ (∃ (v : VatId) (d : Dword) (s : State), SpecReady s v ∧ s.specState v = 1 ∧ s.specLead v = true ∧ cmdOp d = 4 ∧
      cmdWellFormed d = true ∧ cmdReason d ≤ 1)
    ∧ (∃ (v : VatId) (d : Dword) (s : State), SpecReady s v ∧ s.specState v = 1 ∧ s.specRole v ≠ 2 ∧ cmdWellFormed d = false)
    ∧ (∃ (v : VatId) (d : Dword) (s r t u w : State) (e start n : Nat) (need : List Nat), SpecArrives s v (.open d) ∧ cmdOp
      d = 1 ∧ s.specRing v = false ∧ r = s.recvMsg (.spec s.devId v (.open d)) ∧ r.openCheck v d = none ∧ cmdRa d = false ∧
      e = (s.spec v).next ∧ start = s.fld VAT_SPEC_POS.L v ∧ n = cmdN d ∧ need = r.blkNeed v (start - 1) (start + n - 1) ∧
      start + n - 1 < s.fld VAT_SPEC_BCFG.NBLK v * 2 ^ s.fld VAT_SPEC_BCFG.BLKLOG v ∧ need.length ≤ (r.specFree v).1 +
      (r.specFree v).2 ∧ t = r.setSpec v
      { r.spec v with epochs := (r.spec v).epochs ++ [{ e := e, s := start, n := n, ra := false, g := cmdTok d }], next := nextEpoch e }
      ∧ u = (t.blkAllocAll v e false need).1 ∧ w = u.specWrite v [⟨1, u.dbufVa v e, 64, e + start * 2 ^ 32 + n * 2 ^ 64 + 0
      + cmdTok d * 2 ^ 96⟩, ⟨1, u.dbufVa v e + 64, 64, 0⟩])
    ∧ (∃ (v : VatId) (s : State) (k : Nat × Bool × Nat) (ks : List (Nat × Bool × Nat)), SpecArrives s v (.answer none) ∧
      s.specState v = 1 ∧ (s.spec v).waits = k :: ks)
    ∧ (∃ (v : VatId) (d : Dword) (s : State) (ep : SpecEpoch) (w : State), SpecArrives s v (.token d) ∧ cmdOp d = 2 ∧
      s.specRing v = false ∧ s.specState v = 1 ∧ s.specRole v = 1 ∧ cmdWellFormed d = true ∧ (s.spec v).epochs.getLast? =
      some ep ∧ ep.toks < ep.n ∧ cmdN d = ep.toks ∧ w = ((s.recvMsg (.spec s.devId v (.token d))).setSpec v
      { s.spec v with epochs := (s.spec v).epochs.dropLast ++ [{ ep with toks := ep.toks + 1 }] }).bump VAT_SPEC_PC_DRAFT v)
    ∧ (∃ (v : VatId) (d : Dword) (s : State), SpecArrives s v (.fin d) ∧ cmdOp d = 4 ∧ s.specRing v = false ∧ s.specState v
      = 1 ∧ s.specRole v = 1 ∧ cmdWellFormed d = true ∧ cmdReason d ≤ 1)
    ∧ (∃ (v : VatId) (d : Dword) (s : State) (ep : SpecEpoch) (es : List SpecEpoch) (m : SpecMsg), SpecReady s v ∧ cmdOp d =
      3 ∧ cmdWellFormed d = true ∧ s.specState v = 1 ∧ s.specNoRoom v 3 = false ∧ s.specLead v = true ∧ (s.spec v).epochs =
      ep :: es ∧ verdE d = ep.e % 2 ^ 16 ∧ ep.n ≤ ep.toks ∧ verdA d ≤ ep.n ∧ m = .verdict d (BitVec.ofNat 32 ep.e)
      (BitVec.ofNat 32 ep.s) (BitVec.ofNat 3 ep.n))
    ∧ (∃ (v : VatId) (dev : BitVec 14) (d : Dword) (e st : Word) (n : BitVec 3) (s : State) (ep : SpecEpoch) (es : List
      SpecEpoch), SpecArrives s v (.verdict d e st n) ∧ s.specState v = 1 ∧ s.specRole v = 1 ∧ s.specLead v = false ∧
      dev.toNat = s.fld VAT_SPEC_LEAD.LEAD_DEV v ∧ (s.spec v).epochs = ep :: es ∧ ep.e = e.toNat ∧ ep.s = st.toNat ∧ ep.n =
      n.toNat)
    ∧ (∃ (v : VatId) (d : Dword) (e st : Word) (n : BitVec 3) (s : State), SpecArrives s v (.verdict d e st n) ∧ s.specState
      v = 1 ∧ s.specRole v = 2)
    ∧ (∃ (v : VatId) (s : State) (ep : SpecEpoch) (es : List SpecEpoch), SpecReady s v ∧ s.specState v = 1 ∧ s.specRole v =
      1 ∧ (s.spec v).epochs = ep :: es ∧ ep.presented = false ∧ ep.n ≤ ep.toks ∧ (s.spec v).todo = [] ∧ (s.spec v).outs = []
      ∧ (s.spec v).outq.length < 32)
    ∧ (∃ (v : VatId) (s : State), s.vatLive v = true ∧ s.hasSpec v = true) :=
  ⟨⟨0, 0x11, specUnit 2 0 1, by unfold SpecReady; decide +kernel, by decide +kernel, by decide +kernel, by decide +kernel,
    by decide +kernel, by decide +kernel⟩,
   ⟨0, 0x62, specUnit 2 0 1, by unfold SpecReady; decide +kernel, by decide +kernel, by decide +kernel, by decide +kernel,
    by decide +kernel, by decide +kernel⟩,
   ⟨0, 0x104, specUnit 2 0 1, by unfold SpecReady; decide +kernel, by decide +kernel, by decide +kernel, by decide +kernel,
    by decide +kernel, by decide +kernel, by decide +kernel⟩,
   ⟨0, 0x004, specUnit 1 1 1, by unfold SpecReady; decide +kernel, by decide +kernel, by decide +kernel, by decide +kernel,
    by decide +kernel, by decide +kernel⟩,
   ⟨0, 0, specUnit 1 0 1, by unfold SpecReady; decide +kernel, by decide +kernel, by decide +kernel, by decide +kernel⟩,
   ⟨0, 0x11, sOpen, _, _, _, _, _, _, 1, _, by unfold SpecArrives SpecReady; decide +kernel, by decide +kernel,
    by decide +kernel, rfl, by decide +kernel, by decide +kernel, rfl, rfl, by decide +kernel, rfl, by decide +kernel,
    by decide +kernel, rfl, rfl, rfl⟩,
   ⟨0, specUnit 2 0 1 { waits := [(1, true, 2)] }, (1, true, 2), [], by unfold SpecArrives SpecReady; decide +kernel,
    by decide +kernel, by decide +kernel⟩,
   ⟨0, 0x02, specUnit 1 0 1 { epochs := [{ e := 1, s := 2, n := 1, ra := false, g := 0 }] },
    { e := 1, s := 2, n := 1, ra := false, g := 0 }, _, by unfold SpecArrives SpecReady; decide +kernel, by decide +kernel,
    by decide +kernel, by decide +kernel, by decide +kernel, by decide +kernel, by decide +kernel, by decide +kernel,
    by decide +kernel, rfl⟩,
   ⟨0, 0x104, specUnit 1 0 1, by unfold SpecArrives SpecReady; decide +kernel, by decide +kernel, by decide +kernel,
    by decide +kernel, by decide +kernel, by decide +kernel, by decide +kernel⟩,
   ⟨0, 0x1_00000003, specUnit 1 1 1 { epochs := [{ e := 1, s := 2, n := 1, ra := false, g := 0, toks := 1 }] },
    { e := 1, s := 2, n := 1, ra := false, g := 0, toks := 1 }, [], _, by unfold SpecReady; decide +kernel,
    by decide +kernel, by decide +kernel, by decide +kernel, by decide +kernel, by decide +kernel, by decide +kernel,
    by decide +kernel, by decide +kernel, by decide +kernel, rfl⟩,
   ⟨0, 0, 0x1_00000013, 1, 2, 1, specUnit 1 0 1 { epochs := [{ e := 1, s := 2, n := 1, ra := false, g := 0, toks := 1 }] },
    { e := 1, s := 2, n := 1, ra := false, g := 0, toks := 1 }, [], by unfold SpecArrives SpecReady; decide +kernel,
    by decide +kernel, by decide +kernel, by decide +kernel, by decide +kernel, by decide +kernel, by decide +kernel,
    by decide +kernel, by decide +kernel⟩,
   ⟨0, 0x1_00000013, 1, 2, 1, specUnit 2 0 1, by unfold SpecArrives SpecReady; decide +kernel, by decide +kernel,
    by decide +kernel⟩,
   ⟨0, specUnit 1 0 1 { epochs := [{ e := 1, s := 2, n := 1, ra := false, g := 0, toks := 1 }] },
    { e := 1, s := 2, n := 1, ra := false, g := 0, toks := 1 }, [], by unfold SpecReady; decide +kernel, by decide +kernel,
    by decide +kernel, by decide +kernel, by decide +kernel, by decide +kernel, by decide +kernel, by decide +kernel,
    by decide +kernel⟩,
   ⟨0, live, by decide +kernel, by decide +kernel⟩⟩

/-- States and operands that meet the hypotheses of `SpeculationControl`, clause by clause. -/
theorem witness_SpeculationControl :
    (∃ (v : VatId) (tag : Nat) (s : State) (o : Nat × Nat × Nat × Dword), (s.spec v).outs.find? (fun o => o.1 = tag) = some
      o)
    ∧ (∃ (v : VatId) (tag : Nat) (s : State) (o : Nat × Nat × Nat × Dword), (s.spec v).rb = none ∧ (s.spec v).outs.find?
      (fun o => o.1 = tag) = some o)
    ∧ (∃ (v : VatId) (tag upto : Nat) (ga : Dword) (s t : State), (s.spec v).rb = some (tag, upto, ga) ∧ (s.spec v).rbNext =
      none ∧ t = (s.recvReply (.specUnit v) tag).setSpec v { s.spec v with rb := none })
    ∧ (∃ (v : VatId) (s t u : State), (s.spec v).todo = [] ∧ (s.spec v).outs = [] ∧ (s.spec v).rb = none ∧ SpecReady s v ∧
      s.specState v = 0 ∧ s.specCheck v = true ∧ s.fld VAT_SPEC_PLEN.PLEN v = 1 ∧ t = s.setSpec v
      { s.spec v with epochs := [], next := 1, waits := [], outq := [], wseq := 0, rbNext := none, posted := [] } ∧ u =
      (t.setFld VAT_SPEC_POS.L 1 v).specSync v ∧ u.specRing v = false)
    ∧ (∃ (v : VatId) (s : State), SpecReady s v ∧ s.specState v = 1)
    ∧ (∃ (v : VatId) (s t : State) (n : Nat), s.accepts v = true ∧ s.hasSpec v = true ∧ s.signBlocked v 128 = false ∧
      (s.specState v = 0 ∨ s.specState v = 3) ∧ n = s.fld VAT_SPEC_BCFG.NSTREAM v * s.fld VAT_SPEC_BCFG.NBLK v * 8 ∧ t =
      s.setSpec v
      { s.spec v with epochs := [], waits := [], blocks := [], usedC := [], usedH := [], busy := none, outq := [], rb := none, rbNext := none, posted := [], todo := if n = 0 then [] else [⟨0, s.fld VAT_SPEC_BTAB.VA v, n, 0⟩] })
    ∧ (∃ (v : VatId) (data : Word) (s : State), s.vatLive v = true ∧ s.hasSpec v = true ∧ s.specState v = 0)
    ∧ (∃ (v : VatId) (data : Dword) (s : State), s.vatLive v = true ∧ s.hasSpec v = true ∧ s.specState v = 0)
    ∧ (∃ (v : VatId) (s : State), SpecReady s v ∧ s.specState v = 2 ∧ (s.spec v).outq = [] ∧ s.specRing v = false) :=
  ⟨⟨0, 3, specUnit 1 0 1 { outs := [(3, 1, 64, 0)] }, (3, 1, 64, 0), by decide +kernel⟩,
   ⟨0, 3, specUnit 1 0 1 { outs := [(3, 1, 64, 0)] }, (3, 1, 64, 0), by decide +kernel, by decide +kernel⟩,
   ⟨0, 3, 4, 64, specUnit 1 1 1 { rb := some (3, 4, 64) }, _, by decide +kernel, by decide +kernel, rfl⟩,
   ⟨0, sStart, _, _, by decide +kernel, by decide +kernel, by decide +kernel, by unfold SpecReady; decide +kernel,
    by decide +kernel, by decide +kernel, by decide +kernel, rfl, rfl, by decide +kernel⟩,
   ⟨0, specUnit 1 0 1, by unfold SpecReady; decide +kernel, by decide +kernel⟩,
   ⟨0, specUnit 1 0 3, _, _, by decide +kernel, by decide +kernel, by decide +kernel, by decide +kernel, rfl, rfl⟩,
   ⟨0, 1, specUnit 1 0 0, by decide +kernel, by decide +kernel, by decide +kernel⟩,
   ⟨0, 1, specUnit 1 0 0, by decide +kernel, by decide +kernel, by decide +kernel⟩,
   ⟨0, specUnit 1 0 2, by unfold SpecReady; decide +kernel, by decide +kernel, by decide +kernel, by decide +kernel⟩⟩

/-- Vat 0's slice holds line 0 and keeps it in its atomic buffer. -/
def sliced : State := mems.setSlice 0 { cache := [(0, ⟨0, 5, false⟩)], atomb := [⟨0, 5, false⟩] }

def rd64 : SliceReq :=
  { src := .mgmt, tag := 1, ga := 0x800000000, op := .read 64, line := 0x20000000, kind := 3, part := none, rt := true, granted := true }
def arrR : State × Nat × SliceReq := (sliced.sliceArrive 0 .mgmt 1 0 (.read 64) 0).getD (sliced, 0, rd64)
def arrA : State × Nat × SliceReq := (sliced.sliceArrive 0 .mgmt 1 0 (.atomic 8 1 2) 0).getD (sliced, 0, rd64)

def scr : State := mems.setFld VAT_CRM_CFG.CACHE_WAYS 8 0
def vict : State :=
  (((mems.setFld VAT_CRM_SHARE.WAY_MASK 3 0 0).setFld VAT_CRM_CTL.VICTIM_EN 1 0).setFld MC_TSC.COUNT 1000).setFld VAT_CRM_SHARE.QSHARE 4 0 0

/-- States and operands that meet the hypotheses of `CreamStore`, clause by clause. -/
theorem witness_CreamStore :
    (∃ (src : Agent) (tag ch l v a id n : Nat) (ga : Dword) (err : HdrErr) (s t u w : State) (q : SliceReq) (d : Line),
      s.target ga = .here a ∧ s.fatal = false ∧ s.place a = .crock ch l ∧ s.homeOf (.crock ch l) a = some v ∧ s.sliceArrive
      v src tag ga (.read n) (a / 64) = some (t, id, q) ∧ q.op = .read n ∧ (t.slice v).reading q.line id = false ∧
      t.crmRegulate v q = (u, true) ∧ u.crmLook v q err = (some d, w))
    ∧ (∃ (src : Agent) (tag p o v a id n : Nat) (ga : Dword) (err : HdrErr) (s t u w : State) (q : SliceReq), s.target ga =
      .here a ∧ s.fatal = false ∧ s.place a = .cellar p o ∧ s.homeOf (.cellar p o) a = some v ∧ s.sliceArrive v src tag ga
      (.read n) (a / 64) = some (t, id, q) ∧ q.op = .read n ∧ (t.slice v).reading q.line id = false ∧ t.crmRegulate v q =
      (u, true) ∧ u.crmLook v q err = (none, w))
    ∧ (∃ (src : Agent) (tag p o v a id : Nat) (ga : Dword) (m : Mask) (d : Line) (err : HdrErr) (s t u : State) (q :
      SliceReq), s.target ga = .here a ∧ s.fatal = false ∧ s.place a = .cellar p o ∧ s.homeOf (.cellar p o) a = some v ∧
      s.sliceArrive v src tag ga (.write m d) (a / 64) = some (t, id, q) ∧ q.op = .write m d ∧ (t.slice v).reading q.line id
      = false ∧ t.crmRegulate v q = (u, true))
    ∧ (∃ (src : Agent) (tag k off v a id n : Nat) (ga : Dword) (s t u : State) (q : SliceReq), s.target ga = .here a ∧
      s.fatal = false ∧ s.place a = .scratch k off ∧ s.homeOf (.scratch k off) a = some v ∧ s.sliceArrive v src tag ga
      (.read n) (a / 64) = some (t, id, q) ∧ t.scrCheck src k off = none ∧ t.crmRegulate v q = (u, true) ∧ (u.crmCount v
      q.rt VAT_CRM_PC_SCR).bit VAT_ECC_INJ.ARM v = false)
    ∧ (∃ (src : Agent) (tag k off v a id : Nat) (ga : Dword) (m : Mask) (d : Line) (s t u w : State) (q : SliceReq),
      s.target ga = .here a ∧ s.fatal = false ∧ s.place a = .scratch k off ∧ s.homeOf (.scratch k off) a = some v ∧
      s.sliceArrive v src tag ga (.write m d) (a / 64) = some (t, id, q) ∧ t.scrCheck src k off = none ∧ t.crmRegulate v q =
      (u, true) ∧ w = u.crmCount v q.rt VAT_CRM_PC_SCR ∧ w.bit VAT_ECC_INJ.ARM v = false)
    ∧ (∃ (src : Agent) (tag ch l v a id : Nat) (ga : Dword) (fn : Fin 10) (x e : Word) (err : HdrErr) (s t u w : State) (q :
      SliceReq) (d : Line) (b : AtomEnt), s.target ga = .here a ∧ s.fatal = false ∧ s.place a = .crock ch l ∧ s.homeOf
      (.crock ch l) a = some v ∧ s.sliceArrive v src tag ga (.atomic fn.val x e) (a / 64) = some (t, id, q) ∧ (t.slice
      v).reading q.line id = false ∧ t.crmRegulate v q = (u, true) ∧ (u.crmCount v q.rt VAT_CRM_PC_ATOM).crmLook v q err =
      (some d, w) ∧ (w.slice v).atom q.line = some b)
    ∧ (∃ (v : VatId) (id : Nat) (d : Line) (s : State) (q : SliceReq) (n : Nat), smFind (s.slice v).slots id = some q ∧
      q.granted = true ∧ q.op = .read n ∧ (s.recvMsg (.fill v id (some d))).wayMask v q.part = 0)
    ∧ (∃ (c : CoreId) (ga : Dword) (data : Line) (rtime a ch l v : Nat) (s t : State) (x : SliceSt), t = s.recvMsg (.victim
      c ga data rtime) ∧ t.target ga = .here a ∧ t.place a = .crock ch l ∧ t.homeOf (.crock ch l) a = some v ∧
      t.victimDeclined v (a / 64) (t.partOf (vatOf c)) rtime = false ∧ (t.slice v).alloc (t.wayMask v (t.partOf (vatOf c)))
      ⟨a / 64, data, false⟩ false = some x)
    ∧ (∃ (v : VatId) (j : Fin 8) (s : State), s.bit VAT_CRM_REG.EN v j = true)
    ∧ (∃ (v : VatId) (j : Fin 8) (data : Dword) (s t : State), s.bit VAT_CRM_REG.EN v j = false ∧ t = s.putFields
      [VAT_CRM_REG.PART, VAT_CRM_REG.EN, VAT_CRM_REG.RATE, VAT_CRM_REG.BURST] data v j) :=
  ⟨⟨.mgmt, 1, _, _, 0, _, arrR.2.1, 64, 0, .ok, sliced, arrR.1, (arrR.1.crmRegulate 0 arrR.2.2).1,
    ((arrR.1.crmRegulate 0 arrR.2.2).1.crmLook 0 arrR.2.2 .ok).2, arrR.2.2, 5, rfl, by decide +kernel, rfl,
    by decide +kernel, rfl, by decide +kernel, by decide +kernel, by decide +kernel, by decide +kernel⟩,
   ⟨.mgmt, 1, _, _, 0, _, _, 64, 0x800000000, .ok, mems, _, _, _, _, rfl, by decide +kernel, rfl, by decide +kernel, rfl,
    by decide +kernel, by decide +kernel, rfl, rfl⟩,
   ⟨.mgmt, 1, _, _, 0, _, _, 0x800000000, 1, 5, .ok, mems, _, _, _, rfl, by decide +kernel, rfl, by decide +kernel, rfl,
    by decide +kernel, by decide +kernel, rfl⟩,
   ⟨.mgmt, 1, _, _, 0, _, _, 64, 0x400000000, scr, _, _, _, rfl, by decide +kernel, rfl, by decide +kernel, rfl,
    by decide +kernel, rfl, by decide +kernel⟩,
   ⟨.mgmt, 1, _, _, 0, _, _, 0x400000000, 1, 5, scr, _, _, _, _, rfl, by decide +kernel, rfl, by decide +kernel, rfl,
    by decide +kernel, rfl, rfl, by decide +kernel⟩,
   ⟨.mgmt, 1, _, _, 0, _, arrA.2.1, 0, 8, 1, 2, .ok, sliced, arrA.1, (arrA.1.crmRegulate 0 arrA.2.2).1,
    (((arrA.1.crmRegulate 0 arrA.2.2).1.crmCount 0 true VAT_CRM_PC_ATOM).crmLook 0 arrA.2.2 .ok).2, arrA.2.2, 5,
    ⟨0, 5, false⟩, rfl, by decide +kernel, rfl, by decide +kernel, by decide +kernel, by decide +kernel, by decide +kernel,
    by decide +kernel, by decide +kernel⟩,
   ⟨0, 3, 7, mems.setSlice 0 { slots := [(3, rd64)] }, rd64, 64, by decide +kernel, by decide +kernel, by decide +kernel,
    by decide +kernel⟩,
   ⟨0, 0, 5, 990, _, _, _, 0, vict, _, _, rfl, rfl, rfl, by decide +kernel, by decide +kernel, rfl⟩,
   ⟨0, 7, live.setFld VAT_CRM_REG.EN 1 0 7, by decide +kernel⟩,
   ⟨0, 7, 1, live, _, by decide +kernel, rfl⟩⟩

/-- Requests for line 0 of the crock and line 0 of the cellar. -/
def crkRd : MemReq := { home := 0, id := some 1, line := 0, write := none, part := none, rt := true, ga := 0 }
def celRd : MemReq := { crkRd with line := 0x20000000 }
def crkMem : State :=
  (((mems.setFld CRK_CH_STAT.INUSE 1 0 0).setFld CRK_CH_ECCSTAT.DEAD_LAYER 7 0 0).setFld CRK_CH_STAT.STATE 0 0 0)

def tgRun : TgRun := { mode := 1, pat := 0, raw := false, base := 0, len := 1, seed := 0, t0 := 0 }
def celMem : State := ((mems.setFld CEL_STAT.STATE 3 0).setFld CEL_PCMAP.AVAIL 1 0).setFld CEL_CAP.AVAIL_MIB 65536 0
/-- A walk of partition 0 at a stage. -/
def walkAt (st : WalkStage) : Walk := { vat := 0, part := 0, vpage := 5, reqs := [], stage := st }
def ringW : RingWrite := { part := 63, words := [1], both := false, tag := some 4, back := true }

/-- States and operands that meet the hypotheses of `CrockChannels`, clause by clause. -/
theorem witness_CrockChannels :
    (∃ (ch : ChanId) (line : BitVec 21) (acts id : Nat) (r : MemReq) (s t u : State) (info : Nat), s.crkHead ch line.toNat =
      some r ∧ r.write = none ∧ r.id = some id ∧ s.crkState ch = 0 ∧ s.bit CRK_CH_ECCSTAT.FAILED (ch.val / 16) (ch.val % 16)
      = false ∧ (s.crk ch).poison = [] ∧ s.validBit r.line = true ∧ t = (State.bump { s with memq := s.memq.erase r }
      CRK_CH_PC_RD (ch.val / 16) (ch.val % 16)).bumpN CRK_CH_PC_ACT acts (ch.val / 16) (ch.val % 16) ∧ t.crkDecode ch
      line.toNat [] 2 = (u, .good, info))
    ∧ (∃ (ch : ChanId) (line : BitVec 21) (errs : List (BitVec 20)) (acts id : Nat) (r : MemReq) (s : State), s.crkHead ch
      line.toNat = some r ∧ r.write = none ∧ r.id = some id ∧ s.crkState ch = 0 ∧ s.bit CRK_CH_ECCSTAT.FAILED (ch.val / 16)
      (ch.val % 16) = false ∧ (s.crk ch).poison = [] ∧ s.validBit r.line = false)
    ∧ (∃ (ch : ChanId) (line : BitVec 21) (errs : List (BitVec 20)) (acts : Nat) (r : MemReq) (m : Mask) (d : Line) (s t :
      State), s.crkHead ch line.toNat = some r ∧ r.write = some (m, d) ∧ s.crkState ch = 0 ∧ s.bit CRK_CH_ECCSTAT.FAILED
      (ch.val / 16) (ch.val % 16) = false ∧ (s.crk ch).poison = [] ∧ s.validBit r.line = true ∧ narrowMask m = false ∧ t =
      (State.bump { s with memq := s.memq.erase r } CRK_CH_PC_WR (ch.val / 16) (ch.val % 16)).bumpN CRK_CH_PC_ACT acts
      (ch.val / 16) (ch.val % 16))
    ∧ (∃ (ch : ChanId) (s : State), (s.crkState ch = 0 ∨ s.crkState ch = 4))
    ∧ (∃ (ch : ChanId) (x : BitVec 8) (s : State), s.canon = true)
    ∧ (∃ (ch : ChanId) (s : State), s.crkState ch = 0 ∧ s.vatDark (chanVat ch) = true ∧ s.crkBusy ch = false)
    ∧ (∃ (ch : ChanId) (s : State), s.crkState ch = 3)
    ∧ (∃ (ch : ChanId) (line : BitVec 21) (errs : List (BitVec 20)) (s t : State) (a info : Nat), s.fatal = false ∧
      s.crkState ch = 0 ∧ s.bit CRK_CH_STAT.INUSE (ch.val / 16) (ch.val % 16) = true ∧ s.fld CRK_SCRUB.HOURS (ch.val / 16) ≠
      0 ∧ line.toNat < 0x7FC0000 / 64 ∧ s.crockDpa ch line.toNat = some a ∧ s.validBit a = true ∧ s.crkDecode ch line.toNat
      errs 2 = (t, .good, info))
    ∧ (∃ (k : Fin 8) (data : Dword) (s : State), min (bvBits data 0 8) 0x55 < min (bvBits data 8 8) 0x5F)
    ∧ (∃ (ch : ChanId) (data : Dword) (s t : State), data.getLsbD 16 = true ∧ s.bit CRK_CH_STAT.INUSE (ch.val / 16) (ch.val
      % 16) = false ∧ s.bit CRK_CH_STAT.KEPT (ch.val / 16) (ch.val % 16) = false ∧ t = (s.setFld CRK_CH_CTL.SR_IDLE (bvBits
      data 0 16) (ch.val / 16) (ch.val % 16)) ∧ t.crkState ch = 0)
    ∧ (∃ (ch : ChanId) (data : Dword) (s t : State), data.getLsbD 16 = false ∧ t = s.setFld CRK_CH_CTL.SR_IDLE (bvBits data
      0 16) (ch.val / 16) (ch.val % 16) ∧ t.crkState ch = 4)
    ∧ (∃ (ch : ChanId) (data : Dword) (s t : State) (k j : Nat) (r : TgRun), data.getLsbD 0 = true ∧ k = ch.val / 16 ∧ j =
      ch.val % 16 ∧ s.bit CRK_TG_STAT.BUSY k j = false ∧ t = s.putFields [CRK_TG_CTL.MODE, CRK_TG_CTL.PAT, CRK_TG_CTL.RAW]
      data k j ∧ r =
      { mode := t.fld CRK_TG_CTL.MODE k j, pat := t.fld CRK_TG_CTL.PAT k j, raw := t.bit CRK_TG_CTL.RAW k j, base := t.fld CRK_TG_BASE.BASE k j, len := t.fld CRK_TG_LEN.LEN k j, seed := t.fld CRK_TG_SEED.SEED k j, t0 := (t.reg MC_TSC).toNat }
      ∧ 1 ≤ r.mode ∧ r.mode ≤ 6 ∧ t.crkState ch = 4 ∧ 1 ≤ r.len ∧ r.base + r.len ≤ 2097152)
    ∧ (∃ (ch : ChanId) (data : Dword) (done : Nat) (errs : List (Nat × List (BitVec 20))) (s : State), data.getLsbD 1 = true)
    ∧ (∃ (ch : ChanId) (errs : List (Nat × List (BitVec 20))) (s : State) (r : TgRun), (s.crk ch).tg.run = some r) :=
  ⟨⟨0, 0, 2, 1, crkRd, { crkMem.setValid 0 with memq := [crkRd] }, _, _, _, by decide +kernel, by decide +kernel,
    by decide +kernel, by decide +kernel, by decide +kernel, by decide +kernel, by decide +kernel, rfl, rfl⟩,
   ⟨0, 0, [], 2, 1, crkRd, { crkMem with memq := [crkRd] }, by decide +kernel, by decide +kernel, by decide +kernel,
    by decide +kernel, by decide +kernel, by decide +kernel, by decide +kernel⟩,
   ⟨0, 0, [], 2, { crkRd with write := some (BitVec.allOnes 64, 5) }, BitVec.allOnes 64, 5,
    { crkMem.setValid 0 with memq := [{ crkRd with write := some (BitVec.allOnes 64, 5) }] }, _, by decide +kernel,
    by decide +kernel, by decide +kernel, by decide +kernel, by decide +kernel, by decide +kernel, by decide +kernel, rfl⟩,
   ⟨127, live.setFld CRK_CH_STAT.STATE 4 7 15, by decide +kernel⟩,
   ⟨127, 96, live, by decide +kernel⟩,
   ⟨127, live.setFld CRK_CH_STAT.STATE 0 7 15, by decide +kernel, by decide +kernel, by decide +kernel⟩,
   ⟨127, live.setFld CRK_CH_STAT.STATE 3 7 15, by decide +kernel⟩,
   ⟨0, 0, [], crkMem.setValid 0, _, 0, _, by decide +kernel, by decide +kernel, by decide +kernel, by decide +kernel,
    by decide +kernel, by decide +kernel, by decide +kernel, rfl⟩,
   ⟨7, 0x5F55, live, by decide +kernel⟩,
   ⟨127, 0x10001, live.setFld CRK_CH_STAT.STATE 0 7 15, _, by decide +kernel, by decide +kernel, by decide +kernel, rfl,
    by decide +kernel⟩,
   ⟨127, 1, live.setFld CRK_CH_STAT.STATE 4 7 15, _, by decide +kernel, rfl, by decide +kernel⟩,
   ⟨127, 0x11, (live.setFld CRK_CH_STAT.STATE 4 7 15).setFld CRK_TG_LEN.LEN 2097152 7 15, _, _, _, _, by decide +kernel,
    rfl, rfl, by decide +kernel, rfl, rfl, by decide +kernel, by decide +kernel, by decide +kernel, by decide +kernel,
    by decide +kernel⟩,
   ⟨127, 2, 0, [], live, by decide +kernel⟩,
   ⟨127, [], live.setCrk 127 { tg := { run := some tgRun } }, tgRun, by decide +kernel⟩⟩

/-- States and operands that meet the hypotheses of `Cellar`, clause by clause. -/
theorem witness_Cellar :
    (∃ (p : CelId) (pc : Fin 64) (line : BitVec 24) (errs : BitVec 72) (odec acts info : Nat) (r : MemReq) (s t u w :
      State), s.memq.find? (fun r => s.celOf p r = some (pc.val, line.toNat)) = some r ∧ r.write = none ∧ s.celState p = 3 ∧
      s.fld CEL_STAT.TLVL p ≠ 3 ∧ s.celRegulate p 1 r = (t, true) ∧ u = (State.bump { t with memq := t.memq.erase r }
      CEL_PC_RD p).bumpN CEL_PC_ACT acts p ∧ u.celDecode p pc line.toNat errs odec = (w, .good, info))
    ∧ (∃ (p : CelId) (pc : Fin 64) (line : BitVec 24) (errs : BitVec 72) (odec acts : Nat) (r : MemReq) (d : Line) (s t u :
      State), s.memq.find? (fun r => s.celOf p r = some (pc.val, line.toNat)) = some r ∧ r.write = some (BitVec.allOnes 64,
      d) ∧ s.celState p = 3 ∧ s.fld CEL_STAT.TLVL p ≠ 3 ∧ s.celRegulate p 1 r = (t, true) ∧ u = (State.bump
      { t with memq := t.memq.erase r } CEL_PC_WR p).bumpN CEL_PC_ACT acts p)
    ∧ (∃ (p : CelId) (j : Fin 8) (s : State), s.bit CEL_REG.EN p j = true)
    ∧ (∃ (p : CelId) (t : CelTrain) (s : State), s.canon = true ∧ s.celState p = 1 ∧ t.answer = true ∧ celSupported t = true
      ∧ (s.cel p).bringUp = false)
    ∧ (∃ (p : CelId) (t : CelTrain) (s : State), s.canon = true ∧ s.celState p = 1 ∧ t.answer = false)
    ∧ (∃ (p : CelId) (s : State), s.celState p = 3)
    ∧ (∃ (p : CelId) (s : State), s.celState p = 4)
    ∧ (∃ (p : CelId) (cmd : Nat) (s : State), (s.cel p).reissue ≠ some cmd)
    ∧ (∃ (p : CelId) (cmd : Nat) (s : State), (s.cel p).reissue = some cmd)
    ∧ (∃ (p : CelId) (temp : BitVec 8) (s t : State), s.celState p ≠ 0 ∧ s.celState p ≠ 6 ∧ t = s.setFld CEL_TEMP.TSTACK
      temp.toNat p)
    ∧ (∃ (p : CelId) (s : State), s.celState p ≠ 0 ∧ s.celState p ≠ 6)
    ∧ (∃ (p : CelId) (data : Dword) (s : State), min (bvBits data 0 8) 0x5A < min (bvBits data 8 8) 0x64)
    ∧ (∃ (p : CelId) (pc : Fin 64) (line : BitVec 24) (errs : BitVec 72) (odec off info : Nat) (s t : State), s.fatal =
      false ∧ s.celState p = 3 ∧ s.fld CEL_SCRUB.HOURS p ≠ 0 ∧ s.cellarOff p pc line.toNat = some off ∧ off < s.fld
      CEL_CAP.AVAIL_MIB p * 2 ^ 20 ∧ s.celDecode p pc line.toNat errs odec = (t, .good, info)) :=
  ⟨⟨0, 0, 0, 0, 0, 2, _, celRd, { celMem with memq := [celRd] }, _, _, _, by decide +kernel, by decide +kernel,
    by decide +kernel, by decide +kernel, rfl, rfl, rfl⟩,
   ⟨0, 0, 0, 0, 0, 2, { celRd with write := some (BitVec.allOnes 64, 5) }, 5,
    { celMem with memq := [{ celRd with write := some (BitVec.allOnes 64, 5) }] }, _, _, by decide +kernel,
    by decide +kernel, by decide +kernel, by decide +kernel, rfl, rfl⟩,
   ⟨7, 7, live.setFld CEL_REG.EN 1 7 7, by decide +kernel⟩,
   ⟨7, ⟨true, 24, 8, 64, [], []⟩, (live.setFld CEL_STAT.STATE 1 7).setCel 7 { bringUp := false }, by decide +kernel,
    by decide +kernel, by decide +kernel, by decide +kernel, by decide +kernel⟩,
   ⟨7, ⟨false, 24, 8, 64, [], []⟩, live.setFld CEL_STAT.STATE 1 7, by decide +kernel, by decide +kernel, by decide +kernel⟩,
   ⟨7, live.setFld CEL_STAT.STATE 3 7, by decide +kernel⟩,
   ⟨7, live.setFld CEL_STAT.STATE 4 7, by decide +kernel⟩,
   ⟨7, 3, live, by decide +kernel⟩,
   ⟨7, 3, live.setCel 7 { reissue := some 3 }, by decide +kernel⟩,
   ⟨7, 100, live.setFld CEL_STAT.STATE 3 7, _, by decide +kernel, by decide +kernel, rfl⟩,
   ⟨7, live.setFld CEL_STAT.STATE 3 7, by decide +kernel, by decide +kernel⟩,
   ⟨7, 0x645A, live, by decide +kernel⟩,
   ⟨0, 0, 0, 0, 0, 0, _, celMem, _, by decide +kernel, by decide +kernel, by decide +kernel, by decide +kernel,
    by decide +kernel, rfl⟩⟩

/-- States and operands that meet the hypotheses of `CellarTest`, clause by clause. -/
theorem witness_CellarTest :
    (∃ (p : CelId) (data : Dword) (s t u : State), data.getLsbD 0 = true ∧ s.celInUse p = false ∧ s.bit CEL_STAT.KEPT p =
      false ∧ t = s.setFld CEL_CTL.TEST 1 p ∧ t.celState p = 3 ∧ u = (t.celTgStopAll p).celFlush p)
    ∧ (∃ (p : CelId) (data : Dword) (s : State), data.getLsbD 0 = false ∧ s.celState p = 5)
    ∧ (∃ (p : CelId) (s : State), s.celState p = 2)
    ∧ (∃ (p : CelId) (c : Fin 32) (data : Dword) (s t : State) (r : TgRun), data.getLsbD 0 = true ∧ s.bit CEL_TG_STAT.BUSY p
      c = false ∧ t = s.putFields [CEL_TG_CTL.MODE, CEL_TG_CTL.PAT, CEL_TG_CTL.RAW, CEL_TG_CTL.PC] data p c ∧ r =
      { mode := t.fld CEL_TG_CTL.MODE p c, pat := t.fld CEL_TG_CTL.PAT p c, raw := t.bit CEL_TG_CTL.RAW p c, base := t.fld CEL_TG_BASE.BASE p c, len := t.fld CEL_TG_LEN.LEN p c, seed := t.fld CEL_TG_SEED.SEED p c, t0 := (t.reg MC_TSC).toNat, pc := t.fld CEL_TG_CTL.PC p c }
      ∧ 1 ≤ r.mode ∧ r.mode ≤ 6 ∧ t.celState p = 5 ∧ 1 ≤ r.len ∧ r.base + r.len ≤ t.fld CEL_INFO.CAP_GB p * 2 ^ 18)
    ∧ (∃ (p : CelId) (c : Fin 32) (data : Dword) (done : Nat) (errs : List (Nat × List (BitVec 72))) (s : State),
      data.getLsbD 1 = true)
    ∧ (∃ (p : CelId) (c : Fin 32) (errs : List (Nat × List (BitVec 72))) (s : State) (r : TgRun), (smGet {} (s.cel p).tgs
      c).run = some r)
    ∧ (∃ (v : VatId) (a : Nat) (s : State), s.vatLive v = true ∧ s.fld VAT_ECC_CTL.SECONDS v ≠ 0 ∧ s.bit VAT_ECC_INJ.ARM v =
      false)
    ∧ (∃ (data : Dword) (s : State) (n : Nat), n = (bvBits data 0 9 + 512 - s.fld MC_FQ_HEAD.HEAD) % 512 ∧ n ≤ s.fld
      MC_FQ_STAT.COUNT) :=
  ⟨⟨7, 1, live.setFld CEL_STAT.STATE 3 7, _, _, by decide +kernel, by decide +kernel, by decide +kernel, rfl,
    by decide +kernel, rfl⟩,
   ⟨7, 0, live.setFld CEL_STAT.STATE 5 7, by decide +kernel, by decide +kernel⟩,
   ⟨7, live.setFld CEL_STAT.STATE 2 7, by decide +kernel⟩,
   ⟨7, 31, 0x11, ((live.setFld CEL_STAT.STATE 5 7).setFld CEL_TG_LEN.LEN 0x40000 7 31).setFld CEL_INFO.CAP_GB 1 7, _, _,
    by decide +kernel, by decide +kernel, rfl, rfl, by decide +kernel, by decide +kernel, by decide +kernel,
    by decide +kernel, by decide +kernel⟩,
   ⟨7, 31, 2, 0, [], live, by decide +kernel⟩,
   ⟨7, 31, [], live.setCel 7 { tgs := [(31, { run := some tgRun })] }, tgRun, by decide +kernel⟩,
   ⟨0, 0, live.setFld VAT_ECC_CTL.SECONDS 1 0, by decide +kernel, by decide +kernel, by decide +kernel⟩,
   ⟨511, (live.setFld MC_FQ_STAT.COUNT 1).setFld MC_FQ_HEAD.HEAD 510, _, rfl, by decide +kernel⟩⟩

/-- States and operands that meet the hypotheses of `Walks`, clause by clause. -/
theorem witness_Walks :
    (∃ (p : PartId) (vpage : BitVec 23) (s : State) (test : Walk → Bool), test = (fun w => w.part = p.val && w.vpage =
      vpage.toNat && w.stage = .queued) ∧ s.walks.any test = true ∧ (∀ k < 16, s.walks.any (fun w => w.onWalker k) = false)
      ∧ s.bit XLT_PT_BASE.EN p = true)
    ∧ (∃ (k : Fin 16) (d : Line) (ue : Bool) (s : State) (w : Walk) (a : Nat), s.walks.find? (fun w => w.onWalker k) = some
      w ∧ w.stage = .readL1 ∧ pte (d.setWidth 64) true = .table a)
    ∧ (∃ (k : Fin 16) (d : Line) (ue : Bool) (s t : State) (w : Walk) (a : Nat), s.walks.find? (fun w => w.onWalker k) =
      some w ∧ w.stage = .readL2 a ∧ (s.recvMsg (.reply (.walker k) w.tag (.data d))).walkPage w (fun x => x.onWalker k)
      false (d.setWidth 64) = some t)
    ∧ (∃ (k : Fin 16) (s : State), s.walks.any (fun w => w.onWalker k) = true)
    ∧ (∃ (p : PartId) (vpage : BitVec 23) (s t : State) (w : Walk) (big wr : Bool) (ga : Dword) (tgt : Nat), s.walks.find?
      (fun w => w.part = p.val && w.vpage = vpage.toNat && (match w.stage with | .done _ => true | _ => false)) = some w ∧
      w.stage = .done (.page big ga wr tgt) ∧ t = ((w.reqs.map (fun r => reqVat r.src)).eraseDups).foldl (fun (s : State) v
      => s.tlbFill v
      { vpage := if big then w.vpage / 32 * 32 else w.vpage, big := big, ga := ga, w := wr, tgt := tgt, ref := true })
      { s with walks := s.walks.erase w }) :=
  ⟨⟨0, 5, { live.setFld XLT_PT_BASE.EN 1 0 with walks := [walkAt .queued] }, _, rfl, by decide +kernel, by decide +kernel,
    by decide +kernel⟩,
   ⟨0, 0x803, false, { live with walks := [walkAt .readL1] }, walkAt .readL1, _, by decide +kernel, by decide +kernel, rfl⟩,
   ⟨0, 0x800000005, false, { mems with walks := [walkAt (.readL2 2048)] }, _, walkAt (.readL2 2048), _, by decide +kernel,
    rfl, rfl⟩,
   ⟨0, { live with walks := [walkAt .readL1] }, by decide +kernel⟩,
   ⟨0, 5, { live with walks := [walkAt (.done (.page false 0x800000000 true 0))] }, _, _, _, _, _, _, rfl, rfl, rfl⟩⟩

/-- States and operands that meet the hypotheses of `TranslationUpkeep`, clause by clause. -/
theorem witness_TranslationUpkeep :
    (∃ (p : PartId) (s : State) (r : RingWrite) (t : Nat), s.ringFirst p = some r ∧ r.tag = some t ∧ r.back = true)
    ∧ (∃ (p : PartId) (s : State) (r : RingWrite) (t : Nat), s.ringFirst p = some r ∧ r.tag = some t)
    ∧ (∃ (p : PartId) (data : Dword) (s : State), (bvBits data 0 32 + 2 ^ 32 - s.fld XLT_FR_CONS.CONS p) % 2 ^ 32 ≤ (s.fld
      XLT_FR_PROD.PROD p + 2 ^ 32 - s.fld XLT_FR_CONS.CONS p) % 2 ^ 32)
    ∧ (∃ (p : PartId) (data : Dword) (s : State) (n : Nat), n = (bvBits data 0 32 + 2 ^ 32 - s.fld XLT_MIG_HEAD.HEAD p) % 2
      ^ 32 ∧ (s.fld XLT_MIG_TAIL.TAIL p + 2 ^ 32 - s.fld XLT_MIG_HEAD.HEAD p) % 2 ^ 32 ≤ n ∧ n ≤ 2 ^ s.fld XLT_MIG_CFG.MLOG
      p)
    ∧ (∃ (s : State) (g : MigPage) (gs : List MigPage) (t : State) (frame : Nat), s.mig = none ∧ s.migq = g :: gs ∧ t =
      { s with migq := gs } ∧ t.fld XLT_MIG_HEAD.HEAD g.part ≠ t.fld XLT_MIG_TAIL.TAIL g.part ∧ frame = bvBits (t.peek8
      (t.fld XLT_MIG_BASE.ADDR g.part * 8 + t.fld XLT_MIG_HEAD.HEAD g.part % 2 ^ t.fld XLT_MIG_CFG.MLOG g.part * 8)) 25 23 *
      2 ^ 25 ∧ t.mayMap g.part false 0 0 frame = true)
    ∧ (∃ (ls : List (BitVec 19 × Line)) (s t u : State) (g : MigPage) (frame : Nat), s.mig = some (g, frame) ∧ t =
      s.fillFrame frame ls ∧ t.peek8 g.l2 = g.entry ∧ u = t.pokeLine (g.l2 / 64) (byteMask (g.l2 % 64 / 8 * 8) 8) (placeAt
      (g.l2 % 64 / 8 * 8) ((g.entry &&& 5) ||| BitVec.ofNat 64 frame).toNat) (some g.part))
    ∧ (∃ (data : Dword) (s : State), s.canon = true ∧ s.bit XLT_SHOOT_STAT.BUSY = false ∧ bvBits data 54 2 ≠ 3)
    ∧ (∃ (v : VatId) (s : State) (e : Nat × List ReqId), s.shoot.find? (fun e => e.1 = v.val) = some e ∧ e.2.any (fun r =>
      (s.outstanding v).contains r) = false)
    ∧ (∃ (s : State), s.bit XLT_SHOOT_STAT.BUSY = true ∧ s.shoot = []) :=
  ⟨⟨63, { live with ringWrites := [ringW] }, ringW, 4, by decide +kernel, by decide +kernel, by decide +kernel⟩,
   ⟨63, { live with ringWrites := [ringW] }, ringW, 4, by decide +kernel, by decide +kernel⟩,
   ⟨63, 3, live.setFld XLT_FR_PROD.PROD 3 63, by decide +kernel⟩,
   ⟨63, 3, (live.setFld XLT_MIG_TAIL.TAIL 3 63).setFld XLT_MIG_CFG.MLOG 4 63, _, rfl, by decide +kernel, by decide +kernel⟩,
   ⟨{ mems.setFld XLT_MIG_TAIL.TAIL 1 0 with migq := [⟨0, 5, 0, 0⟩], mem := [(3, 0)] }, _, _, _, _, by decide +kernel, rfl,
    rfl, by decide +kernel, rfl, by decide +kernel⟩,
   ⟨[], { mems with mig := some (⟨0, 5, 0x800000000, 0⟩, 0) }, _, _, ⟨0, 5, 0x800000000, 0⟩, _, rfl, rfl, by decide +kernel,
    rfl⟩,
   ⟨0, live, by decide +kernel, by decide +kernel, by decide +kernel⟩,
   ⟨1, { live with shoot := [(1, [.churn 1 0])] }, (1, [.churn 1 0]), by decide +kernel, by decide +kernel⟩,
   ⟨live.setFld XLT_SHOOT_STAT.BUSY 1, by decide +kernel, by decide +kernel⟩⟩

/-- Port 47 in a state of its state machine. -/
def portIn (st : Nat) (x : PortSt := {}) : State := (live.setFld LNK_STAT.STATE st 47).setPort 47 x

/-- Port 47 is `ACTIVE` and the unit `u` is the next one of its stream. -/
def unitIn (u : BitVec 257) (x : PortSt := {}) : State := (portIn 6 { x with rxMask := 1 }).setLn 47 0 { rxq := [(u, false)] }

def sp1 : BitVec 8 × Nat × List (BitVec 257 × Bool) × List (List (BitVec 257 × Bool)) :=
  spreadUnits 2000 1 0 none [] ((List.range 8).map (fun j => ((portIn 6 { txMask := 1 }).ln 47 j).carry))

/-- States and operands that meet the hypotheses of `LaneFrames`, clause by clause. -/
theorem witness_LaneFrames :
    (∃ (p : PortId) (s : State), (s.portState p = 4 ∨ s.portState p = 5 ∨ s.portState p = 11))
    ∧ (∃ (p : PortId) (s t : State) (x : PortSt) (m : BitVec 8) (j : Nat) (q : List (BitVec 257 × Bool)) (acc : List (List
      (BitVec 257 × Bool))) (sw : Bool), s.portState p = 6 ∧ x = s.port p ∧ x.sent = none ∧ spreadUnits 2000 x.txMask
      x.txLane x.agreed x.txq ((List.range 8).map (fun j => (s.ln p j).carry)) = (m, j, q, acc) ∧ sw = (x.txq.any (fun u =>
      u.1.getLsbD 256 && bvBits u.1 0 4 = 8) && !q.any (fun u => u.1.getLsbD 256 && bvBits u.1 0 4 = 8)) ∧ t = (s.setPort p
      ({ x with txMask := m, txLane := j, txq := q, wswSent := x.wswSent || sw } : PortSt).narrowEnd).setFld
      LNK_FAB_STAT.WIDTH m.toNat p)
    ∧ (∃ (p : PortId) (j : LaneIx) (units : List (BitVec 257)) (e : FrameErrs) (s t u : State), s.bit LNK_LN_STAT.FRAME_LOCK
      p j = true ∧ units.length = 80 ∧ e.syms = [] ∧ e.stuff = 0 ∧ 6 ≤ e.occ.val ∧ e.occ.val < 16 ∧ e.chk = none ∧ t =
      s.bumpErr LNK_ERR0.STUFF_ERR p (n := 0) ∧ u = (((t.setLn p j
      { t.ln p j with occ := e.occ.val, good := (t.ln p j).good + 1 }).bump LNK_LN_PC_FRAMES p j).bumpN LNK_LN_PC_FECC 0 p
      j) ∧ u.portState p = 6 ∧ (u.port p).rxMask.getLsbD j = true)
    ∧ (∃ (p : PortId) (j : LaneIx) (occ : Fin 17) (s : State), s.bit LNK_LN_STAT.FRAME_LOCK p j = true)
    ∧ (∃ (p : PortId) (j : LaneIx) (type comp : BitVec 8) (second : Bool) (s : State), (type = 0 ∨ 6 ≤ type.toNat ∨ comp ≠
         type ∨ second = true))
    ∧ (∃ (p : PortId) (j : LaneIx) (hdr : BitVec 2) (s : State), s.bit LNK_LN_STAT.BLOCK_LOCK p j = false ∧ (hdr = 1 ∨ hdr =
      2))
    ∧ (∃ (p : PortId) (j : LaneIx) (hdr : BitVec 2) (s : State), s.bit LNK_LN_STAT.BLOCK_LOCK p j = false ∧ (hdr = 0 ∨ hdr =
      3))
    ∧ (∃ (p : PortId) (j : LaneIx) (hdr : BitVec 2) (s : State) (y z : LaneSt), s.bit LNK_LN_STAT.BLOCK_LOCK p j = true ∧
      (hdr = 1 ∨ hdr = 2) ∧ z = { s.ln p j with inv := (s.ln p j).inv <<< 1 } ∧ ((List.range 64).filter (fun i =>
      z.inv.getLsbD i)).length < 16 ∧ z.frameHeader (s.bit LNK_LN_STAT.FRAME_LOCK p j) hdr = (y, true, false)) :=
  ⟨⟨47, portIn 4, by decide +kernel⟩,
   ⟨47, portIn 6 { txMask := 1 }, _, { txMask := 1 }, sp1.1, sp1.2.1, sp1.2.2.1, sp1.2.2.2, _, by decide +kernel,
    by decide +kernel, by decide +kernel, by decide +kernel, rfl, rfl⟩,
   ⟨47, 0, List.replicate 80 idleUnit, ⟨[], 0, 6, none⟩, (portIn 6 { rxMask := 1 }).setFld LNK_LN_STAT.FRAME_LOCK 1 47 0, _,
    _, by decide +kernel, by decide +kernel, by decide +kernel, by decide +kernel, by decide +kernel, by decide +kernel,
    by decide +kernel, rfl, rfl, by decide +kernel, by decide +kernel⟩,
   ⟨47, 7, 16, live.setFld LNK_LN_STAT.FRAME_LOCK 1 47 7, by decide +kernel⟩,
   ⟨47, 7, 6, 0xF9, false, live, by decide +kernel⟩,
   ⟨47, 7, 1, live, by decide +kernel, by decide +kernel⟩,
   ⟨47, 7, 3, live, by decide +kernel, by decide +kernel⟩,
   ⟨47, 7, 2, (live.setFld LNK_LN_STAT.BLOCK_LOCK 1 47 7).setFld LNK_LN_STAT.FRAME_LOCK 1 47 7, _, _, by decide +kernel,
    by decide +kernel, rfl, by decide +kernel, rfl⟩⟩

/-- States and operands that meet the hypotheses of `LaneBringUp`, clause by clause. -/
theorem witness_LaneBringUp :
    (∃ (g : Fin 4) (s t : State), t = { s with refs := s.refs &&&    ((1 : BitVec 4) <<< g.val) })
    ∧ (∃ (g : Fin 4) (s t : State), t = { s with refs := s.refs ||| ((1 : BitVec 4) <<< g.val) } ∧ t.domOn (72 + g) = true)
    ∧ (∃ (p : PortId) (s : State), s.portState p = 0 ∧ s.domOn (72 + p.val / 12) = true ∧ s.bit LNK_GRP_STAT.REF_OK p = true
      ∧ s.bit LNK_GRP_STAT.SEQ_LOADED p = true ∧ s.bit LNK_GRP_STAT.SEQ_FAULT p = false)
    ∧ (∃ (p : PortId) (j : LaneIx) (trim : Nat) (s t : State), (s.ln p j).cal = true ∧ t = (s.setLn p j
      { s.ln p j with cal := false, trim := trim }).setFld LNK_LN_STAT.CAL 1 p j)
    ∧ (∃ (p : PortId) (s : State), (List.range 8).any (fun j => (s.ln p j).cal) = false ∧ (s.portState p = 0 ∨ s.portState p
      = 2 ∨ s.portState p = 7 ∨ s.portState p = 8))
    ∧ (∃ (p : PortId) (lanes : BitVec 8) (s : State), s.portState p = 2 ∧ lanes ≠ 0 ∧ (∀ j < 8, (s.ln p j).cal = false))
    ∧ (∃ (p : PortId) (j : LaneIx) (payload : BitVec 32) (sent : Nat) (inverted : Bool) (s t u : State), s.portState p = 3 ∧
      (s.fld LNK_STAT.LANES p).testBit j = true ∧ bvBits payload 0 8 = j.val ∧ bvBits payload 8 8 = 255 - j.val ∧ bvBits
      payload 24 8 = 1 ∧ 2 ≤ sent ∧ t = s.setFld LNK_LN_STAT.POL_INV (if inverted then 1 else 0) p j ∧ u = (t.setLn p j
      { t.ln p j with ready := true }).setFld LNK_LN_STAT.DONE 1 p j)
    ∧ (∃ (p : PortId) (s : State), s.portState p = 3 ∧ s.doneLanes p ≠ 0)
    ∧ (∃ (p : PortId) (s : State), (s.portState p = 5 ∨ (s.portState p = 3 ∧ s.doneLanes p = 0) ∨ (s.portState p = 4 ∧
      s.lockedLanes p = 0)))
    ∧ (∃ (p : PortId) (j : LaneIx) (rec : BitVec 128) (s : State), s.portState p = 5 ∧ (s.ln p j).cap = some rec ∧ (s.ln p
      j).capn = 2)
    ∧ (∃ (p : PortId) (j : LaneIx) (s : State), (s.portState p = 6 ∨ s.portState p = 11))
    ∧ (∃ (p : PortId) (boundary : Bool) (s t : State), s.portState p = 6 ∧ (∀ j < 8, (s.fld LNK_STAT.LANES p).testBit j =
      true → (s.ln p j).enter = none ∧ s.bit LNK_LN_STAT.FRAME_LOCK p j = false) ∧ t = s.bumpErr LNK_ERR1.LOS p) :=
  ⟨⟨3, live, _, rfl⟩,
   ⟨3, live.setFld PWR_DOM_STAT.STATE 2 75, _, rfl, by decide +kernel⟩,
   ⟨47, ((live.setFld PWR_DOM_STAT.STATE 2 75).setFld LNK_GRP_STAT.REF_OK 1 47).setFld LNK_GRP_STAT.SEQ_LOADED 1 47,
    by decide +kernel, by decide +kernel, by decide +kernel, by decide +kernel, by decide +kernel⟩,
   ⟨47, 7, 3, live.setLn 47 7 { cal := true }, _, by decide +kernel, rfl⟩,
   ⟨47, portIn 8, by decide +kernel, by decide +kernel⟩,
   ⟨47, 0x80, portIn 2, by decide +kernel, by decide +kernel, by decide +kernel⟩,
   ⟨47, 7, 0x0100F807, 2, true, (portIn 3).setFld LNK_STAT.LANES 0x80 47, _, _, by decide +kernel, by decide +kernel,
    by decide +kernel, by decide +kernel, by decide +kernel, by decide +kernel, rfl, rfl⟩,
   ⟨47, ((portIn 3).setFld LNK_STAT.LANES 0x80 47).setFld LNK_LN_STAT.DONE 1 47 7, by decide +kernel, by decide +kernel⟩,
   ⟨47, portIn 5, by decide +kernel⟩,
   ⟨47, 7, 9, (portIn 5).setLn 47 7 { cap := some 9, capn := 2 }, by decide +kernel, by decide +kernel, by decide +kernel⟩,
   ⟨47, 7, portIn 11, by decide +kernel⟩,
   ⟨47, true, portIn 6, _, by decide +kernel, by decide +kernel, rfl⟩⟩

/-- States and operands that meet the hypotheses of `LaneLowPower`, clause by clause. -/
theorem witness_LaneLowPower :
    (∃ (p : PortId) (j : LaneIx) (s t : State), s.portState p = 6 ∧ (s.port p).rxMask.getLsbD j = true ∧ (s.port p).agreed =
      none ∧ t = s.setLn p j { s.ln p j with enter := some true } ∧ (∀ i < 8, (s.port p).rxMask.getLsbD i = true → (t.ln p
      i).enter.isSome = true))
    ∧ (∃ (p : PortId) (j : LaneIx) (s t : State), s.portState p = 6 ∧ (s.port p).rxMask.getLsbD j = true ∧ (s.port p).agreed
      = none ∧ t = s.setLn p j { s.ln p j with enter := some false } ∧ (∀ i < 8, (s.port p).rxMask.getLsbD i = true → (t.ln
      p i).enter.isSome = true))
    ∧ (∃ (p : PortId) (s : State), s.portState p = 6 ∧ (s.port p).sent = none)
    ∧ (∃ (p : PortId) (s t : State), (s.portState p = 7 ∨ s.portState p = 8) ∧ t = (s.setPort p
      { s.port p with sent := none }).unlock p)
    ∧ (∃ (p : PortId) (s : State), s.portState p = 7)
    ∧ (∃ (p : PortId) (loop : BitVec 2) (s t : State), t = s.setFld LNK_CTL.LOOP loop.toNat p)
    ∧ (∃ (p : PortId) (j : LaneIx) (data : Word) (s t : State), t = s.setReg LNK_LN_EYE_CTL (data.setWidth 64 &&& 0x7FFFFC)
      p j ∧ data.getLsbD 0 = true ∧ (t.ln p j).eye = none ∧ t.eyeOk p j (t.portState p) = true ∧ t.fld LNK_LN_EYE_CTL.EYE p
      j ≠ 3 ∧ 10 ≤ t.fld LNK_LN_EYE_CTL.LOGN p j ∧ t.fld LNK_LN_EYE_CTL.LOGN p j ≤ 40)
    ∧ (∃ (p : PortId) (j : LaneIx) (data : Word) (smp err n : Nat) (s t : State), t = s.setReg LNK_LN_EYE_CTL (data.setWidth
      64 &&& 0x7FFFFC) p j ∧ data.getLsbD 1 = true ∧ (t.ln p j).eye = some n ∧ smp ≤ 2 ^ n)
    ∧ (∃ (p : PortId) (j : LaneIx) (err n : Nat) (s : State), (s.ln p j).eye = some n) :=
  ⟨⟨47, 0, portIn 6 { rxMask := 1 }, _, by decide +kernel, by decide +kernel, by decide +kernel, rfl, by decide +kernel⟩,
   ⟨47, 0, portIn 6 { rxMask := 1 }, _, by decide +kernel, by decide +kernel, by decide +kernel, rfl, by decide +kernel⟩,
   ⟨47, portIn 6, by decide +kernel, by decide +kernel⟩,
   ⟨47, portIn 8, _, by decide +kernel, rfl⟩,
   ⟨47, portIn 7, by decide +kernel⟩,
   ⟨47, 3, live, _, rfl⟩,
   ⟨47, 7, 0x140001, portIn 4, _, rfl, by decide +kernel, by decide +kernel, by decide +kernel, by decide +kernel,
    by decide +kernel, by decide +kernel⟩,
   ⟨47, 7, 2, 1024, 3, 10, live.setLn 47 7 { eye := some 10 }, _, rfl, by decide +kernel, by decide +kernel,
    by decide +kernel⟩,
   ⟨47, 7, 3, 10, live.setLn 47 7 { eye := some 10 }, by decide +kernel⟩⟩

/-- States and operands that meet the hypotheses of `LinkUnits`, clause by clause. -/
theorem witness_LinkUnits :
    (∃ (p : PortId) (bits : BitVec 256) (s t : State) (x : PortSt) (us : List (BitVec 256)) (k : Pkt) (n : Nat), s.nextUnit
      p = some (bits.setWidth 257, false) ∧ s.portState p = 6 ∧ t = s.takeUnit p ∧ x = t.port p ∧ x.discard = false ∧
      x.rxSeq = x.rxNext ∧ us = x.asm ++ [bits] ∧ k = pktOf (us.headD 0) ∧ k.vc < 3 ∧ x.held.getD k.pool 0 < 1024 ∧ n =
      (x.rxNext + 1) % 65536 ∧ us.length ≠ 1 + k.npay)
    ∧ (∃ (p : PortId) (bits : BitVec 256) (s t : State) (x : PortSt) (us : List (BitVec 256)) (k : Pkt) (n : Nat),
      s.nextUnit p = some (bits.setWidth 257, false) ∧ s.portState p = 6 ∧ t = s.takeUnit p ∧ x = t.port p ∧ x.discard =
      false ∧ x.rxSeq = x.rxNext ∧ us = x.asm ++ [bits] ∧ k = pktOf (us.headD 0) ∧ k.vc < 3 ∧ x.held.getD k.pool 0 < 1024 ∧
      n = (x.rxNext + 1) % 65536 ∧ us.length = 1 + k.npay)
    ∧ (∃ (p : PortId) (seq : BitVec 16) (u : BitVec 257) (s t : State) (x : PortSt) (d : Nat), s.nextUnit p = some (u,
      false) ∧ s.portState p = 6 ∧ u.getLsbD 256 = true ∧ isControl 2 seq.toNat u = true ∧ t = s.takeUnit p ∧ x = t.port p ∧
      x.neverSent seq.toNat = false ∧ d = (seq.toNat + 65536 - x.oldest) % 65536 ∧ 1 ≤ d ∧ d ≤ x.replay.length)
    ∧ (∃ (p : PortId) (seq : BitVec 16) (u : BitVec 257) (s t : State) (x : PortSt) (d : Nat), s.nextUnit p = some (u,
      false) ∧ s.portState p = 6 ∧ u.getLsbD 256 = true ∧ isControl 3 seq.toNat u = true ∧ t = s.takeUnit p ∧ x = t.port p ∧
      x.neverSent seq.toNat = false ∧ d = (seq.toNat + 65536 - x.oldest) % 65536 ∧ d ≤ x.replay.length)
    ∧ (∃ (p : PortId) (seq : BitVec 16) (u : BitVec 257) (s t : State), s.nextUnit p = some (u, false) ∧ s.portState p = 6 ∧
      u.getLsbD 256 = true ∧ isControl 4 seq.toNat u = true ∧ t = s.takeUnit p ∧ ((t.port p).rxNext + 65536 - seq.toNat) %
      65536 ≤ 8192)
    ∧ (∃ (p : PortId) (pool : BitVec 3) (count : BitVec 13) (u : BitVec 257) (s t : State), s.nextUnit p = some (u, false) ∧
      s.portState p = 6 ∧ u.getLsbD 256 = true ∧ isControl 5 (pool.toNat + count.toNat * 8) u = true ∧ t = s.takeUnit p ∧
      pool.toNat < 6)
    ∧ (∃ (p : PortId) (u : BitVec 257) (s : State), s.nextUnit p = some (u, false) ∧ s.portState p = 6 ∧ u.getLsbD 256 =
      true ∧ bvBits u 0 4 = 1)
    ∧ (∃ (p : PortId) (bits : BitVec 256) (u : BitVec 257) (s : State), s.nextUnit p = some (u, false) ∧ s.portState p = 6 ∧
      u.getLsbD 256 = true ∧ u.setWidth 256 = bits ∧ (bvBits u 0 4 = 0 ∨ 9 ≤ bvBits u 0 4))
    ∧ (∃ (p : PortId) (s t : State), s.portState p = 6 ∧ (s.port p).replay ≠ [] ∧ t = s.setPort p
      { (s.port p).replayFrom 0 with stalls := (s.port p).stalls + 1 })
    ∧ (∃ (p : PortId) (mask : BitVec 8) (u : BitVec 257) (s t : State), s.nextUnit p = some (u, false) ∧ s.portState p = 6 ∧
      u.getLsbD 256 = true ∧ bvBits u 0 4 = 6 ∧ bvBits u 4 8 = mask.toNat ∧ t = s.takeUnit p ∧ (t.port p).agreed = none ∧
      t.maskOk p mask = true ∧ ((t.port p).prop = none ∨ (t.port p).prop = some mask))
    ∧ (∃ (p : PortId) (mask : BitVec 8) (u : BitVec 257) (s t : State), s.nextUnit p = some (u, false) ∧ s.portState p = 6 ∧
      u.getLsbD 256 = true ∧ bvBits u 0 4 = 7 ∧ bvBits u 4 8 = mask.toNat ∧ t = s.takeUnit p ∧ (t.port p).prop = some mask)
    ∧ (∃ (p : PortId) (mask : BitVec 8) (u : BitVec 257) (s t : State), s.nextUnit p = some (u, false) ∧ s.portState p = 6 ∧
      u.getLsbD 256 = true ∧ bvBits u 0 4 = 8 ∧ t = s.takeUnit p ∧ (t.port p).agreed = some mask)
    ∧ (∃ (p : PortId) (mask : BitVec 8) (s : State), s.portState p = 6 ∧ (s.port p).prop = some mask)
    ∧ (∃ (p : PortId) (mask : BitVec 8) (s : State), s.portState p = 6 ∧ (s.port p).prop = none ∧ (s.port p).agreed = none ∧
      mask ≠ 0 ∧ mask &&& (s.port p).txMask = mask ∧ s.fld LNK_FAB_CTL.MIN_W p ≤ laneCount mask)
    ∧ (∃ (p : PortId) (s : State), s.portState p = 11 ∧ (s.fld LNK_FAB_STAT.HOLD p = 1 ∨ s.fld LNK_FAB_STAT.HOLD p = 4))
    ∧ (∃ (p : PortId) (s : State), s.portState p = 11)
    ∧ (∃ (p : PortId) (s : State), s.portState p = 6) :=
  ⟨⟨47, 0x80000000001, unitIn 0x80000000001, _, _, _, _, _, by decide +kernel, by decide +kernel, rfl, rfl,
    by decide +kernel, rfl, rfl, rfl, by decide +kernel, by decide +kernel, rfl, by decide +kernel⟩,
   ⟨47, 1, unitIn 1, _, _, _, _, _, by decide +kernel, by decide +kernel, rfl, rfl, by decide +kernel, rfl, rfl, rfl,
    by decide +kernel, by decide +kernel, rfl, rfl⟩,
   ⟨47, 1, controlUnit 2 1, unitIn (controlUnit 2 1) { replay := [⟨0, 0, none⟩], txSeq := 1 }, _, _, _, by decide +kernel,
    by decide +kernel, by decide +kernel, by decide +kernel, rfl, rfl, by decide +kernel, rfl, by decide +kernel,
    by decide +kernel⟩,
   ⟨47, 0, controlUnit 3 0, unitIn (controlUnit 3 0) { replay := [⟨0, 0, none⟩], txSeq := 1 }, _, _, _, by decide +kernel,
    by decide +kernel, by decide +kernel, by decide +kernel, rfl, rfl, by decide +kernel, rfl, by decide +kernel⟩,
   ⟨47, 0, controlUnit 4 0, unitIn (controlUnit 4 0) { rxNext := 8192 }, _, by decide +kernel, by decide +kernel,
    by decide +kernel, by decide +kernel, rfl, by decide +kernel⟩,
   ⟨47, 5, 8191, controlUnit 5 65533, unitIn (controlUnit 5 65533), _, by decide +kernel, by decide +kernel,
    by decide +kernel, by decide +kernel, rfl, by decide +kernel⟩,
   ⟨47, controlUnit 1 0, unitIn (controlUnit 1 0), by decide +kernel, by decide +kernel, by decide +kernel,
    by decide +kernel⟩,
   ⟨47, 9, controlUnit 9 0, unitIn (controlUnit 9 0), by decide +kernel, by decide +kernel, by decide +kernel,
    by decide +kernel, by decide +kernel⟩,
   ⟨47, portIn 6 { replay := [⟨0, 0, none⟩] }, _, by decide +kernel, by decide +kernel, rfl⟩,
   ⟨47, 1, controlUnit 6 1, unitIn (controlUnit 6 1) { txMask := 3 }, _, by decide +kernel, by decide +kernel,
    by decide +kernel, by decide +kernel, by decide +kernel, rfl, by decide +kernel, by decide +kernel, by decide +kernel⟩,
   ⟨47, 1, controlUnit 7 1, unitIn (controlUnit 7 1) { txMask := 3, prop := some 1 }, _, by decide +kernel,
    by decide +kernel, by decide +kernel, by decide +kernel, by decide +kernel, rfl, by decide +kernel⟩,
   ⟨47, 1, controlUnit 8 1, unitIn (controlUnit 8 1) { txMask := 3, agreed := some 1 }, _, by decide +kernel,
    by decide +kernel, by decide +kernel, by decide +kernel, rfl, by decide +kernel⟩,
   ⟨47, 1, portIn 6 { prop := some 1 }, by decide +kernel, by decide +kernel⟩,
   ⟨47, 3, portIn 6 { txMask := 7 }, by decide +kernel, by decide +kernel, by decide +kernel, by decide +kernel,
    by decide +kernel, by decide +kernel⟩,
   ⟨47, (portIn 11).setFld LNK_FAB_STAT.HOLD 4 47, by decide +kernel, by decide +kernel⟩,
   ⟨47, portIn 11, by decide +kernel⟩,
   ⟨47, portIn 6, by decide +kernel⟩⟩

/-- Site 5 has a guest die of partition 0 and is in a state of its state machine; its slice 19 is trained and holds `y`. -/
def siteIn (st : Nat) (y : SliceF := {}) (x : SiteSt := {}) : State :=
  let s := { mems with img := { mems.img with faces := [(5, { occ := 2, owner := 0 })] } }
  (((s.setFld FACE_STAT.STATE st 5).setFld FACE_CAP.TRAINED 0x80000 5).setSite 5 x).setFsl 5 19 y

/-- Ring 0's next command is the one of the words `ws`; the crock unit 0 is partition 0's. -/
def ringHas (ws : List Dword) : State := mems.setRing 0 { items := [⟨5, ws⟩] }

def keep1 : KeepEnt := { cellar := false, part := 0, base := 0, size := 1 }
/-- A host window at the whole of host memory's first 2 MiB that the management core may write. -/
def keepMap : State :=
  [(HOST_WIN_CFG.EN, 1), (HOST_WIN_CFG.OWNER, 64), (HOST_WIN_CFG.WR, 1), (HOST_WIN_SIZE.SIZE, 1), (HOST_STAT.DL_UP, 1)].foldl
    (fun s e => s.setFld e.1 e.2 0) (ringHas [7, 0, 0, 0, 0, 0, 0, 0])

/-- States and operands that meet the hypotheses of `FabricPackets`, clause by clause. -/
theorem witness_FabricPackets :
    (∃ (p : PortId) (vc : Fin 3) (g n q : Nat) (x : LinkSt) (k : Pkt) (s t : State), g = s.portGrp p ∧ x = s.link g ∧ n =
      x.exp.getD vc 0 ∧ x.rx.find? (fun e => e.2.vc = vc.val && e.2.lseq = n) = some (q, k) ∧ t = s.setLink g
      { x with rx := x.rx.erase (q, k), exp := x.exp.set vc ((n + 1) % 4096) } ∧ (t.portRec q).use ≠ 2 ∧ t.usable q = true ∧
      k.malformed = false)
    ∧ (∃ (src : BitVec 14) (txn : BitVec 16) (q : Nat) (k : Pkt) (s t : State), s.remq.find? (fun e => e.2.src = src.toNat)
      = some (q, k) ∧ k.txn = txn.toNat ∧ t = { s with remq := s.remq.erase (q, k) } ∧ t.fatal = false ∧ k.spart ≤ 64 ∧
      t.reloading = none ∧ (k.type = 1 ∨ k.type = 2 ∨ (k.type = 3 ∧ k.aop ≤ 9)) ∧ k.lines.all (fun l => t.remAdmit k.spart
      l.1) = true)
    ∧ (∃ (src : BitVec 14) (txn : BitVec 16) (q : Nat) (k : Pkt) (s t : State), s.remq.find? (fun e => e.2.src = src.toNat)
      = some (q, k) ∧ k.txn = txn.toNat ∧ t = { s with remq := s.remq.erase (q, k) } ∧ t.fatal = false ∧ k.spart ≤ 64 ∧
      t.reloading = none ∧ (k.type = 1 ∨ k.type = 2 ∨ k.type = 3) ∧ k.lines.all (fun l => t.remAdmit k.spart l.1) = false)
    ∧ (∃ (txn : BitVec 16) (e : FabSlot) (a : Agent) (tag : Nat) (s : State), s.fabSlots.find? (fun e => e.txn = txn.toNat)
      = some e ∧ e.src = some (a, tag)) :=
  ⟨⟨47, 2, _, _, 47,
    { exp := [0, 0, 4095], rx := [(47, { type := 8, vc := 2, dst := 0, src := 1, spart := 0, npay := 1, lseq := 4095 })] },
    _,
    (live.setLink 303 { exp := [0, 0, 4095], rx := [(47, { type := 8, vc := 2, dst := 0, src := 1, spart := 0, npay := 1, lseq := 4095 })] }).setFld LNK_FAB_STAT.STATE 1 47,
    _, rfl, rfl, rfl, rfl, rfl, by decide +kernel, by decide +kernel, by decide +kernel⟩,
   ⟨1, 2, _, _,
    { mems with remq := [(47, { type := 1, vc := 0, dst := 0, src := 1, spart := 64, txn := 2, addr := 0x800000000 })] }, _,
    rfl, by decide +kernel, rfl, by decide +kernel, by decide +kernel, by decide +kernel, by decide +kernel,
    by decide +kernel⟩,
   ⟨1, 2, _, _,
    { mems with remq := [(47, { type := 1, vc := 0, dst := 0, src := 1, spart := 1, txn := 2, addr := 0x800000000 })] }, _,
    rfl, by decide +kernel, rfl, by decide +kernel, by decide +kernel, by decide +kernel, by decide +kernel,
    by decide +kernel⟩,
   ⟨2, ⟨303, 2, some (.mgmt, 1), 0, false, 0⟩, .mgmt, 1, { live with fabSlots := [⟨303, 2, some (.mgmt, 1), 0, false, 0⟩] },
    by decide +kernel, by decide +kernel⟩⟩

/-- States and operands that meet the hypotheses of `FaceRequests`, clause by clause. -/
theorem witness_FaceRequests :
    (∃ (n : SiteId) (sl : Fin 20) (beats : List Beat) (s t : State) (y : SliceF) (vc : Nat), s.siteState n = 4 ∧ s.fld
      FACE_CAP.TRAINED n / 2 ^ sl.val % 2 = 1 ∧ t = s.bumpN FACE_PC_RXB beats.length n ∧ t.siteState n = 4 ∧ y = t.fsl n sl
      ∧ y.discard = false ∧ beatsOk beats = true ∧ y.rxSeq = y.rxNext ∧ vc = hVc (pktHdr (beats.map (fun b => b.data))) ∧
      (vc = 0 → y.held0 + beats.length ≤ 256) ∧ (vc = 2 → y.held2 + beats.length ≤ 16))
    ∧ (∃ (n : SiteId) (sl : Fin 20) (k : List (BitVec 128)) (h : BitVec 128) (ls : List (Dword × MemOp)) (s t : State),
      s.faceTake n sl 1 = some (k, t) ∧ h = pktHdr k ∧ (hOrd h = true → s.site n = { s.site n with reqs := [] }) ∧ ls =
      faceLines h (fun _ => .read 64) ∧ (∀ l ∈ ls, t.faceWay n l.1 false = .go))
    ∧ (∃ (n : SiteId) (sl : Fin 20) (k : List (BitVec 128)) (h : BitVec 128) (ls : List (Dword × MemOp)) (s t : State),
      s.faceTake n sl 2 = some (k, t) ∧ h = pktHdr k ∧ ls = faceLines h (fun i => .write (BitVec.allOnes 64) (BitVec.ofNat
      512 (pktData k / 2 ^ (512 * i)))) ∧ (∀ l ∈ ls, t.faceWay n l.1 true = .go))
    ∧ (∃ (n : SiteId) (sl : Fin 20) (k : List (BitVec 128)) (h : BitVec 128) (ls : List (Dword × MemOp)) (s t : State),
      s.faceTake n sl 3 = some (k, t) ∧ h = pktHdr k ∧ ls = faceLines h (fun _ => .write (BitVec.ofNat 64 (bvBits (k.getD 1
      0) 0 64)) (BitVec.ofNat 512 (pktData (k.drop 1)))) ∧ (∀ l ∈ ls, t.faceWay n l.1 true = .go))
    ∧ (∃ (n : SiteId) (sl : Fin 20) (k : List (BitVec 128)) (h : BitVec 128) (s t : State), s.faceTake n sl 4 = some (k, t)
      ∧ h = pktHdr k ∧ t.faceWay n (hAddr h) true = .go)
    ∧ (∃ (n : SiteId) (sl : Fin 20) (k : List (BitVec 128)) (ks : List (List (BitVec 128))) (x : Nat) (s t : State),
      (s.siteState n = 4 ∨ s.siteState n = 5) ∧ (s.fsl n sl).q2 = k :: ks ∧ t = (s.setFsl n sl
      { s.fsl n sl with q2 := ks }).faceFree n sl 2 k.length ∧ x = hValue (pktHdr k) ∧ (t.guestPart n).isSome = true ∧
      t.partOf (x / 256 % 64) = t.guestPart n)
    ∧ (∃ (n : SiteId) (tag : Nat) (d : Line) (s t : State) (e : SiteReq), t = (fun (u : State) =>
      { u with reasons := u.reasons.filter (fun e => !(e.1 = Agent.site n.val && e.2.1 = tag)) }) (s.recvMsg (.reply (.site
      n.val) tag (.data d))) ∧ (t.site n).reqs.find? (fun e => e.left.contains tag) = some e ∧ e.left = [tag])
    ∧ (∃ (n : SiteId) (tag : Nat) (s t : State) (e : SiteReq), t = (fun (u : State) =>
      { u with reasons := u.reasons.filter (fun e => !(e.1 = Agent.site n.val && e.2.1 = tag)) }) (s.recvMsg (.reply (.site
      n.val) tag .done)) ∧ (t.site n).reqs.find? (fun e => e.left.contains tag) = some e ∧ e.left.erase tag ≠ []) :=
  ⟨⟨5, 19, [mkBeat 1 1], siteIn 4, _, _, _, by decide +kernel, by decide +kernel, rfl, by decide +kernel, rfl,
    by decide +kernel, by decide +kernel, rfl, rfl, by decide +kernel, by decide +kernel⟩,
   ⟨5, 19, _, _, _, siteIn 4 { q0 := [[0x800000000_0000000000000001]] }, _, rfl, rfl, by decide +kernel, rfl,
    by decide +kernel⟩,
   ⟨5, 19, _, _, _, siteIn 4 { q0 := [[0x800000000_0000000000000002, 0, 0, 0, 0]] }, _, rfl, rfl, rfl, by decide +kernel⟩,
   ⟨5, 19, _, _, _, siteIn 4 { q0 := [[0x800000000_0000000000000003, 1, 0, 0, 0, 0]] }, _, rfl, rfl, rfl, by decide +kernel⟩,
   ⟨5, 19, _, _, siteIn 4 { q0 := [[0x800000000_0000000000000004]] }, _, rfl, rfl, by decide +kernel⟩,
   ⟨5, 19, _, _, _, siteIn 5 { q2 := [[5]] }, _, by decide +kernel, rfl, rfl, rfl, by decide +kernel, rfl⟩,
   ⟨5, 3, 7, siteIn 4 {} { reqs := [⟨1, 19, 0, [3], [], 0⟩] }, _, ⟨1, 19, 0, [3], [], 0⟩, rfl, by decide +kernel,
    by decide +kernel⟩,
   ⟨5, 3, siteIn 4 {} { reqs := [⟨1, 19, 0, [3, 4], [], 0⟩] }, _, ⟨1, 19, 0, [3, 4], [], 0⟩, rfl, by decide +kernel,
    by decide +kernel⟩⟩

/-- States and operands that meet the hypotheses of `FaceControl`, clause by clause. -/
theorem witness_FaceControl :
    (∃ (n : SiteId) (sl : Fin 20) (seq : BitVec 12) (s t : State) (y : SliceF), (s.siteState n = 4 ∨ s.siteState n = 5) ∧
      s.fld FACE_CAP.TRAINED n / 2 ^ sl.val % 2 = 1 ∧ t = s.bump FACE_PC_RXB n ∧ t.siteState n ≠ 3 ∧ y = t.fsl n sl ∧
      (y.ahead seq.toNat = false ∨ seq.toNat = y.txSeq) ∧ y.past seq.toNat ≤ y.replay.length)
    ∧ (∃ (n : SiteId) (sl : Fin 20) (seq : BitVec 12) (s t : State) (y : SliceF), (s.siteState n = 4 ∨ s.siteState n = 5) ∧
      s.fld FACE_CAP.TRAINED n / 2 ^ sl.val % 2 = 1 ∧ t = s.bump FACE_PC_RXB n ∧ t.siteState n ≠ 3 ∧ y = t.fsl n sl ∧
      y.ahead seq.toNat = false ∧ y.past seq.toNat ≤ y.replay.length)
    ∧ (∃ (n : SiteId) (sl : Fin 20) (seq : BitVec 12) (s t : State) (y : SliceF), (s.siteState n = 4 ∨ s.siteState n = 5) ∧
      s.fld FACE_CAP.TRAINED n / 2 ^ sl.val % 2 = 1 ∧ t = s.bump FACE_PC_RXB n ∧ t.siteState n ≠ 3 ∧ y = t.fsl n sl ∧
      (y.rxNext + 4096 - seq.toNat) % 4096 ≤ 64)
    ∧ (∃ (n : SiteId) (sl : Fin 20) (count : BitVec 14) (s t : State), (s.siteState n = 4 ∨ s.siteState n = 5) ∧ s.fld
      FACE_CAP.TRAINED n / 2 ^ sl.val % 2 = 1 ∧ t = s.bump FACE_PC_RXB n ∧ t.siteState n ≠ 3)
    ∧ (∃ (n : SiteId) (sl : Fin 20) (depth : BitVec 12) (s t u : State), s.siteState n = 3 ∧ s.fld FACE_CAP.TRAINED n / 2 ^
      sl.val % 2 = 1 ∧ t = s.bump FACE_PC_RXB n ∧ t.siteState n = 3 ∧ 68 ≤ depth.toNat ∧ u = (t.setFld FACE_CAP.VERSION 1
      n).setFld FACE_CAP.VC1_DEPTH depth.toNat n)
    ∧ (∃ (n : SiteId) (sl : Fin 20) (ctype : BitVec 4) (s : State), (s.siteState n = 3 ∨ s.siteState n = 4 ∨ s.siteState n =
      5) ∧ s.fld FACE_CAP.TRAINED n / 2 ^ sl.val % 2 = 1 ∧ (ctype = 0 ∨ 6 ≤ ctype.toNat))
    ∧ (∃ (n : SiteId) (sl : Fin 20) (s : State), (s.siteState n = 4 ∨ s.siteState n = 5) ∧ (s.fsl n sl).replay ≠ [])
    ∧ (∃ (n : SiteId) (s : State), s.siteState n ≠ 0)
    ∧ (∃ (n : SiteId) (sl : Fin 20) (s : State), s.siteState n = 3 ∧ s.fld FACE_CAP.TRAINED n / 2 ^ sl.val % 2 = 0)
    ∧ (∃ (n : SiteId) (sl : Fin 20) (k : List (BitVec 128)) (ks : List (List (BitVec 128))) (s : State), s.siteState n = 4 ∧
      (s.fsl n sl).resp = k :: ks ∧ (s.fsl n sl).room < k.length) :=
  ⟨⟨5, 19, 1, siteIn 4 { txSeq := 1, replay := [[]] }, _, _, by decide +kernel, by decide +kernel, rfl, by decide +kernel,
    rfl, by decide +kernel, by decide +kernel⟩,
   ⟨5, 19, 0, siteIn 4 { txSeq := 1, replay := [[]] }, _, _, by decide +kernel, by decide +kernel, rfl, by decide +kernel,
    rfl, by decide +kernel, by decide +kernel⟩,
   ⟨5, 19, 0, siteIn 4 { rxNext := 64 }, _, _, by decide +kernel, by decide +kernel, rfl, by decide +kernel, rfl,
    by decide +kernel⟩,
   ⟨5, 19, 0x3FFF, siteIn 5, _, by decide +kernel, by decide +kernel, rfl, by decide +kernel⟩,
   ⟨5, 19, 68, siteIn 3, _, _, by decide +kernel, by decide +kernel, rfl, by decide +kernel, by decide +kernel, rfl⟩,
   ⟨5, 19, 6, siteIn 3, by decide +kernel, by decide +kernel, by decide +kernel⟩,
   ⟨5, 19, siteIn 5 { replay := [[]] }, by decide +kernel, by decide +kernel⟩,
   ⟨5, siteIn 5, by decide +kernel⟩,
   ⟨5, 18, siteIn 3, by decide +kernel, by decide +kernel⟩,
   ⟨5, 19, [5], [], siteIn 4 { resp := [[5]] }, by decide +kernel, by decide +kernel, by decide +kernel⟩⟩

/-- States and operands that meet the hypotheses of `FaceStates`, clause by clause. -/
theorem witness_FaceStates :
    (∃ (n : SiteId) (s t : State), s.siteState n = 0 ∧ s.siteOcc n = true ∧ s.domOn 76 = true ∧ t = (s.siteTo n 1).guestOn n)
    ∧ (∃ (n : SiteId) (s : State), s.siteState n ≠ 0)
    ∧ (∃ (n : SiteId) (s : State), s.siteState n = 4)
    ∧ (∃ (n : SiteId) (s : State), s.siteState n = 5)
    ∧ (∃ (n : SiteId) (good : Bool) (s t : State), s.siteOcc n = true ∧ t = s.setFld FACE_STAT.FPG 1 n)
    ∧ (∃ (n : SiteId) (s t : State), s.siteOcc n = true ∧ t = s.setFld FACE_STAT.FPG 0 n)
    ∧ (∃ (n : SiteId) (s : State), s.siteState n = 1)
    ∧ (∃ (n : SiteId) (s : State), s.siteState n = 2)
    ∧ (∃ (n : SiteId) (s t : State), s.siteState n = 3 ∧ t = s.setSite n { s.site n with tries := (s.site n).tries + 1 })
    ∧ (∃ (n : SiteId) (s : State), s.siteOcc n = true)
    ∧ (∃ (n : SiteId) (amps : BitVec 16) (s : State), s.fld PWR_G_MEAS.V n ≠ 0) :=
  ⟨⟨5, (siteIn 0).setFld PWR_DOM_STAT.STATE 2 76, _, by decide +kernel, by decide +kernel, by decide +kernel, rfl⟩,
   ⟨5, siteIn 5, by decide +kernel⟩,
   ⟨5, siteIn 4, by decide +kernel⟩,
   ⟨5, siteIn 5, by decide +kernel⟩,
   ⟨5, true, siteIn 1, _, by decide +kernel, rfl⟩,
   ⟨5, siteIn 4, _, by decide +kernel, rfl⟩,
   ⟨5, siteIn 1, by decide +kernel⟩,
   ⟨5, siteIn 2, by decide +kernel⟩,
   ⟨5, siteIn 3, _, by decide +kernel, rfl⟩,
   ⟨5, siteIn 4, by decide +kernel⟩,
   ⟨5, 7, live.setFld PWR_G_MEAS.V 800 5, by decide +kernel⟩⟩

/-- States and operands that meet the hypotheses of `RingStaging`, clause by clause. -/
theorem witness_RingStaging :
    (∃ (r : RingId) (data : Dword) (s : State), (s.ring r).stg = [])
    ∧ (∃ (r : RingId) (i : Fin 6) (data : Dword) (s : State), s.bit CMD_STAT.DISCARD r = false ∧ (s.ring r).stg.length =
      i.val + 1)
    ∧ (∃ (r : RingId) (who : Option (Fin 64)) (data : Dword) (h : Nat) (ws : List Dword) (s t : State), s.bit
      CMD_STAT.DISCARD r = false ∧ (s.ring r).stg.length = 7 ∧ ws = (s.ring r).stg ++ [data] ∧ s.commitStatus r (who.map
      (fun n => n.val)) ws = 0 ∧ h = r.val * 2 ^ 26 + (s.ring r).seq ∧ t = (s.setFld CMD_STAT.STATUS 0 r).setRing r
      { s.ring r with stg := [], seq := ((s.ring r).seq + 1) % 2 ^ 26, items := (s.ring r).items ++ [⟨h, ws⟩] })
    ∧ (∃ (r : RingId) (who : Option (Fin 64)) (data : Dword) (op : Nat) (s : State), s.bit CMD_STAT.DISCARD r = false ∧
      (s.ring r).stg.length = 7 ∧ op = bvBits ((s.ring r).stg.getD 0 0) 0 8 ∧ (op = 0 ∨ 9 < op))
    ∧ (∃ (r : RingId) (t : Option Nat) (n : Nat) (s u : State), (s.ring r).rb = some (t, n) ∧ u = (fun (x : State) =>
      x.setRing r { x.ring r with rb := none })
      { s with hostRds := s.hostRds.filter (fun h => some h.tag ≠ t || h.ring ≠ some r.val) })
    ∧ (∃ (r : RingId) (data : Word) (s : State), (data.toNat + 2 ^ 32 - s.fld CQ_CONS.CONS r) % 2 ^ 32 ≤ (s.fld CQ_PROD.PROD
      r + 2 ^ 32 - s.fld CQ_CONS.CONS r) % 2 ^ 32)
    ∧ (∃ (r : RingId) (s : State), (s.ring r).stg = [] ∧ (s.ring r).items = [] ∧ s.mcQueue = [])
    ∧ (∃ (r : RingId) (i : RingItem) (s t : State), (s.ring r).stg = [] ∧ (s.ring r).items = [i] ∧ s.mcQueue = [] ∧ t =
      s.setRing r { s.ring r with items := [] })
    ∧ (∃ (r : RingId) (data : Word) (s t u : State), s.bit RING_CTL.EN r = false ∧ 6 ≤ bvBits data 2 4 ∧ bvBits data 2 4 ≤
      12 ∧ t = s.setFld RING_CTL.CLOG (bvBits data 2 4) r ∧ data.getLsbD 1 = true ∧ t.fld MC_BOOT_STAT.RESULT ≠ 0 ∧ u =
      t.setFld RING_CTL.EN 1 r)
    ∧ (∃ (r : RingId) (data : Word) (s : State), s.bit RING_CTL.EN r = true ∧ data.getLsbD 1 = false) :=
  ⟨⟨63, 1, live, by decide +kernel⟩,
   ⟨63, 5, 1, live.setRing 63 { stg := [1, 0, 0, 0, 0, 0] }, by decide +kernel, by decide +kernel⟩,
   ⟨0, some 0, 0, _, _, (live.setRing 0 { stg := [1, 0, 0, 0, 0, 0, 0] }).setFld RING_CTL.EN 1 0, _, by decide +kernel,
    by decide +kernel, rfl, by decide +kernel, rfl, rfl⟩,
   ⟨63, none, 0, _, live.setRing 63 { stg := [10, 0, 0, 0, 0, 0, 0] }, by decide +kernel, by decide +kernel, rfl,
    by decide +kernel⟩,
   ⟨63, some 4, 9, live.setRing 63 { rb := some (some 4, 9) }, _, by decide +kernel, rfl⟩,
   ⟨63, 9, live.setFld CQ_PROD.PROD 9 63, by decide +kernel⟩,
   ⟨63, live, by decide +kernel, by decide +kernel, by decide +kernel⟩,
   ⟨63, ⟨5, [1, 0, 0, 0, 0, 0, 0, 0]⟩, live.setRing 63 { items := [⟨5, [1, 0, 0, 0, 0, 0, 0, 0]⟩] }, _, by decide +kernel,
    by decide +kernel, by decide +kernel, rfl⟩,
   ⟨63, 0x1A, live.setFld MC_BOOT_STAT.RESULT 1, _, _, by decide +kernel, by decide +kernel, by decide +kernel, rfl,
    by decide +kernel, by decide +kernel, rfl⟩,
   ⟨63, 0, live.setFld RING_CTL.EN 1 63, by decide +kernel, by decide +kernel⟩⟩

/-- States and operands that meet the hypotheses of `RingCommands`, clause by clause. -/
theorem witness_RingCommands :
    (∃ (r : RingId) (i : RingItem) (s t : State), s.ringTake r 1 = some (i, t))
    ∧ (∃ (r : RingId) (img : List Byte) (i : RingItem) (s t : State), s.ringTake r 2 = some (i, t) ∧ t.mcRun = none ∧
      t.mcQueue = [])
    ∧ (∃ (r : RingId) (img : List Byte) (i : RingItem) (s t : State), s.ringTake r 2 = some (i, t) ∧ (t.mcRun.isSome = true
      ∨ t.mcQueue ≠ []))
    ∧ (∃ (r : RingId) (i : RingItem) (s t : State), s.ringTake r 3 = some (i, t) ∧ t.mcRun = none ∧ t.mcQueue = [] ∧ (i.w
      1).getLsbD 0 = false ∧ 1 ≤ bvBits (i.w 2) 16 16 ∧ (∀ k < bvBits (i.w 2) 16 16, t.holdsUnit (i.handle / 2 ^ 26) false
      (bvBits (i.w 1) 1 3) (bvBits (i.w 2) 0 16 + k) = true))
    ∧ (∃ (r : RingId) (copies : List (Option (List (BitVec 19 × Line)))) (i : RingItem) (s t u : State) (n : Nat) (failed :
      Bool), s.migq = [] ∧ s.mig = none ∧ s.ringTake r 4 = some (i, t) ∧ State.migrateGo r ((List.range (bvBits (i.w 2) 0
      7)).map (fun k => ((bvBits (i.w 1) 25 23 + k) % 2 ^ 23, copies.getD k none))) 0 t = (u, n, failed))
    ∧ (∃ (r : RingId) (crk : List (Nat × List (BitVec 20))) (cel : List (Nat × List (BitVec 72))) (i : RingItem) (d :
      ChanId) (k j : Nat) (idle : Dword) (s t u w : State), s.ringTake r 5 = some (i, t) ∧ (i.w 1).getLsbD 0 = false ∧ d.val
      = bvBits (i.w 1) 8 8 ∧ k = d.val / 16 ∧ j = d.val % 16 ∧ idle = BitVec.ofNat 64 (t.fld CRK_CH_CTL.SR_IDLE k j) ∧ u =
      (fun (x : State) => (((x.setFld CRK_TG_BASE.BASE (i.w 3).toNat k j).setFld CRK_TG_LEN.LEN (i.w 4).toNat k j).setFld
      CRK_TG_SEED.SEED (i.w 5).toNat k j).setFld CRK_TG_STAT.REJ 0 k j) (after (execCrkChTestWrite d (idle ||| 0x10000) t)
      t) ∧ w = (fun (x : State) => after (execCrkTgRunEnd d crk x) x) (after (execCrkTgGo d (((i.w 2 &&& 0x3F) <<< 2) ||| 1)
      u) u))
    ∧ (∃ (r : RingId) (i : RingItem) (s t : State), s.ringTake r 6 = some (i, t) ∧ t.mcRun = none ∧ t.mcQueue = [] ∧
      (t.twinState = 1 ∨ 4 ≤ t.twinState))
    ∧ (∃ (r : RingId) (i : RingItem) (s t : State), s.ringTake r 7 = some (i, t) ∧ bvBits (i.w 1) 0 44 % 32 = 0 ∧ (∀ e <
      128, t.hostMap (bvBits (i.w 1) 0 44 + 32 * e) none true ≠ none))
    ∧ (∃ (r : RingId) (i : RingItem) (k : KeepEnt) (s t : State), s.ringTake r 8 = some (i, t) ∧ smFind t.keep (bvBits (i.w
      1) 0 7) = some k)
    ∧ (∃ (r : RingId) (i : RingItem) (s t : State), s.ringTake r 9 = some (i, t) ∧ (∀ k, smFind t.keep (bvBits (i.w 1) 0 7)
      = some k → k.active = false ∨ k.lost = true))
    ∧ (∃ (img : List Byte) (bad : Bool) (s : State), s.mcRun = none)
    ∧ (∃ (img b : List Byte) (bad : Bool) (h : Option Nat) (len : Nat) (s t : State), s.mcRun = some (.image h len b) ∧
      s.imageEnd h b img bad = some t)
    ∧ (∃ (p : Nat) (s : State), s.reloading = some p) :=
  ⟨⟨0, _, ringHas [1, 0, 0, 0, 0, 0, 0, 0], _, rfl⟩,
   ⟨0, [], _, ringHas [2, 0, 0, 0, 0, 0, 0, 0], _, rfl, by decide +kernel, by decide +kernel⟩,
   ⟨0, [], _, { ringHas [2, 0, 0, 0, 0, 0, 0, 0] with mcRun := some (.zeroise 4 []) }, _, rfl, by decide +kernel⟩,
   ⟨0, _, ringHas [3, 0, 0x10000, 0, 0, 0, 0, 0], _, rfl, by decide +kernel, by decide +kernel, by decide +kernel,
    by decide +kernel, by decide +kernel⟩,
   ⟨0, [], _, ringHas [4, 0, 1, 0, 0, 0, 0, 0], _, _, _, _, by decide +kernel, by decide +kernel, rfl, rfl⟩,
   ⟨0, [], [], _, 127, _, _, _, ringHas [5, 0x7F00, 0, 0, 1, 0, 0, 0], _, _, _, rfl, by decide +kernel, rfl, rfl, rfl, rfl,
    rfl, rfl⟩,
   ⟨0, _, (ringHas [6, 0, 0, 0, 0, 0, 0, 0]).setFld TWIN_STAT.STATE 1, _, rfl, by decide +kernel, by decide +kernel,
    by decide +kernel⟩,
   ⟨0, _, keepMap, _, rfl, by decide +kernel, by decide +kernel⟩,
   ⟨0, _, keep1, { ringHas [8, 1, 0, 0, 0, 0, 0, 0] with keep := [(1, keep1)] }, _, rfl, by decide +kernel⟩,
   ⟨0, _, { ringHas [9, 1, 0, 0, 0, 0, 0, 0] with keep := [(1, { keep1 with active := false })] }, _, rfl,
    fun k h => .inl ((Option.some.inj h) ▸ rfl)⟩,
   ⟨[], true, live, by decide +kernel⟩,
   ⟨[], [], true, some 5, 0, { live with mcRun := some (.image (some 5) 0 []) }, _, by decide +kernel, rfl⟩,
   ⟨0, { live with reloading := some 0 }, by decide +kernel⟩⟩

/-- States and operands that meet the hypotheses of `HostEvents`, clause by clause. -/
theorem witness_HostEvents :
    (∃ (width speed : Nat) (flit : Bool) (s : State), (width = 4 ∨ width = 8 ∨ width = 16) ∧ 1 ≤ speed ∧ speed ≤ 6 ∧ (speed
      = 6 → flit = true) ∧ s.domOn 77 = true)
    ∧ (∃ (n : Fin 64) (p : Nat) (s t : State), s.vfPart n = some p ∧ t = (List.range 256).foldl (fun (s : State) w => if
      s.fld HOST_WIN_CFG.OWNER w = p then s.setFld HOST_WIN_CFG.EN 0 w else s) (s.ringStop p))
    ∧ (∃ (tag : Nat) (d : Line) (h : HostRd) (s : State), s.hostRds.find? (fun h => h.tag = tag) = some h)
    ∧ (∃ (tag : Nat) (c : HostCpl) (s : State), s.hostRds.find? (fun h => h.tag = tag) = none)
    ∧ (∃ (tag : Nat) (h : HostRd) (s t : State), s.hostRds.find? (fun h => h.tag = tag) = some h ∧ t =
      { s with hostRds := s.hostRds.erase h })
    ∧ (∃ (fn : Fin 64) (s t : State), s.domOn 77 = true ∧ t = s.bump HOST_PC_RXREQ) :=
  ⟨⟨16, 6, true, live.setFld PWR_DOM_STAT.STATE 2 77, by decide +kernel, by decide +kernel, by decide +kernel,
    by decide +kernel, by decide +kernel⟩,
   ⟨1, 0, { live with img := { configured := true, parts := [(0, { vatMask := 3, hostFn := 1 })] } }, _, by decide +kernel,
    rfl⟩,
   ⟨5, 7, ⟨5, 0, 1, 0, none⟩, { live with hostRds := [⟨5, 0, 1, 0, none⟩] }, by decide +kernel⟩,
   ⟨5, .ur, live, by decide +kernel⟩,
   ⟨5, ⟨5, 0, 1, 0, none⟩, { live with hostRds := [⟨5, 0, 1, 0, none⟩] }, _, by decide +kernel, rfl⟩,
   ⟨63, live.setFld PWR_DOM_STAT.STATE 2 77, _, by decide +kernel, rfl⟩⟩

/-- A twin in a state, which signs in states 3 and 4. -/
def twin (st : Nat) : State := live.setFld TWIN_STAT.STATE st
def tset (s : State) (v st : Nat) (x : Stream) : State := s.setStream v st x

def syncPkt : Pkt := { type := 2, vc := 0, dst := 0, src := 1, spart := 64, npay := 2, addr := 0x800000000, arg := 1, pay := [5, 0] }
/-- Source 5 is pending in a class, unmasked, for target 14. -/
def dicSeen (fast : Nat) : State :=
  (((live.setReg DIC_PEND 32 fast 0).setReg DIC_MASK 0 fast 0).setFld DIC_SRC.CLASS fast 5).setFld DIC_SRC.TARGETS 0x4000 5

/-- States and operands that meet the hypotheses of `TwinPairs`, clause by clause. -/
theorem witness_TwinPairs :
    (∃ (v : VatId) (st : Fin 129) (err : HdrErr) (agree : Bool) (w : Nat × Nat × Dword) (ws : List (Nat × Nat × Dword)) (i :
      Nat) (r : BitVec 124) (s t u : State), (s.stream v st).recs = w :: ws ∧ s.signOn = true ∧ r = recOf v st w ∧
      s.twinFind (recKey r) = none ∧ s.twinFree = some i ∧ t = State.setTwinEnt { s with twinNext := (i + 1) % 4096 } i
      (some ⟨true, r⟩) ∧ u = t.setStream v st { t.stream v st with recs := ws } ∧ ws ≠ [])
    ∧ (∃ (r : BitVec 124) (err : HdrErr) (agree : Bool) (p i : Nat) (rest : List (Nat × BitVec 124 × Bool)) (s t : State),
      s.twinIn = (p, r, false) :: rest ∧ s.signOn = true ∧ s.twinFind (recKey r) = none ∧ s.twinFree = some i ∧ t =
      State.setTwinEnt { s with twinNext := (i + 1) % 4096 } i (some ⟨false, r⟩))
    ∧ (∃ (r : BitVec 124) (p i : Nat) (e : TwinEnt) (rest : List (Nat × BitVec 124 × Bool)) (s t : State), s.twinIn = (p, r,
      false) :: rest ∧ s.signOn = true ∧ s.twinFind (recKey r) = some (i, e) ∧ e.own = true ∧ e.word = r ∧ t = (s.setTwinEnt
      i none).bump TWIN_PC_MATCH)
    ∧ (∃ (e : Fin 4096) (x : TwinEnt) (s : State), s.twinEnt e = some x ∧ s.signOn = true)
    ∧ (∃ (good : Bool) (s t : State), s.twinState ≠ 0 ∧ t = { s with twinBit := (s.twinBit + 1) % 123 })
    ∧ (∃ (s : State), (s.twinState = 6 ∨ s.twinState = 7))
    ∧ (∃ (s : State), s.linkPorts twinGrp = [] ∧ (s.twinState = 3 ∨ s.twinState = 4 ∨ s.twinState = 5))
    ∧ (∃ (code : BitVec 8) (peer : Option (Bool × Bool)) (p : Nat) (rest : List (Nat × Nat)) (s t : State), s.twinNotes =
      (p, code.toNat) :: rest ∧ t = { s with twinNotes := rest } ∧ 1 ≤ code.toNat ∧ code.toNat ≤ 6)
    ∧ (∃ (h : Nat) (a b : Bool) (s : State), s.twinState ≠ 2 ∧ s.mcRun = some (.sync h a b))
    ∧ (∃ (addr : Dword) (p : Nat) (k : Pkt) (rest : List (Nat × Pkt)) (s t u : State), s.twinWr = (p, k) :: rest ∧ k.addr =
      addr ∧ s.twinState = 2 ∧ t = { s with twinWr := rest } ∧ t.usable p = false ∧ t.syncWrite k = some u)
    ∧ (∃ (x : TwinSync) (s : State), s.twinSync = some x ∧ x.bad = false ∧ x.left = 0 ∧ s.twinWr = [] ∧ x.ownDone = false ∧
      (x.sink = false ∨ x.nocopy = true ∨ x.peerDone = true)) :=
  ⟨⟨63, 128, .ok, true, (1, 2, 3), [(2, 2, 3)], 0, _, (twin 4).setStream 63 128 { recs := [(1, 2, 3), (2, 2, 3)] }, _, _,
    by decide +kernel, by decide +kernel, rfl, by decide +kernel, by decide +kernel, rfl, rfl, by decide +kernel⟩,
   ⟨5, .ok, true, 47, 0, [], { twin 3 with twinIn := [(47, 5, false)] }, _, by decide +kernel, by decide +kernel,
    by decide +kernel, by decide +kernel, rfl⟩,
   ⟨5, 47, 0, ⟨true, 5⟩, [], { (twin 3).setTwinEnt 0 (some ⟨true, 5⟩) with twinIn := [(47, 5, false)] }, _,
    by decide +kernel, by decide +kernel, by decide +kernel, by decide +kernel, by decide +kernel, rfl⟩,
   ⟨4095, ⟨true, 5⟩, (twin 3).setTwinEnt 4095 (some ⟨true, 5⟩), by decide +kernel, by decide +kernel⟩,
   ⟨true, twin 3, _, by decide +kernel, rfl⟩,
   ⟨twin 7, by decide +kernel⟩,
   ⟨twin 5, by decide +kernel, by decide +kernel⟩,
   ⟨6, none, 47, [], { twin 3 with twinNotes := [(47, 6)] }, _, by decide +kernel, rfl, by decide +kernel,
    by decide +kernel⟩,
   ⟨5, true, false, { twin 3 with mcRun := some (.sync 5 true false) }, by decide +kernel, by decide +kernel⟩,
   ⟨0x800000000, 47, syncPkt, [], { mems.setFld TWIN_STAT.STATE 2 with twinWr := [(47, syncPkt)] }, _, _, by decide +kernel,
    by decide +kernel, by decide +kernel, rfl, by decide +kernel, rfl⟩,
   ⟨{ sink := false, nocopy := false }, { twin 2 with twinSync := some { sink := false, nocopy := false } },
    by decide +kernel, by decide +kernel, by decide +kernel, by decide +kernel, by decide +kernel, by decide +kernel⟩⟩

/-- States and operands that meet the hypotheses of `LedgerAudits`, clause by clause. -/
theorem witness_LedgerAudits :
    (∃ (s : State), s.domOn 77 = true ∧ s.audit = none)
    ∧ (∃ (pool : Fin 15) (inst : BitVec 16) (diff : Int) (a : Audit) (s : State), s.audit = some a ∧ poolInst pool
      inst.toNat = true ∧ s.poolPowered pool inst.toNat = true)
    ∧ (∃ (a : Audit) (s t : State), s.audit = some a ∧ a.test = none ∧ (∀ e ∈ a.reports, e.2 = 0) ∧ s.bumpRaw
      MC_LEDGER_AUDITS 0 0 0 = (t, false))
    ∧ (∃ (a : Audit) (k : Nat × Nat) (d : Int) (s t : State), s.audit = some a ∧ a.test = none ∧ (a.reports.filter (fun e =>
      !s.excluded.contains e.1 && !s.rebased.contains e.1)).find? (fun e => e.2 ≠ 0) = some (k, d) ∧ (s.ledgerMismatch k
      d).bumpRaw MC_LEDGER_AUDITS 0 0 0 = (t, false))
    ∧ (∃ (data : Word) (s t : State), data.getLsbD 0 = true ∧ t = s.setFld MC_LEDGER_CTL.TEST_POOL (bvBits data 4 4) ∧ t.bit
      MC_LEDGER_STAT.BUSY = false ∧ bvBits data 4 4 ≠ 15)
    ∧ (∃ (dst : Agent) (tag : Nat) (res : Reply) (s t : State), s.awaits dst tag = false ∧ t = s.recvMsg (.reply dst tag
      res)) :=
  ⟨⟨live.setFld PWR_DOM_STAT.STATE 2 77, by decide +kernel, by decide +kernel⟩,
   ⟨0, 0, 1, {}, { live with audit := some {} }, by decide +kernel, by decide +kernel, by decide +kernel⟩,
   ⟨{}, { live with audit := some {} }, _, by decide +kernel, by decide +kernel, by decide +kernel, rfl⟩,
   ⟨{ reports := [((3, 17), 1)] }, (3, 17), 1, { live with audit := some { reports := [((3, 17), 1)] } }, _,
    by decide +kernel, by decide +kernel, by decide +kernel, rfl⟩,
   ⟨0xE1, live, _, by decide +kernel, rfl, by decide +kernel, by decide +kernel⟩,
   ⟨.core 0, 5, .busError, live, _, by decide +kernel, rfl⟩⟩

/-- States and operands that meet the hypotheses of `EventsAndInterrupts`, clause by clause. -/
theorem witness_EventsAndInterrupts :
    (∃ (v : VatId) (src : BitVec 8) (s t : State), s.vatLive v = true ∧ t = s.recvMsg (.doorbell v src.toNat))
    ∧ (∃ (v : VatId) (data : Word) (s : State), s.vatLive v = true)
    ∧ (∃ (v : VatId) (src : Fin 16) (s : State), s.vatLive v = true ∧ src.val < 8)
    ∧ (∃ (n : Fin 256) (s : State), s.srcLevel n ≠ s.bit DIC_SRC.LEVEL n)
    ∧ (∃ (t : TargetIx) (n : Fin 256) (s u : State), s.sees t false n = true ∧ u = s.dicApply [n.val] (fun x => x.srcClaim n
      t))
    ∧ (∃ (t : TargetIx) (n : Fin 256) (s u : State), s.sees t true n = true ∧ u = s.dicApply [n.val] (fun x => x.srcClaim n
      t))
    ∧ (∃ (t : TargetIx) (fast : Bool) (data : Word) (n : Nat) (s : State), n = bvBits data 0 8 ∧ s.bit DIC_SRC.INSVC n =
      true ∧ s.fld DIC_SRC.OWNER n = t.val ∧ s.srcFast n = fast)
    ∧ (∃ (fast : Bool) (data : Word) (ns : List Nat) (s : State), ns = (s.bankWord fast (bvBits data 0 2)).filter (fun n =>
      s.bit DIC_SRC.LEVEL n && !s.bit DIC_SRC.INSVC n))
    ∧ (∃ (n : Fin 256) (data : Dword) (s : State), n.val < 234)
    ∧ (∃ (t : TargetIx) (fast : Bool) (s u : State) (x : Nat) (auto : List Nat), (s.dicTgt t fast).timer = some x ∧
      s.dicDeliver t fast = (u, auto))
    ∧ (∃ (n : Fin 256) (s : State), s.bit DIC_SRC.INSVC n = true ∧ s.fld DIC_SRC.OWNER n = 15) :=
  ⟨⟨1, 255, live, _, by decide +kernel, rfl⟩,
   ⟨1, 255, live, by decide +kernel⟩,
   ⟨1, 7, live, by decide +kernel, by decide +kernel⟩,
   ⟨193, live.setFld MC_FQ_STAT.COUNT 1, by decide +kernel⟩,
   ⟨14, 5, dicSeen 0, _, by decide +kernel, rfl⟩,
   ⟨14, 5, dicSeen 1, _, by decide +kernel, rfl⟩,
   ⟨14, true, 5, _, ((dicSeen 1).setFld DIC_SRC.INSVC 1 5).setFld DIC_SRC.OWNER 14 5, rfl, by decide +kernel,
    by decide +kernel, by decide +kernel⟩,
   ⟨true, 3, _, live, rfl⟩,
   ⟨233, 5, live, by decide +kernel⟩,
   ⟨14, true, live.setDicTgt 14 true { timer := some 5 }, _, 5, _, by decide +kernel, rfl⟩,
   ⟨255, (live.setFld DIC_SRC.INSVC 1 255).setFld DIC_SRC.OWNER 15 255, by decide +kernel, by decide +kernel⟩⟩

/-- Both supplies are good and no trip has occurred. -/
def supplied : State := { live with sup := { aux := true, pwrOk := true } }
def regOfOff (off : Nat) : RegAt := (regFind off).getD ⟨MC_TSC, [], 0, 0, 0, 0⟩
/-- Vat 0 and the management core's units are powered; the host link is up. -/
def regsOn : State := [77, 78, 79].foldl (fun s d => s.setFld PWR_DOM_STAT.STATE 2 d) (live.setFld HOST_STAT.DL_UP 1)

/-- States and operands that meet the hypotheses of `PowerLoops`, clause by clause. -/
theorem witness_PowerLoops :
    (∃ (v : VatId) (b : Fin 1025) (s : State) (a want x hw code : Nat), s.domState v = 2 ∧ a = s.fld PWR_VAT_V.APPLIED v ∧
      want = s.vatWant v b ∧ (code, hw) = lowestCap (s.hwCaps v) ∧ x = loopSet want (s.fld PWR_VAT_V.FLOOR v) (s.fld
      PWR_VAT_V.CAP v) hw ∧ s.fld PWR_VAT_V.FLOOR v ≤ x ∧ want ≤ x)
    ∧ (∃ (bodra guest gloss : BitVec 16) (s t u : State) (cap : Nat), t = ((s.setFld PWR_MEAS.BODRA bodra.toNat).setFld
      PWR_MEAS.GUEST guest.toNat).setFld PWR_MEAS.GLOSS gloss.toNat ∧ cap = t.fld PWR_LIMIT.DEVCAP ∧ u =
      { t with sup := { t.sup with above := t.sup.above && decide (t.limit10 < bodra.toNat) } })
    ∧ (∃ (s : State), s.fld PWR_LIMIT.DEVCAP = 10 ∧ s.limit10 < s.fld PWR_MEAS.BODRA)
    ∧ (∃ (v : VatId) (c : Nat) (s : State), (s.vatPow v).dieCap = some c ∧ s.throt - 2 ≤ s.vatTj v)
    ∧ (∃ (v : VatId) (amps : BitVec 16) (s : State), s.domState v = 2 ∧ 240 ≤ amps.toNat)
    ∧ (∃ (n : Fin 136) (temp : BitVec 8) (s t : State), 128 ≤ n.val ∧ s.bit PWR_SENS.FAILED n = false ∧ degC temp.toNat <
      105 ∧ t = (s.setFld PWR_SENS.TEMP temp.toNat n).setFld PWR_SENS.PEAK (hotter (s.fld PWR_SENS.PEAK n) temp.toNat) n ∧
      t.bit PWR_SENS.FAILED n = false)
    ∧ (∃ (v : VatId) (data : Dword) (s : State), 10 ≤ bvBits data 0 8 ∧ bvBits data 0 8 ≤ bvBits data 8 8 ∧ bvBits data 8 8
      ≤ 70)
    ∧ (∃ (n : SiteId) (data : Word) (s t : State), 20 ≤ bvBits data 0 8 ∧ bvBits data 0 8 ≤ 100 ∧ t = s.setFld
      PWR_G_CFG.VSET (bvBits data 0 8) n) :=
  ⟨⟨0, 1024,
    (((live.setFld PWR_VAT_V.APPLIED 30 0).setFld PWR_VAT_V.FLOOR 10 0).setFld PWR_VAT_V.CAP 70 0).setFld PWR_LIMIT.DEVCAP 70,
    _, _, _, _, _, by decide +kernel, rfl, rfl, rfl, rfl, by decide +kernel, by decide +kernel⟩,
   ⟨100, 5, 6, live, _, _, _, rfl, rfl, rfl⟩,
   ⟨(live.setFld PWR_LIMIT.DEVCAP 10).setFld PWR_MEAS.BODRA 60000, by decide +kernel, by decide +kernel⟩,
   ⟨0, 40, (live.setVatPow 0 { dieCap := some 40 }).setFld PWR_VAT_V.TJ 100 0, by decide +kernel, by decide +kernel⟩,
   ⟨0, 240, live, by decide +kernel, by decide +kernel⟩,
   ⟨135, 104, live, _, by decide +kernel, by decide +kernel, by decide +kernel, rfl, by decide +kernel⟩,
   ⟨63, 0x460A, live, by decide +kernel, by decide +kernel, by decide +kernel⟩,
   ⟨5, 100, live, _, by decide +kernel, by decide +kernel, rfl⟩⟩

/-- States and operands that meet the hypotheses of `PowerDomains`, clause by clause. -/
theorem witness_PowerDomains :
    (∃ (d : DomId) (s : State), s.domState d ≠ 1 ∧ s.domState d ≠ 3 ∧ s.reqOk d true = true)
    ∧ (∃ (d : DomId) (s : State), s.domState d ≠ 1 ∧ s.domState d ≠ 3 ∧ s.reqOk d false = true)
    ∧ (∃ (d : DomId) (s : State), (s.domState d = 1 ∨ s.domState d = 3))
    ∧ (∃ (d : DomId) (s t : State), s.domState d = 1 ∧ t = (s.setFld PWR_DOM_STAT.STATE 2 d).domBegin d)
    ∧ (∃ (d : DomId) (s : State), s.domState d = 3 ∧ (s.drainHome d).drained d = true)
    ∧ (∃ (d : DomId) (data : Word) (s t : State), t = s.setFld PWR_DOM_SHADOW.STATE (bvBits data 0 3) d)
    ∧ (∃ (d : DomId) (s : State), s.fld PWR_DOM_SHADOW.STATE d ≠ s.domState d)
    ∧ (∃ (k : Fin 8) (why : RegReason) (s t : State), t = (List.range 16).foldl (fun (s : State) j => s.setFld
      CRK_CH_ECCSTAT.FAILED 1 k j) s)
    ∧ (∃ (d : DomId) (why : RegReason) (s t : State), 64 ≤ d.val ∧ d.val < 77 ∧ (s.domState d = 1 ∨ s.domState d = 2 ∨
      s.domState d = 3) ∧ t = ((s.setFld PWR_DOM_STAT.STATE 4 d).setFld PWR_DOM_STAT.REASON (reasonCode why) d).setFld
      PWR_EVT.REG 1)
    ∧ (∃ (noCrk : BitVec 128) (noCel : BitVec 8) (s t u : State), s.sup.pwrOk = true ∧ t = s.finishWrites ∧ u = t.powerDown
      (t.sup.lost ++ (t.keep.filter (fun (_, k) => if k.cellar then noCel.getLsbD k.pos else (t.chanSet k.region).any (fun c
      => noCrk.getLsbD c))).map Prod.fst))
    ∧ (∃ (src : BitVec 12) (temp : BitVec 8) (mram : Fin 4) (s t u : State), s.sup.pwrOk = true ∧ s.sup.tripped = false ∧
      s.tripSrc src.toNat = true ∧ 120 ≤ degC temp.toNat ∧ t = s.setReg PWR_TRIP_REC (BitVec.ofNat 64 (1 + mram.val * 2 +
      src.toNat * 2 ^ 4 + temp.toNat * 2 ^ 16 + bvBits (s.reg MC_TSC) 0 32 * 2 ^ 32)) ∧ u = t.powerDown (t.keep.map
      Prod.fst)) :=
  ⟨⟨75, live, by decide +kernel, by decide +kernel, by decide +kernel⟩,
   ⟨75, live.setFld PWR_DOM_STAT.STATE 2 75, by decide +kernel, by decide +kernel, by decide +kernel⟩,
   ⟨79, live.setFld PWR_DOM_STAT.STATE 3 79, by decide +kernel⟩,
   ⟨79, live.setFld PWR_DOM_STAT.STATE 1 79, _, by decide +kernel, rfl⟩,
   ⟨76, live.setFld PWR_DOM_STAT.STATE 3 76, by decide +kernel, by decide +kernel⟩,
   ⟨79, 4, live, _, rfl⟩,
   ⟨79, (live.setFld PWR_DOM_SHADOW.STATE 4 79).setFld PWR_DOM_STAT.STATE 2 79, by decide +kernel⟩,
   ⟨7, .overcurrent, live, _, rfl⟩,
   ⟨76, .undervoltage, live.setFld PWR_DOM_STAT.STATE 3 76, _, by decide +kernel, by decide +kernel, by decide +kernel, rfl⟩,
   ⟨0, 0, supplied, _, _, by decide +kernel, rfl, rfl⟩,
   ⟨0x800, 125, 3, supplied, _, _, by decide +kernel, by decide +kernel, by decide +kernel, by decide +kernel, rfl, rfl⟩⟩

/-- States and operands that meet the hypotheses of `SupplyAndStart`, clause by clause. -/
theorem witness_SupplyAndStart :
    (∃ (s : State), s.sup.aux = false)
    ∧ (∃ (s t : State), t =
      { ({} : State) with pending := s.pending, free := s.free, refs := s.refs, keep := s.keep, mram := s.mram, regs := s.regs.filter (fun e => MC_JRNL.addr ≤ e.1 && e.1 < MC_JRNL.addr + 0x10000) })
    ∧ (∃ (vret : Bool) (noCel : BitVec 8) (s : State), s.sup.aux = true ∧ s.sup.pwrOk = false)
    ∧ (∃ (s t : State), s.sup.pwrOk = true ∧ s.sup.tripped = false ∧ t = s.finishWrites.powerDown s.finishWrites.sup.lost)
    ∧ (∃ (s : State), s.sup.pwrOk = true ∧ s.sup.refLost = false)
    ∧ (∃ (r : StartRun) (c : Nat) (s : State), s.sup.due = some c ∧ s.sup.pwrOk = true ∧ s.sup.tripped = false)
    ∧ (∃ (v : VatId) (s : State), (s.domState v = 2 ∨ s.domState v = 3) ∧ s.bit VAT_TEST_STAT.BUSY v = false)
    ∧ (∃ (v : VatId) (fails : BitVec 72) (s : State) (f : Nat), s.bit VAT_TEST_STAT.BUSY v = true ∧ f = (fails &&&
         BitVec.ofNat 72 (s.fld VAT_TEST_SKIP0.SKIP v + s.fld VAT_TEST_SKIP1.SKIP v * 2 ^ 64)).toNat)
    ∧ (∃ (s t : State), s.topoRun = true ∧ t = (s.topoFields.setFld MC_TOPO_STAT.DONE 1).setFld MC_TOPO_STAT.PASS 0) :=
  ⟨⟨live, by decide +kernel⟩,
   ⟨live, _, rfl⟩,
   ⟨true, 0, { live with sup := { aux := true } }, by decide +kernel, by decide +kernel⟩,
   ⟨supplied, _, by decide +kernel, by decide +kernel, rfl⟩,
   ⟨supplied, by decide +kernel, by decide +kernel⟩,
   ⟨{}, 1, { live with sup := { aux := true, pwrOk := true, due := some 1 } }, by decide +kernel, by decide +kernel,
    by decide +kernel⟩,
   ⟨0, live, by decide +kernel, by decide +kernel⟩,
   ⟨0, 3, live.setFld VAT_TEST_STAT.BUSY 1 0, _, by decide +kernel, rfl⟩,
   ⟨{ live with topoRun := true }, _, by decide +kernel, rfl⟩⟩

/-- States and operands that meet the hypotheses of `SidebandAndJtag`, clause by clause. -/
theorem witness_SidebandAndJtag :
    (∃ (off : Word) (size : SbSize) (r : RegAt) (s : State), s.sup.aux = true ∧ sbFind off.toNat = some r ∧ s.sbOn r = true
      ∧ sbBytes size * 8 = r.reg.width ∧ r.reg ≠ PWR_SENS)
    ∧ (∃ (off : Word) (size : SbSize) (s : State), s.sup.aux = true ∧ sbFind off.toNat = none)
    ∧ (∃ (off data : Word) (s : State), s.sup.aux = true ∧ off.toNat = MC_BOOT_CTL.base)
    ∧ (∃ (off data : Word) (s : State), s.sup.aux = true ∧ off.toNat ≠ MC_BOOT_CTL.base)
    ∧ (∃ (s : State), s.sup.aux = true)
    ∧ (∃ (s : State), s.sup.aux = true)
    ∧ (∃ (code : BitVec 8) (s : State), s.sup.aux = true ∧ 3 ≤ code.toNat ∧ (code.toNat < 8 ∨ 13 < code.toNat) ∧ code.toNat
      ≠ 0x10 ∧ code.toNat ≠ 0x20 ∧ code.toNat ≠ 0x21) :=
  ⟨⟨0x301018, .eight, regOfOff 0x301018, supplied, by decide +kernel, by decide +kernel, by decide +kernel,
    by decide +kernel, by decide +kernel⟩,
   ⟨0x8000, .eight, supplied, by decide +kernel, by decide +kernel⟩,
   ⟨0xB010, 1, supplied, by decide +kernel, by decide +kernel⟩,
   ⟨0x8000, 1, supplied, by decide +kernel, by decide +kernel⟩,
   ⟨supplied, by decide +kernel⟩,
   ⟨supplied, by decide +kernel⟩,
   ⟨0xFF, supplied, by decide +kernel, by decide +kernel, by decide +kernel, by decide +kernel, by decide +kernel,
    by decide +kernel⟩⟩

/-- States and operands that meet the hypotheses of `RegisterAccess`, clause by clause. -/
theorem witness_RegisterAccess :
    (∃ (src : Agent) (tag off size : Nat) (ga data : Dword) (r : RegAt) (s : State), regOffset ga = some off ∧ s.regMay src
      off true = true ∧ s.regHit off size = .at r ∧ s.regDark (regAlias off) = false ∧ s.regHidden src (regAlias off) =
      false ∧ s.regHeld (regAlias off) = false ∧ wrTable.find? (fun e => e.1 = r.reg) = none)
    ∧ (∃ (src : Agent) (tag off size : Nat) (ga data : Dword) (r : RegAt) (f : Reg × WrAct) (s t : State), regOffset ga =
      some off ∧ s.regMay src off true = true ∧ s.regHit off size = .at r ∧ s.regDark (regAlias off) = false ∧ s.regHidden
      src (regAlias off) = false ∧ s.regHeld (regAlias off) = false ∧ wrTable.find? (fun e => e.1 = r.reg) = some f ∧ f.2 s
      src r (if size = 4 then BitVec.ofNat 64 (bvBits data 0 32) else data) = some t)
    ∧ (∃ (src : Agent) (tag off size : Nat) (ga : Dword) (r : RegAt) (s : State), regOffset ga = some off ∧ s.regMay src off
      false = true ∧ s.regHit off size = .at r ∧ s.regDark (regAlias off) = false ∧ s.regHidden src (regAlias off) = false ∧
      s.regHeld (regAlias off) = false ∧ rdTable.find? (fun e => e.1 = r.reg) = none ∧ r.reg ≠ DIC_CLAIM ∧ r.reg ≠
      DIC_FCLAIM)
    ∧ (∃ (src : Agent) (tag off size : Nat) (ga data : Dword) (s : State), regOffset ga = some off)
    ∧ (∃ (src : Agent) (tag off size : Nat) (ga data : Dword) (s : State), regOffset ga = some off ∧ s.regHit off size =
      .empty)
    ∧ (∃ (off size : Nat) (s t u : State) (x : Reply), s.domOn 77 = true ∧ s.bit HOST_STAT.DL_UP = true ∧ off < 0x10000000 ∧
      t = s.bump HOST_PC_RXREQ ∧ t.regLoad .host off size = some (u, x))
    ∧ (∃ (off size : Nat) (data : Dword) (s t u : State) (x : Reply), s.domOn 77 = true ∧ s.bit HOST_STAT.DL_UP = true ∧ off
      < 0x10000000 ∧ t = s.bump HOST_PC_RXREQ ∧ t.regStore .host off size data = some (u, x)) :=
  ⟨⟨.mgmt, 1, _, 4, 0x431080000, 5, regOfOff 0x1080000, regsOn, rfl, by decide +kernel, by decide +kernel,
    by decide +kernel, by decide +kernel, by decide +kernel, by decide +kernel⟩,
   ⟨.mgmt, 1, _, 4, 0x430300400, 1, regOfOff 0x300400, _, regsOn, _, rfl, by decide +kernel, by decide +kernel,
    by decide +kernel, by decide +kernel, by decide +kernel, rfl, rfl⟩,
   ⟨.mgmt, 1, _, 4, 0x430301008, regOfOff 0x301008, regsOn, rfl, by decide +kernel, by decide +kernel, by decide +kernel,
    by decide +kernel, by decide +kernel, by decide +kernel, by decide +kernel, by decide +kernel⟩,
   ⟨.rind, 1, _, 4, 0x430301008, 5, regsOn, rfl⟩,
   ⟨.mgmt, 1, _, 4, 0x43030100C, 5, regsOn, rfl, by decide +kernel⟩,
   ⟨0x301008, 4, regsOn, _, _, _, by decide +kernel, by decide +kernel, by decide +kernel, rfl, rfl⟩,
   ⟨0x301008, 4, 5, regsOn, _, _, _, by decide +kernel, by decide +kernel, by decide +kernel, rfl, rfl⟩⟩

/-- States and operands that meet the hypotheses of `RegisterAccessErrors`. -/
theorem witness_RegisterAccessErrors :
   ∃ (src : Agent) (tag off size : Nat) (ga data : Dword) (s t u : State), regOffset ga = some off ∧ s.canon = true ∧
      (inBlock off = false ∨ (size ≠ 4 ∧ size ≠ 8) ∨ off % size ≠ 0 ∨ (s.regGone off = false ∧ ∃ r, regFind off = some r ∧
      (r.byte ≠ 0 ∨ r.reg.width ≠ 8 * size))) ∧ t = (s.recvMsg (.req src tag ga (.regWrite size data))).regAnswer src tag
      true .busError ∧ u = (s.recvMsg (.req src tag ga (.regRead size))).regAnswer src tag false .busError :=
  ⟨.host, 1, _, 8, 0x430301008, 5, regsOn, _, _, rfl, by decide +kernel,
    .inr (.inr (.inr ⟨by decide +kernel, regOfOff 0x301008, by decide +kernel, by decide +kernel⟩)), rfl, rfl⟩

/-- States and operands that meet the hypotheses of `RegisterReadBack`. -/
theorem witness_RegisterReadBack :
   ∃ (src : Agent) (r : RegAt) (d : Dword) (f : Fld) (s : State), s.canon = true ∧ (r.reg, r.flds) ∈ regTable ∧ f ∈ r.flds ∧
      src ≠ .mgmt :=
  ⟨.host, regOfOff 0x301008, 5, PWR_THR.THROT, live, by decide +kernel, by decide +kernel, by decide +kernel,
    by decide +kernel⟩

/-- States and operands that meet the hypotheses of `DicCompletion`. -/
theorem witness_DicCompletion :
   ∃ (t : TargetIx) (fast : Bool) (data : Word) (n : Nat) (s : State), n = bvBits data 0 8 ∧ s.canon = true :=
  ⟨14, true, 5, _, live, rfl, by decide +kernel⟩

/-- A command block with a zero identifier, a zero nonce and zero signatures. -/
def blk (code slot : Nat) (pay : List Byte) : List Byte :=
  natBytes 0x444D4352 4 ++ natBytes code 1 ++ natBytes slot 1 ++ List.replicate 18 0 ++ natBytes pay.length 4 ++ List.replicate 36 0
    ++ pay ++ (if code = 8 then [] else List.replicate 4728 0)

/-- The owner's slots 0 and 1 are in use, and the Rind waits for the block `b`. -/
def rindFor (b : List Byte) : State :=
  (State.setFld { live with rindWait := true, mram := { claimed := true, slots := [(0, { state := 1 }), (1, { state := 1 })] } }
    RIND_STAT.STATE 1).setFld RIND_CMD_LEN.LEN b.length |>.setReg RIND_CMD_ADDR 0x400000000

/-- A block whose fields are right, whose signatures are good and which the rules permit passes the check. -/
theorem blkCheck_ok {s : State} {b : List Byte} {k : Option RindSlot}
    (hl : s.fld RIND_CMD_LEN.LEN = b.length ∧ 64 ≤ b.length ∧ b.length ≤ 2 ^ 23)
    (ha : s.rindReads (s.reg RIND_CMD_ADDR) = true) (hf : blkForm b = true)
    (hu : leAt b 8 8 = s.fld RIND_UID.UID) (hn : leAt b 0x10 8 = if blkCode b = 8 then 0 else s.fld RIND_NONCE.NONCE)
    (hk : s.blkKeys b = some k) (hs : ∀ x, k = some x → blkSigned b x = 0) (hr : s.blkRules b = 0) :
    s.blkCheck (some b) = (8, 0) := by
  obtain ⟨h1, h2, h3⟩ := hl
  have h4 : ¬(b.length < 64 ∨ 2 ^ 23 < b.length ∨ False ∨ False) := by rintro (h | h | h | h) <;> omega
  have hn' := not_not_intro hn
  cases k with
  | none => simp only [State.blkCheck, h1, ha, if_neg h4, hf, hu, hk, hr, if_neg hn', ne_eq, not_true, Bool.not_true, Bool.false_eq_true, if_false]
  | some x =>
    simp only [State.blkCheck, h1, ha, if_neg h4, hf, hu, hk, hs x rfl, hr, if_neg hn', ne_eq, not_true, Bool.not_true,
      Bool.false_eq_true, if_false]

def blkEnroll : List Byte := blk 1 0 ([2] ++ List.replicate 2703 0)
def blkRevoke : List Byte := blk 2 0 [1, 0, 0, 0, 0, 0, 0, 0]
def blkSeq : List Byte := blk 3 0 [5, 0, 0, 0, 0, 0, 0, 0]
def blkFw : List Byte := blk 4 0 [1, 0, 0, 0, 0, 0, 0, 0]
def blkSvn : List Byte := blk 5 0 [0, 0, 0, 0, 0, 0, 0, 0]
/-- The rules for an update of the bank that does not run. -/
theorem fwRules (hw : State.fwStatus { rindFor blkFw with rindWait := false } (bytesAt blkFw 72 (blkPay blkFw - 8)) = 0) :
    State.blkRules { rindFor blkFw with rindWait := false } blkFw = 0 := by
  have hc : blkCode blkFw = 4 := by decide +kernel
  have hn : blkAt blkFw 0 1 = 1 := by decide +kernel
  have h1 : State.fld { rindFor blkFw with rindWait := false } MC_BOOT_STAT.RESULT = 0 := by decide +kernel
  have h2 : State.fld { rindFor blkFw with rindWait := false } MC_BOOT_STAT.BANK = 0 := by decide +kernel
  simp [State.blkRules, hc, hn, h1, h2, hw]
def blkAttest : List Byte := blk 8 0 (List.replicate 48 0)


/-- The Rind can write wherever each byte's address is one of a scratchpad. -/
theorem rindWrite_scratch (ga : Dword) (l : List (Byte × Nat)) (s : State)
    (h : ∀ e ∈ l, ∃ a k o, s.target (ga + BitVec.ofNat 64 e.2) = .here a ∧ s.place a = .scratch k o) (m : List Host.Cell) :
    (l.foldl (fun (t : Option State) e => t.bind (fun t => t.rindByte (ga + BitVec.ofNat 64 e.2) e.1))
      (some { s with mem := m })).isSome = true := by
  induction l generalizing m with
  | nil => rfl
  | cons e l ih =>
    obtain ⟨a, k, o, h1, h2⟩ := h e (by simp)
    have h3 : State.rindByte { s with mem := m } (ga + BitVec.ofNat 64 e.2) e.1 = some { s with mem := Memory.set m a e.1 } := by
      have g1 : State.target { s with mem := m } (ga + BitVec.ofNat 64 e.2) = .here a := h1
      have g2 : State.place { s with mem := m } a = .scratch k o := h2
      simp only [State.rindByte, g1, g2]
    simp only [List.foldl_cons, Option.bind_some, h3]
    exact ih (fun x hx => h x (by simp [hx])) _

/-- The Rind waits for the attestation block and answers at the scratchpad of vat 0. -/
def attesting : State := { (rindFor blkAttest).setReg RIND_RSP_ADDR 0x400000000 with rindWait := false }
def attestRep : List Byte := attesting.report (bytesAt blkAttest 64 48) ++ Config.reportTail attesting.runBank (attesting.report (bytesAt blkAttest 64 48))

theorem attest_scratch : ∀ i < 8192, attesting.target (0x400000000 + BitVec.ofNat 64 i) = .here (0x400000000 + i)
    ∧ attesting.place (0x400000000 + i) = .scratch 0 i := by
  intro i hi
  have hn : (0x400000000 + BitVec.ofNat 64 i : Dword).toNat = 0x400000000 + i := by
    show (BitVec.ofNat 64 0x400000000 + BitVec.ofNat 64 i).toNat = _
    simp only [BitVec.toNat_add, BitVec.toNat_ofNat]
    omega
  have hb : ∀ lo w, bvBits (0x400000000 + BitVec.ofNat 64 i : Dword) lo w = (0x400000000 + i) / 2 ^ lo % 2 ^ w := fun lo w => by
    simp only [bvBits, bitsOf, hn, Nat.shiftRight_eq_div_pow]
  refine ⟨?_, ?_⟩
  · have h1 : (0x400000000 + i) / 2 ^ 62 % 2 ^ 2 = 0 := by omega
    have h2 : (0x400000000 + i) / 2 ^ 48 % 2 ^ 14 = 0 := by omega
    have h3 : (0x400000000 + i) / 2 ^ 0 % 2 ^ 48 = 0x400000000 + i := by omega
    simp only [State.target, hb, h1, h2, h3, if_true]
  · have h1 : ¬(0x400000000 + i < 0x400000000) := by omega
    have h2 : 0x400000000 + i < 0x420000000 := by omega
    have h3 : (0x400000000 + i - 0x400000000) / 2 ^ 23 = 0 := by omega
    have h4 : (0x400000000 + i) % 2 ^ 23 = i := by omega
    simp only [State.place, if_neg h1, if_pos h2, h3, h4]

theorem attest_writes (h : attestRep.length ≤ 8192) : (attesting.rindWrite 0x400000000 attestRep).isSome = true := by
  have g := rindWrite_scratch 0x400000000 (attestRep.zip (List.range attestRep.length)) attesting (fun e he =>
    ⟨_, _, _, attest_scratch e.2 (by have := List.mem_range.mp (List.of_mem_zip he).2; omega)⟩) attesting.mem
  simp only [State.rindWrite, Option.isSome_map]
  exact g

/-- States and operands that meet the hypotheses of `RindCommands`, clause by clause. -/
theorem witness_RindCommands :
    (blkSigned blkEnroll { state := 1 } = 0 → ∃ (b : List Byte) (s t : State), blkCode b = 1 ∧ RindReady s ∧ t =
      { s with rindWait := false } ∧ t.blkCheck (some b) = (8, 0))
    ∧ (blkSigned blkRevoke { state := 1 } = 0 → ∃ (b : List Byte) (s t : State), blkCode b = 2 ∧ RindReady s ∧ t =
      { s with rindWait := false } ∧ t.blkCheck (some b) = (8, 0))
    ∧ (blkSigned blkSeq { state := 1 } = 0 → ∃ (b : List Byte) (s t : State), blkCode b = 3 ∧ RindReady s ∧ t =
      { s with rindWait := false } ∧ t.blkCheck (some b) = (8, 0))
    ∧ (blkSigned blkFw { state := 1 } = 0 → State.fwStatus { rindFor blkFw with rindWait := false } (bytesAt blkFw 72
      (blkPay blkFw - 8)) = 0 → ∃ (b fw : List Byte) (s t : State), blkCode b = 4 ∧ RindReady s ∧ t =
      { s with rindWait := false } ∧ t.blkCheck (some b) = (8, 0) ∧ fw = bytesAt b 72 (blkPay b - 8))
    ∧ (blkSigned blkSvn { state := 1 } = 0 → ∃ (b : List Byte) (s t : State), blkCode b = 5 ∧ RindReady s ∧ t =
      { s with rindWait := false } ∧ t.blkCheck (some b) = (8, 0))
    ∧ (blkSigned (blk 6 0 []) { state := 1 } = 0 → ∃ (b : List Byte) (s t : State), blkCode b = 6 ∧ RindReady s ∧ t =
      { s with rindWait := false } ∧ t.blkCheck (some b) = (8, 0))
    ∧ (blkSigned (blk 7 0 []) { state := 1 } = 0 → ∃ (b : List Byte) (s t : State), blkCode b = 7 ∧ RindReady s ∧ t =
      { s with rindWait := false } ∧ t.blkCheck (some b) = (8, 0))
    ∧ (attestRep.length ≤ 8192 → ∃ (b : List Byte) (s t u : State) (r : List Byte), blkCode b = 8 ∧ RindReady s ∧ t =
      { s with rindWait := false } ∧ t.blkCheck (some b) = (8, 0) ∧ r = t.report (bytesAt b 64 48) ∧ t.rindWrite (t.reg
      RIND_RSP_ADDR) (r ++ Config.reportTail t.runBank r) = some u)
    ∧ (∃ (s t : State), RindReady s ∧ t = { s with rindWait := false })
    ∧ (∃ (b : List Byte) (s t : State), RindReady s ∧ t = { s with rindWait := false } ∧ (blkCode b = 0 ∨ 9 ≤ blkCode b) ∧
      t.rindReads (t.reg RIND_CMD_ADDR) = true ∧ b.length = t.fld RIND_CMD_LEN.LEN ∧ 64 ≤ b.length ∧ b.length ≤ 2 ^ 23)
    ∧ (∃ (row : Fin 8) (s t : State), s.fld RIND_STAT.STATE = 1 ∧ t = (s.setFld RIND_STAT.STATE 3).setFld
      RIND_STAT.VALIDATED 0)
    ∧ (∃ (s t : State), (s.fld RIND_STAT.STATE = 1 ∨ s.fld RIND_STAT.STATE = 2) ∧ t = (s.setFld RIND_STAT.STATE 3).setFld
      RIND_STAT.VALIDATED 0)
    ∧ (∃ (s : State), 2 ^ 20 ≤ s.drbg) :=
  ⟨fun h => ⟨blkEnroll, rindFor blkEnroll, _, by decide +kernel, by unfold RindReady; decide +kernel, rfl,
    blkCheck_ok (k := some { state := 1 }) (by decide +kernel) (by decide +kernel) (by decide +kernel) (by decide +kernel) (by decide +kernel) (by decide +kernel) (fun x e => Option.some.inj e ▸ h) (by decide +kernel)⟩,
   fun h => ⟨blkRevoke, rindFor blkRevoke, _, by decide +kernel, by unfold RindReady; decide +kernel, rfl,
    blkCheck_ok (k := some { state := 1 }) (by decide +kernel) (by decide +kernel) (by decide +kernel) (by decide +kernel) (by decide +kernel) (by decide +kernel) (fun x e => Option.some.inj e ▸ h) (by decide +kernel)⟩,
   fun h => ⟨blkSeq, rindFor blkSeq, _, by decide +kernel, by unfold RindReady; decide +kernel, rfl,
    blkCheck_ok (k := some { state := 1 }) (by decide +kernel) (by decide +kernel) (by decide +kernel) (by decide +kernel) (by decide +kernel) (by decide +kernel) (fun x e => Option.some.inj e ▸ h) (by decide +kernel)⟩,
   fun h hw => ⟨blkFw, _, rindFor blkFw, _, by decide +kernel, by unfold RindReady; decide +kernel, rfl,
    blkCheck_ok (k := some { state := 1 }) (by decide +kernel) (by decide +kernel) (by decide +kernel) (by decide +kernel) (by decide +kernel) (by decide +kernel) (fun x e => Option.some.inj e ▸ h) (fwRules hw),
    rfl⟩,
   fun h => ⟨blkSvn, rindFor blkSvn, _, by decide +kernel, by unfold RindReady; decide +kernel, rfl,
    blkCheck_ok (k := some { state := 1 }) (by decide +kernel) (by decide +kernel) (by decide +kernel) (by decide +kernel) (by decide +kernel) (by decide +kernel) (fun x e => Option.some.inj e ▸ h) (by decide +kernel)⟩,
   fun h => ⟨blk 6 0 [], rindFor (blk 6 0 []), _, by decide +kernel, by unfold RindReady; decide +kernel, rfl,
    blkCheck_ok (k := some { state := 1 }) (by decide +kernel) (by decide +kernel) (by decide +kernel) (by decide +kernel) (by decide +kernel) (by decide +kernel) (fun x e => Option.some.inj e ▸ h) (by decide +kernel)⟩,
   fun h => ⟨blk 7 0 [], rindFor (blk 7 0 []), _, by decide +kernel, by unfold RindReady; decide +kernel, rfl,
    blkCheck_ok (k := some { state := 1 }) (by decide +kernel) (by decide +kernel) (by decide +kernel) (by decide +kernel) (by decide +kernel) (by decide +kernel) (fun x e => Option.some.inj e ▸ h) (by decide +kernel)⟩,
   fun h => ⟨blkAttest, { attesting with rindWait := true }, _,
    (attesting.rindWrite 0x400000000 attestRep).get (attest_writes h), _, by decide +kernel,
    by unfold RindReady; decide +kernel, rfl, by decide +kernel, rfl, (Option.some_get _).symm⟩,
   ⟨rindFor [], _, by unfold RindReady; decide +kernel, rfl⟩,
   ⟨blk 9 0 [], rindFor (blk 9 0 []), _, by unfold RindReady; decide +kernel, rfl, by decide +kernel, by decide +kernel,
    by decide +kernel, by decide +kernel, by decide +kernel⟩,
   ⟨7, live.setFld RIND_STAT.STATE 1, _, by decide +kernel, rfl⟩,
   ⟨live.setFld RIND_STAT.STATE 2, _, by decide +kernel, rfl⟩,
   ⟨{ live with drbg := 1048576 }, by decide +kernel⟩⟩
/-! ### Small checks, with results worked out from the rules -/

theorem test_reset_canon : State.reset.canon = true := by decide

/-- 04 R114: a sum wraps modulo 2^32; the immediate is sign-extended. -/
theorem test_addi_wraps : ((after (exec (.addi 0 ⟨1, 2, 0xFFFF⟩)
    (ready (encI 0x02 ⟨1, 2, 0xFFFF⟩) (fun x => { x with sreg := [(2, 0x80000000)] }))) State.reset).core 0).s 1 = 0x7FFFFFFF := by
  decide +kernel

/-- 04 R103: `s0` keeps reading zero. -/
theorem test_addi_s0 : ((after (exec (.addi 0 ⟨0, 0, 5⟩) (ready (encI 0x02 ⟨0, 0, 5⟩))) State.reset).core 0).s 0 = 0 := by
  decide +kernel

/-- 04 R114: a taken branch goes to its own address plus four times its offset. -/
theorem test_branch_back : ((after (exec (.branch 0 .beq 1 2 0xFFFC)
    (ready (encB (brCode .beq) 1 2 0xFFFC) (fun x => { x with pc := 0x100 }))) State.reset).core 0).pc = 0xF0 := by
  decide +kernel

/-- 04 R128: memory does not change before a store drains, and holds the stored byte after. -/
theorem test_store_drains :
    let s := after (exec (.sw 0 ⟨2, 0, 0x40⟩) (ready (encS 0x09 ⟨2, 0, 0x40⟩) (fun x => { x with sreg := [(2, 0x11223344)] }))) State.reset
    let t := after (exec (.storeBufferDrain 0) s) State.reset
    Memory.get s.mem 0x420000040 = 0 ∧ Memory.get t.mem 0x420000040 = 0x44 ∧ Memory.get t.mem 0x420000043 = 0x11 := by
  decide +kernel

/-- 04 R114: a misaligned word access takes its trap, to no handler where `TVEC` holds none, and ends the task. -/
theorem test_misaligned_load :
    let s := after (exec (.lw 0 ⟨1, 0, 2⟩) (ready (encI 0x08 ⟨1, 0, 2⟩))) State.reset
    (s.core 0).tcause.toNat % 64 = causeMisalign ∧ (s.core 0).task = none ∧ s.taskState 0 0 = 7 := by decide +kernel

/-- 05 R146: 1.0 + 2.0 in binary32, in lane 0. -/
theorem test_vfp_add : laneOf (((after (exec (.vfp 0 ⟨1, 2, 3, 0, 2, 0⟩) (ready (encV 0x21 ⟨1, 2, 3, 0, 2, 0⟩)
    (fun x => { x with vreg := [(2, 0x3F800000), (3, 0x40000000)] }))) State.reset).core 0).v 1) 0 = 0x40400000 := by decide +kernel

/-- 06 R202: increments add to the count of a tally. -/
theorem test_tally_counts :
    (after (exec (.tallyIncrement 5 3 4096) (after (exec (.tallyIncrement 5 2 4096) live) State.reset)) State.reset).fld
      VAT_TALLY_CNT.COUNT 0 5 = 5 := by decide +kernel

/-- 18 R540: `PWR_THR` reads 95 °C after reset. -/
theorem test_register_read :
    (after (exec (.readClearRegisterRead .mgmt 1 0x430301008 4) regsOn) State.reset).mgmtRsp = some (.word 0x5F) := by decide +kernel

/-- 00 R12: an access of half a register is an error. -/
theorem test_register_half :
    (after (exec (.readClearRegisterRead .mgmt 1 0x430300400 8) regsOn) State.reset).mgmtRsp = some .busError := by decide +kernel

/-- 02 R56: an empty queue is one period of `MC_TSC`, which counts while the reference runs. -/
theorem test_tick : (after (step supplied) State.reset).reg MC_TSC = 1 ∧ (after (step State.reset) State.reset).reg MC_TSC = 0 := by
  decide +kernel

/-- 06 R216: a descriptor with a reserved bit is malformed. -/
theorem test_ladle_malformed : (stg7.ladleCode 0 0 { seq := 0, words := [0x01, 0, 0, 64 + 2 ^ 32, 0, 0, 0, 1] } false,
    stg7.ladleCode 0 0 { seq := 0, words := [0x01, 0, 0, 64 + 2 ^ 32, 0, 0, 0, 0] } false) = (2, 0) := by decide +kernel

/-! ### Words (04 R113 to R119), and terms that are no commands -/

theorem test_decode_addi : coreDecode 7 0b000010_00001_00010_1111111111111111 = .addi 7 ⟨1, 2, 0xFFFF⟩ := by decide +kernel
theorem test_decode_dotmx :
    coreDecode 7 0b101001_10_00100_0110_0111_0101_01_011_00 = .dotmx 7 ⟨2, 4, 6, 7, 5, 1, 3, 0⟩ := by decide +kernel
theorem test_decode_atom : coreDecode 7 0b110100_00001_00010_00011_00000_000010 = .atom 7 ⟨1, 2, 3, 0⟩ .aor := by decide +kernel

theorem test_ill_formed_register_write : wellFormed (.registerWrite .mgmt 0 0x42FFFFFFF 4 0) = false := by decide
theorem test_ill_formed_register_read : wellFormed (.readClearRegisterRead .mgmt 0 0x430000000 65) = false := by decide
theorem test_ill_formed_undefined : wellFormed (.undefinedOpcode 0 (encI 0x02 ⟨1, 2, 3⟩)) = false := by decide +kernel
theorem test_ill_formed_core_store : wellFormed (.coreStoreExternalAccess 0 .mgmt 0 0x10000 (.read 4)) = false := by decide
theorem test_ill_formed_slice : wellFormed (.sliceRequest .mgmt 0 0 (.regRead 4) .ok) = false := by decide
theorem test_ill_formed_scratchpad : wellFormed (.scratchpadAccess .mgmt 0 0 (.read 0) .ok) = false := by decide
theorem test_ill_formed_partial : wellFormed (.churnPartial 0 0 (part1 3 257)) = false := by decide
theorem test_ill_formed_router : wellFormed (.routerPartial 0 0 0 4096 (part1 3 1)) = false := by decide
theorem test_ill_formed_churn : wellFormed (.churnReservedOp 0 (encC 1 ⟨1, 2, 3, 0⟩)) = false := by decide +kernel
theorem test_ill_formed_crock_read : wellFormed (.crockRead 0 0 [0, 0, 0, 0, 0] none 0) = false := by decide
theorem test_ill_formed_crock_write : wellFormed (.crockWrite 0 0 [] (some [0, 0, 0, 0, 0]) 0) = false := by decide
theorem test_ill_formed_scrub : wellFormed (.crockScrubRead 0 0 [0, 0, 0, 0, 0]) = false := by decide
theorem test_ill_formed_frame : wellFormed (.laneFrameReceive 0 0 [] ⟨[], 0, 8, none⟩) = false := by decide
theorem test_ill_formed_broadcast : wellFormed (.firmwareBroadcast 0 0 []) = false := by decide
theorem test_ill_formed_face : wellFormed (.faceDataPacketReceive 0 0 [] 0) = false := by decide
theorem test_ill_formed_host_link : wellFormed (.hostLinkUp 5 1 true) = false := by decide
theorem test_ill_formed_bypass : wellFormed (.bypass 0x20) = false := by decide
theorem test_ill_formed_bar : wellFormed (.hostBarAccess 0 (.read .bar0 0 65)) = false := by decide
theorem test_ill_formed_start : wellFormed (.deviceStart { times := [1, 2, 3, 4, 5, 6, 7, 8] }) = false := by decide

end Sys2Proof.Tests
end

section
/-! Accesses of register space that end in a bus error (00 R12, R16, 16 R503): what makes one, what it answers, and that no
register changes but the host's error count. -/

namespace Sys2Proof.Machine

open Sys2Proof

/-! ### Which accesses are errors -/

/-- 00 R12: the parts of the register table hold registers of 32 and of 64 bits only. -/
theorem regTable_width : ∀ e ∈ regTable, e.1.width = 32 ∨ e.1.width = 64 := by decide +kernel

/-- The accesses that are errors: outside every block, of a size that no register has, not naturally aligned, or of a part of
a register that is there (00 R12, R16). -/
theorem State.regHit_error {s : State} {off size : Nat}
    (h : inBlock off = false ∨ (size ≠ 4 ∧ size ≠ 8) ∨ off % size ≠ 0
      ∨ (s.regGone off = false ∧ ∃ r, regFind off = some r ∧ (r.byte ≠ 0 ∨ r.reg.width ≠ 8 * size))) :
    s.regHit off size = .error := by
  unfold State.regHit
  split
  case isTrue => rfl
  case isFalse hform =>
    obtain hblock | hsize | halign | ⟨hthere, r, hfind, hpart⟩ := h
    · exact absurd (.inl (by simp [hblock])) hform
    · exact absurd (.inr (.inl (by simp [hsize]))) hform
    · exact absurd (.inr (.inr halign)) hform
    · have hfull : ¬(r.byte = 0 ∧ r.reg.width = 8 * size) := fun ⟨hb, hw⟩ => hpart.elim (· hb) (· hw)
      simp [hthere, hfind, hfull]

/-! ### What an erroneous access does -/

/-- An erroneous write has no effect, whether or not its requester may reach the offset. -/
theorem State.regStore_error {s : State} {off size : Nat} (h : s.regHit off size = .error) (a : Agent) (d : Dword) :
    s.regStore a off size d = some (s, .busError) := by
  unfold State.regStore
  split
  · rfl
  · rw [h]

/-- An erroneous read has no effect, whether or not its requester may reach the offset. -/
theorem State.regLoad_error {s : State} {off size : Nat} (h : s.regHit off size = .error) (a : Agent) :
    s.regLoad a off size = some (s, .busError) := by
  unfold State.regLoad
  split
  · rfl
  · rw [h]

theorem exec_registerWrite (src : Agent) (tag : Nat) (ga : Dword) (size : Nat) (data : Dword) (s : State) :
    exec (.registerWrite src tag ga size data) s = execRegisterWrite src tag ga size data s := rfl

theorem exec_readClearRegisterRead (src : Agent) (tag : Nat) (ga : Dword) (size : Nat) (s : State) :
    exec (.readClearRegisterRead src tag ga size) s = execReadClearRegisterRead src tag ga size s := rfl

theorem exec_registerWrite_error {s : State} {ga : Dword} {off size : Nat} (hoff : regOffset ga = some off)
    (h : s.regHit off size = .error) (src : Agent) (tag : Nat) (data : Dword) :
    exec (.registerWrite src tag ga size data) s =
      .next ((s.recvMsg (.req src tag ga (.regWrite size data))).regAnswer src tag true .busError) := by
  simp only [exec_registerWrite, execRegisterWrite, hoff, State.regStore_error h]

theorem exec_readClearRegisterRead_error {s : State} {ga : Dword} {off size : Nat} (hoff : regOffset ga = some off)
    (h : s.regHit off size = .error) (src : Agent) (tag : Nat) :
    exec (.readClearRegisterRead src tag ga size) s =
      .next ((s.recvMsg (.req src tag ga (.regRead size))).regAnswer src tag false .busError) := by
  simp only [exec_readClearRegisterRead, execReadClearRegisterRead, hoff, State.regLoad_error h]

/-! ### What an answer leaves unchanged -/

/-- A reply to a requester of this device goes into flight: only the fabric's answers leave the device (15 R452). -/
theorem State.send_reply (s : State) {a : Agent} (ha : ∀ d p, a ≠ .fabric d p) (tag : Nat) (r : Reply) :
    s.send (.reply a tag r) = s.put (.reply a tag r) := by
  have hdispatch : s.dispatch (.reply a tag r) = s.put (.reply a tag r) := by
    cases a with
    | fabric d p => exact absurd rfl (ha d p)
    | _ => rfl
  simp [State.send, hdispatch]

/-- The answer to a requester other than the management core and the host is a message. -/
theorem State.regAnswer_eq_send (s : State) {a : Agent} (hmgmt : a ≠ .mgmt) (hhost : a ≠ .host) (tag : Nat) (write : Bool)
    (r : Reply) : s.regAnswer a tag write r = s.send (.reply a tag r) := by
  cases a with
  | mgmt => exact absurd rfl hmgmt
  | host => exact absurd rfl hhost
  | _ => rfl

/-- An answer changes no register, unless it is the host's, which may count an error, or leaves through the fabric. -/
theorem State.regAnswer_regs (s : State) {a : Agent} (hhost : a ≠ .host) (hfab : ∀ d p, a ≠ .fabric d p) (tag : Nat)
    (write : Bool) (r : Reply) : (s.regAnswer a tag write r).regs = s.regs := by
  by_cases hmgmt : a = .mgmt
  · subst hmgmt
    rfl
  · rw [State.regAnswer_eq_send s hmgmt hhost, State.send_reply s hfab, State.put_regs]

/-- A count changes no register at another address. -/
theorem State.bumpErr_regs_ne {s : State} (hs : smSorted s.regs = true) (f : Fld) {i j k n a : Nat}
    (ha : a ≠ f.reg.addr i j k) : smGet 0 (s.bumpErr f i j k n).regs a = smGet 0 s.regs a := by
  simp only [State.bumpErr, State.setFld, State.setReg, smGet_smSet 0 hs, if_neg ha]

/-- The host's bus error changes no register but the one that counts it (16 R503). -/
theorem State.regAnswer_host_busError_regs {s : State} (hs : smSorted s.regs = true) (tag : Nat) (write : Bool) {a : Nat}
    (ha : a ≠ HOST_ERR0.addr) : smGet 0 (s.regAnswer .host tag write .busError).regs a = smGet 0 s.regs a :=
  State.bumpErr_regs_ne (s := { s with hostRsp := if write then .dropped else .completerAbort }) hs HOST_ERR0.BAD_REQ ha

/-- The registers of a state in canonical form are in ascending order. -/
theorem State.canon_regs_sorted {s : State} (h : s.canon = true) : smSorted s.regs = true := by
  simp only [State.canon, Bool.and_eq_true] at h
  obtain ⟨⟨-, hregs⟩, -⟩ := h
  exact smWf_sorted hregs

/-! ### The statement -/

/-- Settles O58: an access that is not of a whole register in place finds an error whoever asks (`State.regHit_error`), its
effect is the answer alone, and an answer changes no register but the host's error count. -/
theorem registerAccessErrors : Obligations.RegisterAccessErrors := by
  refine ⟨regTable_width, ?_⟩
  rintro src tag off size ga data s t u hoff hcanon hbad rfl rfl
  have herror := State.regHit_error hbad
  refine ⟨exec_registerWrite_error hoff herror src tag data, exec_readClearRegisterRead_error hoff herror src tag, ?_, ?_⟩
  · intro hhost hfab
    exact ⟨State.regAnswer_regs _ hhost hfab tag true _, State.regAnswer_regs _ hhost hfab tag false _⟩
  · rintro rfl a ha
    have hsorted := State.canon_regs_sorted hcanon
    exact ⟨State.regAnswer_host_busError_regs hsorted tag true ha, State.regAnswer_host_busError_regs hsorted tag false ha⟩

end Sys2Proof.Machine
end

section
/-! How the delivery of a trap can spoil the trap's own record (04 R125, 17 R521, R523). -/

namespace Sys2Proof.Machine

open Sys2Proof

/-- Core 0 runs the task of slot 0, without a handler. Core 1 waits in `WFE`, its task a number past the 256 slots of a vat
(06 R193), and the fault source of vat 0 wakes it (17 R523). `VAT_TASK_CTL` of that number, 0x1010010 + 0x20 * 0x3800, is the
offset 0x1080010 of `VAT_CORE_TREC0` of core 0 (04 R140). -/
def wakesTaskPastSlots : State :=
  ((State.reset.setCore 0 { task := some 0 }).setCore 1 { task := some 0x3800, wait := some .wfe }).setReg VAT_EV_WAKE 0x81

theorem wakesTaskPastSlots_canon : wakesTaskPastSlots.canon = true := by decide +kernel

theorem wakesTaskPastSlots_task (d : Nat) :
    (wakesTaskPastSlots.core d).task = if d = 1 then some 0x3800 else if d = 0 then some 0 else none := by
  have hcore : wakesTaskPastSlots.core d = ((State.reset.setCore 0 { task := some 0 }).setCore 1
      { task := some 0x3800, wait := some .wfe }).core d := rfl
  rw [hcore, State.core_setCore _ (by decide +kernel), State.core_setCore _ rfl]
  split_ifs <;> rfl

/-- An `ILLEGAL` at core 0 (04 R122) ends its task and wakes core 1, whose resumed task's `STATE` is written over the cause in
the record: 3 stands where word 0 has 1. -/
theorem wakesTaskPastSlots_trec0 :
    (wakesTaskPastSlots.takeTrap 0 { cause := causeIllegal } 0).reg VAT_CORE_TREC0 0 0 = 0x43 := by decide +kernel

/-- Refutes O10: the record does not stay in `VAT_CORE_TREC0`. The statement bounds the task number of core `c` alone; in
`wakesTaskPastSlots` the fault source that the trap raises resumes the task of another core, whose number is past the slots
of its vat, so that its `STATE` falls on the record. -/
theorem not_trapDelivery : ¬ Obligations.TrapDelivery := by
  unfold Obligations.TrapDelivery
  intro h
  have hslot : ∀ k, (wakesTaskPastSlots.core 0).task = some k → k < 256 := by
    intro k hk
    obtain rfl : 0 = k := by simpa [wakesTaskPastSlots_task] using hk
    omega
  have hown : ∀ d, d ≠ 0 → (wakesTaskPastSlots.core d).task ≠ none → vatOf d = vatOf 0 →
      (wakesTaskPastSlots.core d).task ≠ (wakesTaskPastSlots.core 0).task := by
    intro d hd _ _
    by_cases hd1 : d = 1 <;> simp [wakesTaskPastSlots_task, hd, hd1]
  obtain ⟨⟨-, -, -, -, -, -, hrec, -⟩, -⟩ :=
    h 0 { cause := causeIllegal } 0 wakesTaskPastSlots _ wakesTaskPastSlots_canon hslot hown rfl
  have hword : Trap.word0 { cause := causeIllegal } (wakesTaskPastSlots.core 0).pc = 0x41 := by decide +kernel
  exact absurd (wakesTaskPastSlots_trec0.symm.trans hrec) (by rw [Fin.val_zero, hword]; decide)

end Sys2Proof.Machine
end

section
/-! The completion of an interrupt source (17 R530): which completions end a service, and what a bad one counts. -/

namespace Sys2Proof.Machine

open Sys2Proof

/-! ### A count that stays at its largest value (12 R391) -/

/-- The count itself: it adds, and stays at the largest value of its field. -/
theorem State.fld_bumpErr_same {s : State} (hs : smSorted s.regs = true) (f : Fld) (hf : f.lo + f.width ≤ 64) (i j k n : Nat) :
    (s.bumpErr f i j k n).fld f i j k = min (s.fld f i j k + n) (2 ^ f.width - 1) := by
  have hfits : min (s.fld f i j k + n) (2 ^ f.width - 1) < 2 ^ f.width := by
    have hpos := Nat.two_pow_pos f.width
    omega
  rw [State.bumpErr, State.fld_setFld_same hs f hf, Nat.mod_eq_of_lt hfits]

/-- A count changes no field of a register at another address. -/
theorem State.fld_bumpErr_ne {s : State} (hs : smSorted s.regs = true) {f g : Fld} (n : Nat) {i j k i' j' k' : Nat}
    (haddr : g.reg.addr i' j' k' ≠ f.reg.addr i j k) : (s.bumpErr f i j k n).fld g i' j' k' = s.fld g i' j' k' :=
  State.fld_setFld_ne hs _ haddr

/-! ### What a completion does -/

/-- A completion by the target that holds the source, in the source's class, ends its service. -/
theorem exec_dicComplete_served {t : TargetIx} {fast : Bool} {data : Word} {s : State}
    (hinsvc : s.bit DIC_SRC.INSVC (bvBits data 0 8) = true) (howner : s.fld DIC_SRC.OWNER (bvBits data 0 8) = t.val)
    (hclass : s.srcFast (bvBits data 0 8) = fast) :
    exec (.dicComplete t fast data) s = .next (s.srcDone (bvBits data 0 8)) :=
  congrArg Host.Outcome.next (if_pos ⟨hinsvc, howner, hclass⟩)

/-- Any other completion is counted, and that is all it does. -/
theorem exec_dicComplete_ignored {t : TargetIx} {fast : Bool} {data : Word} {s : State}
    (hbad : s.bit DIC_SRC.INSVC (bvBits data 0 8) = false ∨ s.fld DIC_SRC.OWNER (bvBits data 0 8) ≠ t.val
      ∨ s.srcFast (bvBits data 0 8) ≠ fast) :
    exec (.dicComplete t fast data) s = .next (s.bumpErr DIC_BADCOMP.COUNT) := by
  refine congrArg Host.Outcome.next (if_neg ?_)
  rintro ⟨hinsvc, howner, hclass⟩
  obtain hfree | hother | hwrong := hbad
  · exact Bool.false_ne_true (hfree.symm.trans hinsvc)
  · exact hother howner
  · exact hwrong hclass

/-! ### The statement -/

/-- Settles O60: the test of `DIC_COMPLETE` separates the completions that end a service (R530, with the class the source has
then, log 43) from those that only count, and a count touches no register but its own. `OWNER` 15 after a service is R538. -/
theorem dicCompletion : Obligations.DicCompletion := by
  rintro t fast data n s rfl hcanon
  have hsorted := State.canon_regs_sorted hcanon
  refine ⟨exec_dicComplete_served, fun hbad => ⟨_, exec_dicComplete_ignored hbad, ?_, ?_⟩⟩
  · exact State.fld_bumpErr_same hsorted DIC_BADCOMP.COUNT (by decide) 0 0 0 1
  · intro g _ i j k haddr
    exact State.fld_bumpErr_ne hsorted 1 haddr

end Sys2Proof.Machine
end

section
/-! The words of curd core instructions (04 R113 to R119): each format's fields are read back from its word, and a word is
put together again from its fields; so decoding and encoding are inverse. -/

namespace Sys2Proof.Machine

open Sys2Proof

set_option Elab.async false

/-! ### The fields of a word that a format packs -/

theorem fieldOf_encR (op : BitVec 6) (r : RArg) (fn : BitVec 6) (lo m : Nat) : fieldOf (encR op r fn) lo m =
    BitVec.extractLsb' (n := 6 + 5 + 5 + 5 + 5 + 6) lo m (op ++ r.rd ++ r.rs1 ++ r.rs2 ++ r.fx ++ fn) := rfl

theorem fieldOf_encI (op : BitVec 6) (a : IArg) (lo m : Nat) :
    fieldOf (encI op a) lo m = BitVec.extractLsb' (n := 6 + 5 + 5 + 16) lo m (op ++ a.rd ++ a.rs1 ++ a.imm) := rfl

theorem fieldOf_encS (op : BitVec 6) (a : SArg) (lo m : Nat) :
    fieldOf (encS op a) lo m = BitVec.extractLsb' (n := 6 + 5 + 5 + 16) lo m (op ++ a.rs2 ++ a.rs1 ++ a.imm) := rfl

theorem fieldOf_encB (op : BitVec 6) (rs1 rs2 : BitVec 5) (off : BitVec 16) (lo m : Nat) :
    fieldOf (encB op rs1 rs2 off) lo m = BitVec.extractLsb' (n := 6 + 5 + 5 + 16) lo m (op ++ rs1 ++ rs2 ++ off) := rfl

theorem fieldOf_encJ (op : BitVec 6) (off : BitVec 26) (lo m : Nat) :
    fieldOf (encJ op off) lo m = BitVec.extractLsb' (n := 6 + 26) lo m (op ++ off) := rfl

theorem fieldOf_encV (op : BitVec 6) (v : VArg) (lo m : Nat) : fieldOf (encV op v) lo m =
    BitVec.extractLsb' (n := 6 + 4 + 4 + 4 + 3 + 4 + 7) lo m (op ++ v.vd ++ v.vs1 ++ v.vs2 ++ v.pm ++ v.fmt ++ v.fn) := rfl

theorem fieldOf_encVS (op : BitVec 6) (v : VSArg) (lo m : Nat) : fieldOf (encVS op v) lo m =
    BitVec.extractLsb' (n := 6 + 4 + 4 + 5 + 4 + 2 + 7) lo m (op ++ v.vd ++ v.vs1 ++ v.rs ++ v.lane ++ v.res ++ v.fn) := rfl

theorem fieldOf_encVM (op : BitVec 6) (vr : BitVec 4) (a : VMArg) (lo m : Nat) : fieldOf (encVM op vr a) lo m =
    BitVec.extractLsb' (n := 6 + 4 + 1 + 5 + 16) lo m (op ++ vr ++ a.st ++ a.rs1 ++ a.imm) := rfl

theorem fieldOf_encD (op : BitVec 6) (d : DArg) (fn : BitVec 3) (lo m : Nat) : fieldOf (encD op d fn) lo m =
    BitVec.extractLsb' (n := 6 + 2 + 2 + 4 + 4 + 3 + 4 + 4 + 3) lo m
      (op ++ d.ad ++ d.res ++ d.vA ++ d.vB ++ d.pm ++ d.fmt ++ d.sel ++ fn) := rfl

theorem fieldOf_encX (op : BitVec 6) (x : XArg) (lo m : Nat) : fieldOf (encX op x) lo m =
    BitVec.extractLsb' (n := 6 + 2 + 5 + 4 + 4 + 4 + 2 + 3 + 2) lo m
      (op ++ x.ad ++ x.ss ++ x.vs1 ++ x.vs2 ++ x.fmt ++ x.afmt ++ x.sel ++ x.fn) := rfl

/-! ### Unpacking what was packed -/

theorem fields_encR (op : BitVec 6) (r : RArg) (fn : BitVec 6) :
    fieldOf (encR op r fn) 26 6 = op ∧ decR (encR op r fn) = r ∧ fieldOf (encR op r fn) 0 6 = fn := by
  simp [fieldOf_encR, decR, BitVec.extractLsb'_append_eq_ite, -Nat.reduceAdd]

theorem fields_encI (op : BitVec 6) (a : IArg) : fieldOf (encI op a) 26 6 = op ∧ decI (encI op a) = a := by
  simp [fieldOf_encI, decI, BitVec.extractLsb'_append_eq_ite, -Nat.reduceAdd]

theorem fields_encS (op : BitVec 6) (a : SArg) : fieldOf (encS op a) 26 6 = op ∧ decS (encS op a) = a := by
  simp [fieldOf_encS, decS, BitVec.extractLsb'_append_eq_ite, -Nat.reduceAdd]

theorem fields_encB (op : BitVec 6) (rs1 rs2 : BitVec 5) (off : BitVec 16) :
    fieldOf (encB op rs1 rs2 off) 26 6 = op ∧ fieldOf (encB op rs1 rs2 off) 21 5 = rs1
      ∧ fieldOf (encB op rs1 rs2 off) 16 5 = rs2 ∧ fieldOf (encB op rs1 rs2 off) 0 16 = off := by
  simp [fieldOf_encB, BitVec.extractLsb'_append_eq_ite, -Nat.reduceAdd]

theorem fields_encJ (op : BitVec 6) (off : BitVec 26) :
    fieldOf (encJ op off) 26 6 = op ∧ fieldOf (encJ op off) 0 26 = off := by
  simp [fieldOf_encJ, BitVec.extractLsb'_append_eq_ite, -Nat.reduceAdd]

theorem fields_encV (op : BitVec 6) (v : VArg) : fieldOf (encV op v) 26 6 = op ∧ decV (encV op v) = v := by
  simp [fieldOf_encV, decV, BitVec.extractLsb'_append_eq_ite, -Nat.reduceAdd]

theorem fields_encVS (op : BitVec 6) (v : VSArg) : fieldOf (encVS op v) 26 6 = op ∧ decVS (encVS op v) = v := by
  simp [fieldOf_encVS, decVS, BitVec.extractLsb'_append_eq_ite, -Nat.reduceAdd]

theorem fields_encVM (op : BitVec 6) (vr : BitVec 4) (a : VMArg) :
    fieldOf (encVM op vr a) 26 6 = op ∧ fieldOf (encVM op vr a) 22 4 = vr ∧ decVM (encVM op vr a) = a := by
  simp [fieldOf_encVM, decVM, BitVec.extractLsb'_append_eq_ite, -Nat.reduceAdd]

theorem fields_encD (op : BitVec 6) (d : DArg) (fn : BitVec 3) :
    fieldOf (encD op d fn) 26 6 = op ∧ decD (encD op d fn) = d ∧ fieldOf (encD op d fn) 0 3 = fn := by
  simp [fieldOf_encD, decD, BitVec.extractLsb'_append_eq_ite, -Nat.reduceAdd]

theorem fields_encX (op : BitVec 6) (x : XArg) : fieldOf (encX op x) 26 6 = op ∧ decX (encX op x) = x := by
  simp [fieldOf_encX, decX, BitVec.extractLsb'_append_eq_ite, -Nat.reduceAdd]

/-! ### Packing what was unpacked: adjacent fields of a word join -/

theorem encR_fields (w : Word) : encR (fieldOf w 26 6) (decR w) (fieldOf w 0 6) = w := by
  simp (disch := rfl) only [encR, decR, fieldOf, BitVec.extractLsb'_append_extractLsb'_eq_extractLsb']
  exact BitVec.extractLsb'_eq_self

theorem encI_fields (w : Word) : encI (fieldOf w 26 6) (decI w) = w := by
  simp (disch := rfl) only [encI, decI, fieldOf, BitVec.extractLsb'_append_extractLsb'_eq_extractLsb']
  exact BitVec.extractLsb'_eq_self

theorem encS_fields (w : Word) : encS (fieldOf w 26 6) (decS w) = w := encI_fields w

theorem encB_fields (w : Word) : encB (fieldOf w 26 6) (fieldOf w 21 5) (fieldOf w 16 5) (fieldOf w 0 16) = w := encI_fields w

theorem encJ_fields (w : Word) : encJ (fieldOf w 26 6) (fieldOf w 0 26) = w := by
  simp (disch := rfl) only [encJ, fieldOf, BitVec.extractLsb'_append_extractLsb'_eq_extractLsb']
  exact BitVec.extractLsb'_eq_self

theorem encV_fields (w : Word) : encV (fieldOf w 26 6) (decV w) = w := by
  simp (disch := rfl) only [encV, decV, fieldOf, BitVec.extractLsb'_append_extractLsb'_eq_extractLsb']
  exact BitVec.extractLsb'_eq_self

theorem encVS_fields (w : Word) : encVS (fieldOf w 26 6) (decVS w) = w := by
  simp (disch := rfl) only [encVS, decVS, fieldOf, BitVec.extractLsb'_append_extractLsb'_eq_extractLsb']
  exact BitVec.extractLsb'_eq_self

theorem encVM_fields (w : Word) : encVM (fieldOf w 26 6) (fieldOf w 22 4) (decVM w) = w := by
  simp (disch := rfl) only [encVM, decVM, fieldOf, BitVec.extractLsb'_append_extractLsb'_eq_extractLsb']
  exact BitVec.extractLsb'_eq_self

theorem encD_fields (w : Word) : encD (fieldOf w 26 6) (decD w) (fieldOf w 0 3) = w := by
  simp (disch := rfl) only [encD, decD, fieldOf, BitVec.extractLsb'_append_extractLsb'_eq_extractLsb']
  exact BitVec.extractLsb'_eq_self

theorem encX_fields (w : Word) : encX (fieldOf w 26 6) (decX w) = w := by
  simp (disch := rfl) only [encX, decX, fieldOf, BitVec.extractLsb'_append_extractLsb'_eq_extractLsb']
  exact BitVec.extractLsb'_eq_self

/-! ### Codes of branches and atomics -/

theorem branchOf_brCode (b : BrOp) : branchOf (brCode b) = some b := by cases b <;> rfl

theorem atomicOf_amoCode (f : AmoFn) : atomicOf (amoCode f) = some f := by cases f <;> rfl

theorem brCode_of_branchOf {op : BitVec 6} {b : BrOp} (h : branchOf op = some b) : brCode b = op := by
  unfold branchOf at h
  split_ifs at h <;> cases h <;> subst op <;> rfl

theorem amoCode_of_atomicOf {fn : BitVec 6} {f : AmoFn} (h : atomicOf fn = some f) : amoCode f = fn := by
  unfold atomicOf at h
  split_ifs at h <;> cases h <;> subst fn <;> rfl

/-! ### Decoding an encoded instruction -/

/-- A branch's major opcode is none of the others. -/
theorem coreDecode_branch (c : CoreId) (b : BrOp) (r1 r2 : BitVec 5) (off : BitVec 16) :
    coreDecode c (encB (brCode b) r1 r2 off) = .branch c b r1 r2 off := by
  cases b <;> simp [coreDecode, branchOf, brCode, fields_encB]

/-- An atomic's function code is not that of `ACAS`. -/
theorem coreDecode_atom (c : CoreId) (r : RArg) (f : AmoFn) :
    coreDecode c (encR 0x34 r (amoCode f)) = .atom c r f := by
  have hne : amoCode f ≠ 9#6 := by cases f <;> decide
  simp [coreDecode, branchOf, subDecode, fields_encR, atomicOf_amoCode, hne]

/-- Settles O5: the opcode of each format's word selects the instruction's row again, and its fields are read back. -/
theorem coreWordsDecode : Obligations.CoreWordsDecode := by
  intro i c w h hplain
  unfold coreWord at h
  split at h <;> cases h
  case h_21 => exact coreDecode_branch ..
  case h_48 => exact coreDecode_atom ..
  all_goals simp_all [coreDecode, branchOf, subDecode, plainInsn, fields_encR, fields_encI, fields_encS, fields_encJ,
    fields_encV, fields_encVS, fields_encVM, fields_encD, fields_encX]

/-! ### Encoding a decoded word -/

/-- The command `i` of core `c` is what the word `w` spells, and carries nothing beside it. -/
def Spells (c : CoreId) (w : Word) (i : Instr) : Prop := coreWord i = some (c, w) ∧ plainInsn i = true

section
variable {c : CoreId} {w : Word} {op : BitVec 6} (hop : fieldOf w 26 6 = op)
include hop

theorem encR_of_fields {fn : BitVec 6} (hfn : fieldOf w 0 6 = fn) : encR op (decR w) fn = w := by
  rw [← hop, ← hfn, encR_fields]

theorem encI_of_fields : encI op (decI w) = w := by rw [← hop, encI_fields]

theorem encS_of_fields : encS op (decS w) = w := by rw [← hop, encS_fields]

theorem encJ_of_fields : encJ op (fieldOf w 0 26) = w := by rw [← hop, encJ_fields]

theorem encV_of_fields : encV op (decV w) = w := by rw [← hop, encV_fields]

theorem encVS_of_fields : encVS op (decVS w) = w := by rw [← hop, encVS_fields]

theorem encVM_of_fields {vr : BitVec 4} (hvr : fieldOf w 22 4 = vr) : encVM op vr (decVM w) = w := by
  rw [← hop, ← hvr, encVM_fields]

theorem encD_of_fields {fn : BitVec 3} (hfn : fieldOf w 0 3 = fn) : encD op (decD w) fn = w := by
  rw [← hop, ← hfn, encD_fields]

theorem encX_of_fields : encX op (decX w) = w := by rw [← hop, encX_fields]

end

/-- A word is undefined, or the command that it decodes to spells it. -/
def Decodes (c : CoreId) (w : Word) (i : Instr) : Prop := i = .undefinedOpcode c w ∨ Spells c w i

theorem decodes_ite {c : CoreId} {w : Word} {p : Prop} [Decidable p] {i j : Instr} (hi : p → Spells c w i)
    (hj : Decodes c w j) : Decodes c w (if p then i else j) := by
  split
  next hp => exact .inr (hi hp)
  next => exact hj

theorem spells_none {c : CoreId} {w : Word} : ∀ i ∈ none, Spells c w i := by
  rintro _ ⟨⟩

theorem spells_ite {c : CoreId} {w : Word} {p : Prop} [Decidable p] {o q : Option Instr}
    (ho : p → ∀ i ∈ o, Spells c w i) (hq : ∀ i ∈ q, Spells c w i) : ∀ i ∈ (if p then o else q), Spells c w i := by
  split
  next hp => exact ho hp
  next => exact hq

theorem spells_ite_some {c : CoreId} {w : Word} {p : Prop} [Decidable p] {j : Instr} {q : Option Instr}
    (hplain : plainInsn j = true) (hj : p → coreWord j = some (c, w)) (hq : ∀ i ∈ q, Spells c w i) :
    ∀ i ∈ (if p then some j else q), Spells c w i := by
  refine spells_ite (fun hp => ?_) hq
  rintro _ ⟨⟩
  exact ⟨hj hp, hplain⟩

/-- The operations under an opcode whose functions are instructions of their own. -/
theorem subDecode_spells {c : CoreId} {w : Word} : ∀ i ∈ subDecode c w, Spells c w i := by
  have hatom (hop : fieldOf w 26 6 = 0x34) : ∀ i ∈ (atomicOf (fieldOf w 0 6)).map (Instr.atom c (decR w)), Spells c w i := by
    intro i hi
    obtain ⟨f, hf, rfl⟩ := Option.map_eq_some_iff.1 hi
    exact ⟨congrArg (fun w => some (c, w)) (encR_of_fields hop (amoCode_of_atomicOf hf).symm), rfl⟩
  dsimp only [subDecode]
  refine spells_ite (fun hop => ?_) (spells_ite (fun hop => ?_) (spells_ite (fun hop => ?_) (spells_ite (fun hop => ?_)
    (spells_ite (fun hop => ?_) (spells_ite (fun hop => ?_) (spells_ite (fun hop => ?_)
    (spells_ite (fun hop => spells_ite_some rfl (fun hfn => ?_) (hatom hop)) (spells_ite (fun hop => ?_) spells_none))))))))
  all_goals
    repeat' refine spells_ite_some rfl (fun hfn => ?_) ?_
  any_goals exact spells_none
  all_goals simp (disch := assumption) only [coreWord, encR_of_fields, encVM_of_fields, encD_of_fields]

/-- A word is undefined, or what it decodes to spells it. -/
theorem coreDecode_decodes (c : CoreId) (w : Word) : Decodes c w (coreDecode c w) := by
  cases hb : branchOf (fieldOf w 26 6) with
  | some b =>
    have hw : encB (brCode b) (fieldOf w 21 5) (fieldOf w 16 5) (fieldOf w 0 16) = w := by
      rw [brCode_of_branchOf hb, encB_fields]
    have hd := coreDecode_branch c b (fieldOf w 21 5) (fieldOf w 16 5) (fieldOf w 0 16)
    rw [hw] at hd
    exact .inr (hd ▸ ⟨congrArg (fun w => some (c, w)) hw, rfl⟩)
  | none =>
    have hsub : Decodes c w ((subDecode c w).getD (.undefinedOpcode c w)) := by
      cases h : subDecode c w with
      | none => exact .inl rfl
      | some i => exact .inr (subDecode_spells i h)
    dsimp only [coreDecode]
    rw [hb]
    repeat' refine decodes_ite (fun hop => ?_) ?_
    on_goal -1 => exact hsub
    all_goals exact ⟨by simp only [coreWord, encR_of_fields hop, encI_of_fields hop, encS_of_fields hop, encVM_of_fields hop,
      encJ_of_fields hop, encV_of_fields hop, encVS_of_fields hop, encX_of_fields hop], rfl⟩

/-- Settles O6: a word is undefined or spelled by what it decodes to (`coreDecode_decodes`). -/
theorem coreWordsEncode : Obligations.CoreWordsEncode :=
  fun c w hdef => (coreDecode_decodes c w).resolve_left hdef

end Sys2Proof.Machine
end

section
/-! What the shared operations leave alone (04 R103): counters, messages, traps and retirement write no byte of memory and
no register that instructions compute with, and keep the canonical form of the maps (log 5). -/

namespace Sys2Proof.Machine

open Sys2Proof

set_option Elab.async false

/-! ### The relation -/

/-- What the instructions of a core compute with: its registers and its store buffer, and where its handler lies. -/
def CoreSt.arch (x : CoreSt) : SMap Word × SMap Line × SMap (BitVec 16) × SMap Lane × Word × List SbEntry :=
  (x.sreg, x.vreg, x.preg, x.acc, x.tvec, x.sb)

/-- From a state in canonical form, a change keeps the form, memory, and what every core's instructions compute with. -/
def Quiet (s t : State) : Prop :=
  s.canon = true → t.canon = true ∧ t.mem = s.mem ∧ ∀ d, (t.core d).arch = (s.core d).arch

theorem canon_iff {s : State} :
    s.canon = true ↔ Memory.wf s.mem = true ∧ smWf 0 s.regs = true ∧ smWf {} s.cores = true := by
  simp only [State.canon, Bool.and_eq_true, and_assoc]

namespace Quiet

variable {s t u : State}

theorem refl (s : State) : Quiet s s := fun h => ⟨h, rfl, fun _ => rfl⟩

theorem trans (h : Quiet s t) (h' : Quiet t u) : Quiet s u := by
  intro hs
  obtain ⟨ht, hmem, hcore⟩ := h hs
  obtain ⟨hu, hmem', hcore'⟩ := h' ht
  exact ⟨hu, hmem'.trans hmem, fun d => (hcore' d).trans (hcore d)⟩

/-- A change outside memory, the registers and the cores is quiet. -/
theorem same (h : Quiet s t) (hmem : u.mem = t.mem := by rfl) (hregs : u.regs = t.regs := by rfl)
    (hcores : u.cores = t.cores := by rfl) : Quiet s u := by
  refine h.trans fun ht => ⟨?_, hmem, fun d => ?_⟩
  · rw [canon_iff] at ht ⊢
    rwa [hmem, hregs, hcores]
  · rw [State.core, State.core, hcores]

theorem setReg (h : Quiet s t) (r : Reg) (x : Dword) (i j k : Nat) : Quiet s (t.setReg r x i j k) :=
  h.trans fun ht => ⟨t.canon_setReg ht r x i j k, rfl, fun _ => rfl⟩

theorem setFld (h : Quiet s t) (f : Fld) (x i j k : Nat) : Quiet s (t.setFld f x i j k) :=
  h.setReg _ _ _ _ _

theorem setCore (h : Quiet s t) (c : Nat) {x : CoreSt} (hx : x.arch = (t.core c).arch) : Quiet s (t.setCore c x) := by
  refine h.trans fun ht => ⟨t.canon_setCore ht c x, rfl, fun d => ?_⟩
  rw [State.core_setCore _ (smWf_sorted (canon_iff.1 ht).2.2)]
  split
  · next hd => rw [hx, hd]
  · rfl

theorem updCore (h : Quiet s t) (c : Nat) {f : CoreSt → CoreSt} (hf : ∀ x, (f x).arch = x.arch := by exact fun _ => rfl) :
     Quiet s (t.updCore c f) :=
  h.setCore c (hf _)

theorem ite {p : Prop} [Decidable p] (ht : p → Quiet s t) (hu : ¬p → Quiet s u) : Quiet s (if p then t else u) := by
  split
  · next hp => exact ht hp
  · next hp => exact hu hp

/-- A fold whose every step is quiet is quiet. -/
theorem foldl {α β : Type} (π : β → State) {f : β → α → β} (hf : ∀ b a, Quiet (π b) (π (f b a))) (l : List α) (b : β) :
    Quiet (π b) (π (l.foldl f b)) := by
  induction l generalizing b with
  | nil => exact refl _
  | cons a l ih => exact (hf b a).trans (ih _)

/-! ### Registers, counters, vat events -/

theorem bumpErr (h : Quiet s t) (f : Fld) (i j k n : Nat) : Quiet s (t.bumpErr f i j k n) := h.setFld _ _ _ _ _

theorem setTask (h : Quiet s t) (v k st w : Nat) : Quiet s (t.setTask v k st w) := (h.setFld _ _ _ _ _).setFld _ _ _ _ _

theorem setWordBit (h : Quiet s t) (f : Fld) (i n : Nat) : Quiet s (t.setWordBit f i n) := h.setFld _ _ _ _ _

theorem dicLatch (h : Quiet s t) (n : Nat) : Quiet s (t.dicLatch n) := h.setFld _ _ _ _ _

theorem useInj (h : Quiet s t) (v b : Nat) (f : Fld) : Quiet s (t.useInj v b f) :=
  ite (fun _ => h) fun _ => ite (fun _ => (h.setFld _ _ _ _ _).bumpErr _ _ _ _ _) fun _ => (h.setFld _ _ _ _ _).bumpErr _ _ _ _ _

theorem refill (h : Quiet s t) (c : Nat) : Quiet s (t.refill c) := by
  unfold State.refill
  exact (((((h.useInj _ _ _).useInj _ _ _).useInj _ _ _).useInj _ _ _).useInj _ _ _).updCore c

theorem advance (h : Quiet s t) (c : Nat) : Quiet s (t.advance c) := (h.useInj _ _ _).updCore c

theorem resumeTask (h : Quiet s t) (c : Nat) : Quiet s (t.resumeTask c) := by
  unfold State.resumeTask
  refine updCore ?_ c
  split
  · exact h.setTask _ _ _ _
  · exact h

theorem bumpRaw (h : Quiet s t) (r : Reg) (i j k : Nat) : Quiet s (t.bumpRaw r i j k).1 := by
  unfold State.bumpRaw
  dsimp only
  split
  · exact (h.setFld _ _ _ _ _).setFld _ _ _ _ _
  · exact h.setFld _ _ _ _ _

theorem setEventLatch (h : Quiet s t) (c : Nat) : Quiet s (t.setEventLatch c).1 := by
  unfold State.setEventLatch
  dsimp only
  split
  · exact (((h.bumpRaw _ _ _ _).updCore _).resumeTask _).advance _
  · exact h.updCore _

theorem raiseOne (h : Quiet s t) (v n : Nat) : Quiet s (t.raiseOne v n).1 := by
  unfold State.raiseOne
  split
  · exact h
  · dsimp only
    split
    · exact (h.setWordBit _ _ _).setEventLatch _
    · exact h.setWordBit _ _ _

theorem raiseVat (h : Quiet s t) (v n : Nat) : Quiet s (t.raiseVat v n) :=
  ite (fun _ => (h.raiseOne _ _).raiseOne _ _) fun _ => h.raiseOne _ _

theorem bump (h : Quiet s t) (r : Reg) (i j k : Nat) : Quiet s (t.bump r i j k) :=
  ite (fun _ => ite (fun _ => (h.bumpRaw _ _ _ _).raiseVat _ _) fun _ => (h.bumpRaw _ _ _ _).dicLatch _) fun _ => h.bumpRaw _ _ _ _

/-! ### Messages and the links that carry them -/

theorem put (h : Quiet s t) (m : Msg) : Quiet s (t.put m) := h.same

theorem failReply (h : Quiet s t) (a : Agent) (tag r : Nat) : Quiet s (t.failReply a tag r) := by
  unfold State.failReply
  split
  · exact h.same
  · exact h.put _

theorem setPort (h : Quiet s t) (p : Nat) (x : PortSt) : Quiet s (t.setPort p x) := h.same

theorem setLink (h : Quiet s t) (g : Nat) (x : LinkSt) : Quiet s (t.setLink g x) := h.same

theorem setLn (h : Quiet s t) (p j : Nat) (x : LaneSt) : Quiet s (t.setLn p j x) := h.same

theorem unlock (h : Quiet s t) (p : Nat) : Quiet s (t.unlock p) :=
  h.trans <| foldl id (fun b _ => (((refl b).setLn p _ _).setFld _ _ _ _ _).setFld _ _ _ _ _) _ t

theorem portWake (h : Quiet s t) (p : Nat) : Quiet s (t.portWake p) :=
  ite (fun _ => ((h.setPort _ _).unlock _).setFld _ _ _ _ _) fun _ => h

theorem portPump (h : Quiet s t) (p : Nat) : Quiet s (t.portPump p) :=
  ite (fun _ => h.setPort _ _) fun _ => (h.setPort _ _).portWake _

theorem linkPut (h : Quiet s t) (g : Nat) (k : Pkt) : Quiet s (t.linkPut g k) := by
  unfold State.linkPut
  split
  · exact h
  · refine portPump ?_ _
    split
    · exact ((h.setLink _ _).setPort _ _).bump _ _ _ _
    · exact (h.setLink _ _).setPort _ _

theorem linkPump (h : Quiet s t) (g : Nat) : Quiet s (t.linkPump g) :=
  (h.setLink g _).trans <| foldl id (fun b k => ite (fun _ => (refl b).linkPut g k) fun _ => (refl b).setLink _ _) _ _

theorem linkSendOr (h : Quiet s t) (k : Pkt) (inp : Option Nat) : Quiet s (t.linkSendOr k inp) := by
  unfold State.linkSendOr State.linkSend
  cases t.chooseLink k with
  | none => exact h
  | some l => exact (h.setLink _ _).linkPump _

theorem fabLaunch (h : Quiet s t) (k : Pkt) (who : Option (Agent × Nat)) (ga : Dword) (reg : Bool) :
    Quiet s (t.fabLaunch k who ga reg) := by
  unfold State.fabLaunch
  dsimp only
  split
  · split
    · exact h.failReply _ _ _
    · exact h
  · split
    · exact h.same
    · refine linkSendOr ?_ _ _
      exact h.same

theorem fabReply (h : Quiet s t) (tag : Nat) (r : Reply) : Quiet s (t.fabReply tag r) := by
  unfold State.fabReply
  split
  · exact h
  · dsimp only
    split
    · exact h.same
    · refine linkSendOr ?_ _ _
      exact h.same

theorem fabPartial (h : Quiet s t) (dev p : Nat) (q : Partial) : Quiet s (t.fabPartial dev p q) :=
  ite (fun _ => h.put _) fun _ => h.linkSendOr _ _

theorem dispatch (h : Quiet s t) (m : Msg) : Quiet s (t.dispatch m) := by
  unfold State.dispatch
  split
  · split
    · exact h.fabLaunch _ _ _ _
    · exact h.put _
  · exact h.fabReply _ _
  · exact h.fabPartial _ _ _
  · exact h.put _

theorem send (h : Quiet s t) (m : Msg) : Quiet s (t.send m) := by
  unfold State.send
  refine ite (fun _ => h.dispatch _) fun _ => ?_
  split
  · refine ite (fun _ => ?_) fun _ => h.dispatch _
    split
    · exact h.dispatch _
    · exact h.dispatch _
    · exact h.put _
    · exact h.put _
  · exact ite (fun _ => h.put _) fun _ => h
  · exact ite (fun _ => h.dispatch _) fun _ => h
  · exact h.dispatch _

/-! ### Signed events and fault records -/

theorem setStream (h : Quiet s t) (v st : Nat) (x : Stream) : Quiet s (t.setStream v st x) := h.same

theorem formRec (h : Quiet s t) (v st w size : Nat) : Quiet s (t.formRec v st w size) :=
  ite (fun _ => (h.setStream _ _ _).bump _ _ _ _) fun _ => h

theorem sign (h : Quiet s t) (v st : Nat) (x : Dword) : Quiet s (t.sign v st x) :=
  ite (fun _ => h) fun _ => ite (fun _ => (h.setStream _ _ _).formRec _ _ _ _) fun _ => h.setStream _ _ _

theorem signClose (h : Quiet s t) (v st : Nat) : Quiet s (t.signClose v st) :=
  ite (fun _ => h) fun _ => (h.setStream _ _ _).formRec _ _ _ _

theorem putWords (h : Quiet s t) {f : State → Nat → Dword → State} (hf : ∀ s w d, Quiet s (f s w d)) (ws : List Dword) :
    Quiet s (t.putWords f ws) :=
  h.trans <| foldl Prod.fst (fun b _ => hf b.1 _ _) ws (t, 0)

theorem fqPut (h : Quiet s t) (ws : List Dword) : Quiet s (t.fqPut ws) := by
  refine ite (fun _ => ?_) fun _ => ?_
  · refine bumpErr (putWords (ite (fun _ => ?_) fun _ => h) ?_ ws) _ _ _ _ _
    · exact h.putWords (fun s w d => (refl s).setReg _ _ _ _ _) ws
    · exact fun s w d => (refl s).setReg _ _ _ _ _
  · exact (((h.putWords (fun s w d => (refl s).setReg _ _ _ _ _) ws).setFld _ _ _ _ _).setFld _ _ _ _ _).setFld _ _ _ _ _

theorem ringSend (h : Quiet s t) (p : Nat) : Quiet s (t.ringSend p) := by
  unfold State.ringSend
  split
  · refine ite (fun _ => h) fun _ => send ?_ _
    exact h.same
  · exact h

theorem ringPost (h : Quiet s t) (p : Nat) (ws : List Dword) (both : Bool) : Quiet s (t.ringPost p ws both) := by
  refine ite (fun _ => ringSend ?_ p) fun _ => h.bumpErr _ _ _ _ _
  exact h.same

theorem fault (h : Quiet s t) (r : FRec) : Quiet s (t.fault r) := by
  unfold State.fault
  dsimp only
  split
  · refine ringPost (fqPut ?_ _) _ _ _
    exact h.same
  · refine fqPut ?_ _
    exact h.same

/-! ### Traps and retirement -/

theorem trapRecord (h : Quiet s t) (c : Nat) (r : Trap) (w : Word) : Quiet s (t.trapRecord c r w) :=
  ((h.updCore c).setReg _ _ _ _ _).setReg _ _ _ _ _

theorem endTask (h : Quiet s t) (c st : Nat) : Quiet s (t.endTask c st) := by
  unfold State.endTask
  refine updCore ?_ c
  split
  · exact ((h.signClose _ _).setTask _ _ _ _).setFld _ _ _ _ _
  · exact h.signClose _ _

theorem taskFaulted (h : Quiet s t) (c : Nat) : Quiet s (t.taskFaulted c) := ((h.endTask _ _).setFld _ _ _ _ _).raiseVat _ _

theorem takeTrap (h : Quiet s t) (c : Nat) (r : Trap) (w : Word) : Quiet s (t.takeTrap c r w) := by
  have hrec := h.trapRecord c r w
  unfold State.takeTrap
  dsimp only
  split
  · refine updCore ?_ c
    split
    · exact hrec.setTask _ _ _ _
    · exact hrec
  · split
    · refine refill (updCore (ite (fun _ => ?_) fun _ => hrec) c) c
      exact (hrec.bumpErr _ _ _ _ _).fault _
    · exact taskFaulted (ite (fun _ => (hrec.bumpErr _ _ _ _ _).fault _) fun _ => hrec) c

theorem trapOn (h : Quiet s t) (c : Nat) (w : Word) (cause sub addr m : Nat) : Quiet s (t.trapOn c w cause sub addr m) :=
  h.takeTrap c _ w

theorem retire (h : Quiet s t) (c : Nat) : Quiet s (t.retire c) := ((h.bump _ _ _ _).updCore c).advance c

theorem retireTo (h : Quiet s t) (c : Nat) (pc : BitVec 16) : Quiet s (t.retireTo c pc) :=
  ((h.bump _ _ _ _).updCore c).refill c

end Quiet

end Sys2Proof.Machine
end

section
/-! Every instruction of a core keeps the canonical form of memory, the registers and the cores (log 5), and one that only
writes a scalar register leaves everything else alone (04 R103, R114). -/

namespace Sys2Proof.Machine

open Sys2Proof

set_option Elab.async false

/-! ### Accesses through the caches and translation are quiet -/

/-- What an answer with a state in it says of that state. -/
def Alloc.All (P : State → Prop) : Alloc → Prop
  | .done s => P s
  | _ => True

def CcLook.All (P : State → Prop) : CcLook → Prop
  | .hit _ s | .mchk s | .miss s => P s

def Xlate.All (P : State → Prop) : Xlate → Prop
  | .ga _ s | .fault _ s => P s
  | _ => True

def Far.All (P : State → Prop) : Far → Prop
  | .ga _ s | .ended s => P s
  | .reg _ => True

def FarPeek.All (P : State → Prop) : FarPeek → Prop
  | .hit _ s | .mchk s | .side _ _ s | .go _ _ s | .ended s => P s
  | _ => True

@[simp] theorem CoreSt.arch_setEnt (x : CoreSt) (i : Nat) (e : CacheEnt) : (x.setEnt i e).arch = x.arch := rfl

theorem CoreSt.arch_ageAll (x : CoreSt) (mask : Nat) : (x.ageAll mask).arch = x.arch := by
  unfold CoreSt.ageAll
  generalize maskEnts mask = l
  induction l generalizing x with
  | nil => rfl
  | cons i l ih =>
    rw [List.foldl_cons, ih]
    dsimp only
    split <;> rfl

theorem CoreSt.arch_pickOld (mask n : Nat) (x : CoreSt) : ∀ e ∈ x.pickOld mask n, e.2.arch = x.arch := by
  induction n generalizing x with
  | zero => rintro e ⟨⟩
  | succ n ih =>
    unfold CoreSt.pickOld
    split
    · rintro e ⟨⟩
      rfl
    · intro e he
      rw [ih _ e he, CoreSt.arch_ageAll]

theorem CoreSt.arch_pick (x : CoreSt) (mask : Nat) : ∀ e ∈ x.pick mask, e.2.arch = x.arch := by
  unfold CoreSt.pick
  split
  · rintro e ⟨⟩
    rfl
  · exact CoreSt.arch_pickOld mask 5 x

namespace Quiet

variable {s t u : State}

theorem partialWait (h : Quiet s t) (c : Nat) : Quiet s (t.partialWait c) :=
  ite (fun _ => h) fun _ => (h.updCore c).bump _ _ _ _

theorem csAccess (h : Quiet s t) (m : Nat) : Quiet s (t.csAccess m).2 := h.useInj _ _ _

theorem signed (h : Quiet s t) (v st : Nat) {act : State → State} (hact : Quiet s (act t)) : Quiet s (t.signed v st act) :=
  ite (fun _ => ite (fun _ => h) fun _ => h.same) fun _ => hact

theorem install (h : Quiet s t) (c : Nat) (k : CacheClass) (e : CacheEnt) : (t.install c k e).All (Quiet s) := by
  unfold State.install
  dsimp only
  split
  · exact h.setCore c (CoreSt.arch_setEnt _ _ _)
  · split
    · trivial
    · split
      · trivial
      · next i x hpick =>
        have hset : Quiet s (t.setCore c (x.setEnt i e)) := h.setCore c (CoreSt.arch_pick _ _ _ hpick)
        split
        · split
          · exact (hset.bump _ _ _ _).send _
          · exact (hset.bump _ _ _ _).bump _ _ _ _
        · exact hset

theorem ccLook (h : Quiet s t) (c line : Nat) (parity : Bool) : (t.ccLook c line parity).All (Quiet s) := by
  unfold State.ccLook
  dsimp only
  split
  · exact h
  · split
    · split
      · exact h.setCore c (CoreSt.arch_setEnt _ _ _)
      · exact (h.setCore c (CoreSt.arch_setEnt _ _ _)).bumpErr _ _ _ _ _
    · exact h.setCore c (CoreSt.arch_setEnt _ _ _)

theorem tlbRemove (h : Quiet s t) (v : Nat) (p : TlbEnt → Bool) : Quiet s (t.tlbRemove v p) := h.same

theorem xlate (h : Quiet s t) (v va : Nat) (write : Bool) : (t.xlate v va write).All (Quiet s) := by
  unfold State.xlate
  split
  · trivial
  · split
    · split <;> trivial
    · split
      · trivial
      · split
        · exact h.tlbRemove _ _
        · refine bump ?_ _ _ _ _
          exact h.same

theorem walkRequest (h : Quiet s t) (v p : Nat) (r : WalkReq) : ∀ u ∈ t.walkRequest v p r, Quiet s u := by
  intro u hu
  unfold State.walkRequest at hu
  dsimp only at hu
  split at hu
  · cases hu
    refine bump ?_ _ _ _ _
    exact (h.bump VAT_TLB_PC_MISS v 0 0).same
  · split at hu
    · cases hu
    · cases hu
      exact (h.bump VAT_TLB_PC_MISS v 0 0).same

theorem xltFault (h : Quiet s t) (p unit inst va reason info : Nat) : Quiet s (t.xltFault p unit inst va reason info) :=
  (h.ringPost _ _ _).bump _ _ _ _

theorem corePageFault (h : Quiet s t) (c : Nat) (w : Word) (va reason : Nat) (write : Bool) (m : Nat) :
    Quiet s (t.corePageFault c w va reason write m) := by
  unfold State.corePageFault
  dsimp only
  split
  · exact (h.xltFault _ _ _ _ _ _).trapOn _ _ _ _ _ _
  · exact h.trapOn _ _ _ _ _ _

theorem farAddr (h : Quiet s t) (c : Nat) (w : Word) (va : Nat) (write : Bool) (m : Nat) :
    (t.farAddr c w va write m).All (Quiet s) := by
  have hx := h.xlate (vatOf c) va write
  unfold State.farAddr
  split
  · next heq => rw [heq] at hx; exact hx
  · trivial
  · exact h.trapOn _ _ _ _ _ _
  · exact h.trapOn _ _ _ _ _ _
  · next heq => rw [heq] at hx; exact hx.corePageFault _ _ _ _ _ _
  · split
    · exact h
    · next u hu =>
      obtain ⟨p, -, hp⟩ := Option.bind_eq_some_iff.1 hu
      exact (h.walkRequest _ _ _ u hp).updCore c

theorem farPeek (h : Quiet s t) (c : Nat) (w : Word) (mi mc va n : Nat) (parity : Bool) :
    (t.farPeek c w mi mc va n parity).All (Quiet s) := by
  have hgo : ∀ u, Quiet s u → ((match u.farAddr c w va false mi with
      | .ga a s => FarPeek.go a false s
      | .reg off => FarPeek.go (regSpace off) true u
      | .ended s => FarPeek.ended s) : FarPeek).All (Quiet s) := by
    intro u hu
    have hf := hu.farAddr c w va false mi
    split
    · next heq => rw [heq] at hf; exact hf
    · exact hu
    · next heq => rw [heq] at hf; exact hf
  unfold State.farPeek
  dsimp only
  split
  · trivial
  · trivial
  · split
    · exact hgo t h
    · have hl := h.ccLook mc (va / 64) parity
      split
      · next heq => rw [heq] at hl; exact hl
      · next heq => rw [heq] at hl; exact hl
      · next u heq =>
        rw [heq] at hl
        split
        · split
          · exact hgo _ (hl.updCore mc)
          · exact hl
        · exact hgo _ hl

end Quiet

/-! ### Keeping the form -/

/-- A change keeps the canonical form. -/
def Keeps (s t : State) : Prop := s.canon = true → t.canon = true

theorem Quiet.keeps {s t : State} (h : Quiet s t) : Keeps s t := fun hs => (h hs).1

namespace Keeps

variable {s t u : State}

theorem refl (s : State) : Keeps s s := id

theorem trans (h : Keeps s t) (h' : Keeps t u) : Keeps s u := fun hs => h' (h hs)

theorem ite {p : Prop} [Decidable p] (ht : p → Keeps s t) (hu : ¬p → Keeps s u) : Keeps s (if p then t else u) := by
  split
  · next hp => exact ht hp
  · next hp => exact hu hp

theorem foldl {α β : Type} (π : β → State) {f : β → α → β} (hf : ∀ b a, Keeps (π b) (π (f b a))) (l : List α) (b : β) :
    Keeps (π b) (π (l.foldl f b)) := by
  induction l generalizing b with
  | nil => exact refl _
  | cons a l ih => exact (hf b a).trans (ih _)

theorem setCore (h : Keeps s t) (c : Nat) (x : CoreSt) : Keeps s (t.setCore c x) := fun hs => t.canon_setCore (h hs) c x

theorem updCore (h : Keeps s t) (c : Nat) (f : CoreSt → CoreSt) : Keeps s (t.updCore c f) := h.setCore c _

/-- A quiet change after one that keeps the form. -/
theorem quiet (h : Keeps s t) (h' : Quiet t u) : Keeps s u := h.trans h'.keeps

theorem same (h : Keeps s t) (hmem : u.mem = t.mem := by rfl) (hregs : u.regs = t.regs := by rfl)
    (hcores : u.cores = t.cores := by rfl) : Keeps s u := h.quiet ((Quiet.refl t).same hmem hregs hcores)

theorem retire (h : Keeps s t) (c : Nat) : Keeps s (t.retire c) := h.quiet ((Quiet.refl t).retire c)

theorem retireTo (h : Keeps s t) (c : Nat) (pc : BitVec 16) : Keeps s (t.retireTo c pc) := h.quiet ((Quiet.refl t).retireTo c pc)

theorem trapOn (h : Keeps s t) (c : Nat) (w : Word) (cause sub addr m : Nat) : Keeps s (t.trapOn c w cause sub addr m) :=
  h.quiet ((Quiet.refl t).trapOn c w cause sub addr m)

theorem send (h : Keeps s t) (m : Msg) : Keeps s (t.send m) := h.quiet ((Quiet.refl t).send m)

theorem bump (h : Keeps s t) (r : Reg) (i j k : Nat) : Keeps s (t.bump r i j k) := h.quiet ((Quiet.refl t).bump r i j k)

theorem sign (h : Keeps s t) (v st : Nat) (x : Dword) : Keeps s (t.sign v st x) := h.quiet ((Quiet.refl t).sign v st x)

theorem signed (h : Keeps s t) (v st : Nat) {act : State → State} (hact : Keeps s (act t)) : Keeps s (t.signed v st act) :=
  ite (fun _ => ite (fun _ => h) fun _ => h.same) fun _ => hact

/-- The issue guard: a store error, a machine check or an illegal word traps; else the instruction acts. -/
theorem issue (s : State) (c : Nat) (w : Word) (uses : List (BitVec 5)) (ill : Option Nat) {act : State → State}
    (hact : ∀ t, Keeps t (act t)) : Keeps s (s.issue c w uses ill act) := by
  have hs := Quiet.refl s
  unfold State.issue
  refine ite (fun _ => refl s) fun _ => ?_
  dsimp only
  split
  · exact ((hs.updCore c).takeTrap _ _ _).keeps
  · refine ite (fun _ => (hs.trapOn _ _ _ _ _ _).keeps) fun _ => ?_
    split
    · exact (hs.trapOn _ _ _ _ _ _).keeps
    · refine ite (fun _ => refl s) fun _ => ite (fun _ => ((hs.useInj _ _ _).trapOn _ _ _ _ _ _).keeps) fun _ => ?_
      exact (hs.useInj _ _ _).keeps.trans (hact _)

/-! ### Scalar instructions -/

theorem loadLocal (s : State) (c : Nat) (w : Word) (a n : Nat) (put : Nat → CoreSt → CoreSt) :
    Keeps s (s.loadLocal c w a n put) := by
  unfold State.loadLocal
  split
  · exact (refl s).trapOn _ _ _ _ _ _
  · split
    · exact ((Quiet.refl s).partialWait c).keeps
    · have hcs := ((Quiet.refl s).csAccess c).keeps
      exact ite (fun _ => hcs.trapOn _ _ _ _ _ _) fun _ => (hcs.updCore _ _).retire _

theorem pushSb (h : Keeps s t) (c : Nat) (e : SbEntry) : Keeps s (t.pushSb c e) := h.updCore _ _

theorem storeLocal (s : State) (c : Nat) (w : Word) (a n d : Nat) : Keeps s (s.storeLocal c w a n d) := by
  unfold State.storeLocal
  split
  · exact (refl s).trapOn _ _ _ _ _ _
  · exact ite (fun _ => refl s) fun _ => ((refl s).pushSb _ _).retire _

theorem endTask (h : Keeps s t) (c st : Nat) : Keeps s (t.endTask c st) := h.quiet ((Quiet.refl t).endTask c st)

theorem yieldPoint (h : Keeps s t) (c : Nat) {act : State → State} (hact : Keeps s (act t)) : Keeps s (t.yieldPoint c act) :=
  ite (fun _ => h.endTask c 6) fun _ => hact

theorem setTask (h : Keeps s t) (v k st w : Nat) : Keeps s (t.setTask v k st w) := h.quiet ((Quiet.refl t).setTask v k st w)

theorem suspend (h : Keeps s t) (c w : Nat) (k : WaitKind) : Keeps s (t.suspend c w k) := by
  unfold State.suspend
  refine updCore ?_ c _
  split
  · exact h.setTask _ _ _ _
  · exact h

/-! ### Vector instructions -/

theorem eachMember (s : State) (c : Nat) (rounds : Bool) (f : MemberOp) : Keeps s (s.eachMember c rounds f) := by
  unfold State.eachMember
  refine retire (updCore ?_ c _) c
  exact foldl (β := State × Flags) Prod.fst (fun b e => (refl b.1).setCore _ _) _ (s, 0)

theorem convert (s : State) (c : Nat) (v : VArg) : Keeps s (s.convert c v) := by
  unfold State.convert
  have hm := eachMember s c true (cvtMember v (fun m => Config.freeLine (s.free + m)))
  dsimp only
  split
  · exact hm.same
  · exact hm

/-! ### Far accesses -/

theorem farTake (s : State) (c : Nat) (w : Word) (mi mc va n : Nat) (parity : Bool) (put : Nat → CoreSt → CoreSt) :
    Keeps s (s.farTake c w mi mc va n parity put).1 := by
  have hp := (Quiet.refl s).farPeek c w mi mc va n parity
  unfold State.farTake
  split
  · exact (refl s).updCore _ _
  · next heq => 
    rw [heq] at hp
    exact (hp.keeps.bump _ _ _ _).updCore _ _
  · next d t u heq =>
    rw [heq] at hp
    have hb : Quiet s ((u.bump VAT_CORE_PC_CC_MISS (vatOf mc) (idxOf mc)).bump VAT_CORE_PC_SB_HIT (vatOf mc) (idxOf mc)) :=
      Quiet.bump (Quiet.bump hp _ _ _ _) _ _ _ _
    have hi := hb.install mc .p { valid := true, line := va / 64, data := d, rtime := t }
    refine updCore ?_ _ _
    split
    · next heq' =>
      rw [heq'] at hi
      exact (Quiet.keeps hi).updCore _ _
    · exact hb.keeps
  · next heq =>
    rw [heq] at hp
    split
    · exact (Quiet.keeps hp).send _
    · exact ((Quiet.keeps hp).bump _ _ _ _).send _
  · exact refl s

theorem farLoad (s : State) (c : Nat) (w : Word) (ms : List (Nat × Nat)) (fa n : Nat) (parity : Bool) (kind : BlkKind)
    (put : Nat → CoreSt → CoreSt) : Keeps s (s.farLoad c w ms fa n parity kind put) := by
  unfold State.farLoad
  split
  · exact (refl s).trapOn _ _ _ _ _ _
  · dsimp only
    split
    · next u hu =>
      obtain ⟨e, -, he⟩ := List.exists_of_findSome?_eq_some hu
      have hp := (Quiet.refl s).farPeek c w e.1 e.2 ((fa + 64 * e.1) % 2 ^ 48) n parity
      split at he
      · cases he
        exact ((Quiet.refl s).partialWait c).keeps
      · next heq =>
        rw [heq] at hp
        cases he
        exact (Quiet.keeps hp).trapOn _ _ _ _ _ _
      · next heq =>
        rw [heq] at hp
        cases he
        exact Quiet.keeps hp
      · split at he
        · cases he
          exact refl s
        · cases he
      · cases he
    · refine ite (fun _ => retire ?_ c) fun _ => updCore ?_ c _
      all_goals exact foldl (β := State × List Nat) Prod.fst (fun b _ => farTake b.1 c w _ _ _ n parity put) ms (s, [])

theorem farStore (s : State) (c : Nat) (w : Word) (ms : List (Nat × Nat)) (fa n : Nat) (data : CoreSt → Nat) :
    Keeps s (s.farStore c w ms fa n data) := by
  unfold State.farStore
  split
  · exact (refl s).trapOn _ _ _ _ _ _
  · dsimp only
    split
    · exact refl s
    · split
      · next u hu =>
        obtain ⟨e, -, he⟩ := List.exists_of_findSome?_eq_some hu
        have hf := (Quiet.refl s).farAddr c w ((fa + 64 * e.1) % 2 ^ 48) true e.1
        split at he
        · next heq =>
          rw [heq] at hf
          cases he
          exact Quiet.keeps hf
        · cases he
      · refine (refl s).signed _ _ (retire ?_ c)
        refine foldl id (fun b e => ?_) ms s
        have hf := (Quiet.refl b).farAddr c w ((fa + 64 * e.1) % 2 ^ 48) true e.1
        dsimp only [id]
        split
        · next heq =>
          rw [heq] at hf
          refine pushSb (ite (fun _ => Quiet.keeps hf) fun _ => (Quiet.keeps hf).sign _ _ _) _ _
        · exact (refl b).pushSb _ _
        · next heq =>
          rw [heq] at hf
          exact Quiet.keeps hf

theorem cacheOp (s : State) (c : Nat) (w : Word) (a : VMArg) {act : Nat → State → State} (hact : ∀ fa t, Keeps t (act fa t)) :
    Keeps s (s.cacheOp c w a act) :=
  issue s c w _ _ fun t => ite (fun _ => (refl t).trapOn _ _ _ _ _ _) fun _ => hact _ t

theorem atomic (s : State) (c : Nat) (r : RArg) (fn : BitVec 6) (e : CoreSt → Word) : Keeps s (s.atomic c r fn e) := by
  refine issue s c _ _ _ fun t => ?_
  dsimp only
  split
  · exact (refl t).trapOn _ _ _ _ _ _
  · refine ite (fun _ => refl t) fun _ => ?_
    have hf := (Quiet.refl t).farAddr c (encR 0x34 r fn) ((t.core c).pair r.rs1).toNat true 0
    split
    · next heq =>
      rw [heq] at hf
      exact Quiet.keeps hf
    · exact (((refl t).updCore _ _).updCore _ _).send _
    · next heq =>
      rw [heq] at hf
      refine (Quiet.keeps hf).signed _ _ ?_
      exact ((((Quiet.keeps hf).sign _ _ _).updCore _ _).updCore _ _).send _

/-! ### Messages and tallies -/

theorem sendMsg (s : State) (c : Nat) (r : RArg) (urgent : Bool) : Keeps s (s.sendMsg c r urgent) := by
  refine issue s c _ _ _ fun t => ?_
  dsimp only
  split
  · exact (refl t).trapOn _ _ _ _ _ _
  · exact (refl t).signed _ _ ((((refl t).sign _ _ _).send _).retire _)

theorem tallyInsn (s : State) (c : Nat) (r : RArg) (fn : BitVec 6) (uses : List (BitVec 5)) (ill : Option Nat)
    {act : Nat → State → State} (hact : ∀ n t, Keeps t (act n t)) : Keeps s (s.tallyInsn c r fn uses ill act) :=
  issue s c _ uses ill fun t => ite (fun _ => (refl t).trapOn _ _ _ _ _ _) fun _ => hact _ t

theorem signClose (h : Keeps s t) (v st : Nat) : Keeps s (t.signClose v st) := h.quiet ((Quiet.refl t).signClose v st)

theorem registerGate (h : Keeps s t) (v k : Nat) : Keeps s (t.registerGate v k) := by
  unfold State.registerGate
  exact ((h.same (u := t.setTaskSt v k _)).send _).same

theorem haltEnd (h : Keeps s t) (c : Nat) (released : Bool) : Keeps s (t.haltEnd c released) := by
  unfold State.haltEnd
  split
  · exact h
  · refine updCore (bump (ite (fun _ => setTask ?_ _ _ _ _) fun _ => ?_) _ _ _ _) c _
    all_goals exact signClose (ite (fun _ => h.send _) fun _ => h) _ _

/-! ### The instructions of a core -/

theorem execVld {c : CoreId} {vr : BitVec 4} {a : VMArg} (he : Machine.execVld c vr a s = .next t) : Keeps s t := by
  cases he
  refine issue _ _ _ _ _ fun u => ?_
  dsimp only
  split
  · exact (refl u).trapOn _ _ _ _ _ _
  · refine ite (fun _ => ((Quiet.refl u).partialWait _).keeps) fun _ => ?_
    have hf (f : Option Nat × State → Nat → Option Nat × State) (l : List Nat) (hstep : ∀ b m, Keeps b.2 (f b m).2) :
        Keeps u (l.foldl f (none, u)).2 := foldl Prod.snd hstep l (none, u)
    split
    · refine trapOn ?_ _ _ _ _ _ _
      exact hf _ _ fun b m => (((Quiet.refl b.2).csAccess m).keeps).updCore _ _
    · refine retire ?_ _
      exact hf _ _ fun b m => (((Quiet.refl b.2).csAccess m).keeps).updCore _ _

theorem execVst {c : CoreId} {vr : BitVec 4} {a : VMArg} (he : Machine.execVst c vr a s = .next t) : Keeps s t := by
  cases he
  refine issue _ _ _ _ _ fun u => ?_
  dsimp only
  split
  · exact (refl u).trapOn _ _ _ _ _ _
  · exact ite (fun _ => refl u) fun _ => retire (foldl id (fun b m => (refl b).pushSb _ _) _ u) _

theorem execCachePref {c : CoreId} {a : VMArg} (he : Machine.execCachePref c a s = .next t) : Keeps s t := by
  cases he
  refine cacheOp _ _ _ _ fun fa u => ite (fun _ => (refl u).retire _) fun _ => ?_
  have hx := (Quiet.refl u).xlate (vatOf c) fa false
  split
  · next heq =>
    rw [heq] at hx
    exact (((Quiet.keeps hx).updCore _ _).send _).retire _
  · split
    · next v hv =>
      obtain ⟨p, -, hp⟩ := Option.bind_eq_some_iff.1 hv
      exact ((Quiet.refl u).walkRequest _ _ _ v hp).keeps.retire _
    · exact refl u
  · exact (refl u).retire _

theorem execCacheZero {c : CoreId} {a : VMArg} (he : Machine.execCacheZero c a s = .next t) : Keeps s t := by
  cases he
  refine cacheOp _ _ _ _ fun fa u => ite (fun _ => refl u) fun _ => ?_
  have hf := (Quiet.refl u).farAddr c (encVM 0x14 1 a) (fa / 64 * 64) true 0
  split
  · next heq =>
    rw [heq] at hf
    exact Quiet.keeps hf
  · exact ((refl u).pushSb _ _).retire _
  · next ga v heq =>
    rw [heq] at hf
    refine (Quiet.keeps hf).signed _ _ ?_
    have hi := Quiet.install hf c .z { valid := true, line := fa / 64, pending := true, rtime := v.tsc32 }
    split
    · exact Quiet.keeps hf
    · exact (pushSb (ite (fun _ => Quiet.keeps hf) fun _ => (Quiet.keeps hf).sign _ _ _) _ _).retire _
    · next heq' =>
      rw [heq'] at hi
      exact (pushSb (ite (fun _ => Quiet.keeps hi) fun _ => (Quiet.keeps hi).sign _ _ _) _ _).retire _

theorem execVmov {c : CoreId} {v : VSArg} (he : Machine.execVmov c v s = .next t) : Keeps s t := by
  cases he
  refine issue _ _ _ _ _ fun u => ?_
  dsimp only
  split
  · exact ((refl u).updCore _ _).retire _
  · exact ((refl u).updCore _ _).retire _
  · exact eachMember _ _ _ _

theorem execAccPart {c : CoreId} {d : DArg} (he : Machine.execAccPart c d s = .next t) : Keeps s t := by
  cases he
  refine issue _ _ _ _ _ fun u => ite (fun _ => (refl u).trapOn _ _ _ _ _ _) fun _ => (refl u).signed _ _ (retire ?_ _)
  exact foldl id (fun b m => foldl id (fun b i => ((refl b).sign _ _ _).send _) _ b) _ u

theorem execRecv {c : CoreId} {r : RArg} (he : Machine.execRecv c r s = .next t) : Keeps s t := by
  cases he
  refine issue _ _ _ _ _ fun u => (refl u).yieldPoint _ ?_
  split
  · exact ((refl u).setCore _ _).retire _
  · exact (refl u).suspend _ _ _

theorem execRecvnb {c : CoreId} {r : RArg} (he : Machine.execRecvnb c r s = .next t) : Keeps s t := by
  cases he
  refine issue _ _ _ _ _ fun u => ?_
  split
  · exact ((refl u).setCore _ _).retire _
  · exact ((refl u).updCore _ _).retire _

theorem signAhead (h : Keeps s t) (v st n : Nat) : Keeps s (t.signAhead v st n).1 := by
  unfold State.signAhead
  split
  · exact h
  · exact h.same

theorem setLadle (h : Keeps s t) (v l : Nat) (x : LadleSt) : Keeps s (t.setLadle v l x) := h.same

theorem ladleSubmit (h : Keeps s t) (v l : Nat) (ws : List Dword) (privileged : Bool) (stream : Option Nat) :
    Keeps s (t.ladleSubmit v l ws privileged stream).1 := by
  unfold State.ladleSubmit
  dsimp only
  split
  · exact h
  · have hput : ∀ u x, Keeps s u → Keeps s (if (u.setLadle v l x).fld VAT_LADLE_STAT.STATE v l = 0 then
        (u.setLadle v l x).setFld VAT_LADLE_STAT.STATE 1 v l else u.setLadle v l x) := fun u x hu =>
      ite (fun _ => (hu.setLadle v l x).quiet ((Quiet.refl _).setFld _ _ _ _ _)) fun _ => hu.setLadle v l x
    cases stream with
    | none => exact hput _ _ h
    | some st => exact hput _ _ (h.signAhead _ _ _)

theorem execLsubmit {c : CoreId} {r : RArg} (he : Machine.execLsubmit c r s = .next t) : Keeps s t := by
  cases he
  refine issue _ _ _ _ _ fun u => (refl u).signed _ _ ?_
  have hsub := (refl u).ladleSubmit (vatOf c) (bvBits ((u.core c).s r.rs1) 0 2)
    (lineWords ((u.core c).v (bvBits r.rs2 0 4))) false (some (idxOf c))
  exact (hsub.updCore _ _).retire _

theorem execHalt {c : CoreId} {r : RArg} (he : Machine.execHalt c r s = .next t) : Keeps s t := by
  cases he
  refine issue _ _ _ _ _ fun u => (refl u).yieldPoint _ (ite (fun _ => refl u) fun _ => ?_)
  split
  · exact refl u
  · exact ite (fun _ => (((refl u).setTask _ _ _ _).updCore _ _).registerGate _ _) fun _ => (refl u).haltEnd _ _

/-- Every instruction of a core keeps the canonical form, whether it completes, waits or traps. -/
theorem exec {i : Instr} {c : CoreId} {w : Word} (hi : coreWord i = some (c, w)) (he : Machine.exec i s = .next t) :
    Keeps s t := by
  have hput (c : Nat) (f : CoreSt → CoreSt) (u : State) : Keeps u ((u.updCore c f).retire c) := ((refl u).updCore c f).retire c
  cases i with
  | alu c r fn => cases he; exact issue _ _ _ _ _ fun u => hput c _ u
  | addi c a => cases he; exact issue _ _ _ _ _ fun u => hput c _ u
  | andi c a => cases he; exact issue _ _ _ _ _ fun u => hput c _ u
  | ori c a => cases he; exact issue _ _ _ _ _ fun u => hput c _ u
  | shi c a => cases he; exact issue _ _ _ _ _ fun u => hput c _ u
  | lui c a => cases he; exact issue _ _ _ _ _ fun u => hput c _ u
  | csr c a => cases he; exact issue _ _ _ _ _ fun u => hput c _ u
  | rdtsc c r lag => cases he; exact issue _ _ _ _ _ fun u => ((refl u).same.updCore c _).retire c
  | div c r fn => cases he; exact issue _ _ _ _ _ fun u => ite (fun _ => refl u) fun _ => hput c _ u
  | lw c a => cases he; exact issue _ _ _ _ _ fun u => loadLocal _ _ _ _ _ _
  | sw c a => cases he; exact issue _ _ _ _ _ fun u => storeLocal _ _ _ _ _ _
  | lsub c r fn => cases he; exact issue _ _ _ _ _ fun u => ite (fun _ => storeLocal _ _ _ _ _ _) fun _ => loadLocal _ _ _ _ _ _
  | fld c a parity => cases he; exact issue _ _ _ _ _ fun u => farLoad _ _ _ _ _ _ _ _ _
  | fst c a => cases he; exact issue _ _ _ _ _ fun u => farStore _ _ _ _ _ _ _
  | vldf c vr a parity => cases he; exact issue _ _ _ _ _ fun u => farLoad _ _ _ _ _ _ _ _ _
  | vstf c vr a => cases he; exact issue _ _ _ _ _ fun u => farStore _ _ _ _ _ _ _
  | vld c vr a => exact execVld he
  | vst c vr a => exact execVst he
  | cachePref c a => exact execCachePref he
  | cacheZero c a => exact execCacheZero he
  | cacheInvl c a => cases he; exact cacheOp _ _ _ _ fun _ u => ite (fun _ => (refl u).retire c) fun _ => hput c _ u
  | cacheInvall c a => cases he; exact issue _ _ _ _ _ fun u => ite (fun _ => refl u) fun _ => hput c _ u
  | branch c op r1 r2 off =>
    cases he
    exact issue _ _ _ _ _ fun u => ite (fun _ => (refl u).retireTo _ _) fun _ => (refl u).retire _
  | jal c off => cases he; exact issue _ _ _ _ _ fun u => ((refl u).updCore _ _).retireTo _ _
  | jalr c a =>
    cases he
    exact issue _ _ _ _ _ fun u => ite (fun _ => (refl u).trapOn _ _ _ _ _ _) fun _ =>
      ite (fun _ => (refl u).trapOn _ _ _ _ _ _) fun _ => ((refl u).updCore _ _).retireTo _ _
  | valu c v => cases he; exact issue _ _ _ _ _ fun u => eachMember _ _ _ _
  | vfp c v => cases he; exact issue _ _ _ _ _ fun u => eachMember _ _ _ _
  | vmov c v => exact execVmov he
  | vperm c v => cases he; exact issue _ _ _ _ _ fun u => eachMember _ _ _ _
  | vcmp c v => cases he; exact issue _ _ _ _ _ fun u => eachMember _ _ _ _
  | dot c d => cases he; exact issue _ _ _ _ _ fun u => eachMember _ _ _ _
  | dotP c d => cases he; exact issue _ _ _ _ _ fun u => eachMember _ _ _ _
  | dotmx c x => cases he; exact issue _ _ _ _ _ fun u => eachMember _ _ _ _
  | accClr c d => cases he; exact issue _ _ _ _ _ fun u => eachMember _ _ _ _
  | accRd c d => cases he; exact issue _ _ _ _ _ fun u => eachMember _ _ _ _
  | accRdc c d => cases he; exact issue _ _ _ _ _ fun u => eachMember _ _ _ _
  | accAddv c d => cases he; exact issue _ _ _ _ _ fun u => eachMember _ _ _ _
  | accPart c d => exact execAccPart he
  | cvt c v => cases he; exact issue _ _ _ _ _ fun u => convert _ _ _
  | send c r => cases he; exact sendMsg _ _ _ _
  | sendu c r => cases he; exact sendMsg _ _ _ _
  | dbell c r =>
    cases he
    exact issue _ _ _ _ _ fun u => ite (fun _ => (refl u).trapOn _ _ _ _ _ _) fun _ =>
      (refl u).signed _ _ ((((refl u).sign _ _ _).send _).retire _)
  | recv c r => exact execRecv he
  | recvnb c r => exact execRecvnb he
  | tinc c r =>
    cases he
    exact tallyInsn _ _ _ _ _ _ fun _ u => (refl u).signed _ _ ((((refl u).sign _ _ _).send _).retire _)
  | twait c r => cases he; exact tallyInsn _ _ _ _ _ _ fun _ u => (refl u).yieldPoint _ (((refl u).suspend _ _ _).send _).same
  | trd c r => cases he; exact tallyInsn _ _ _ _ _ _ fun _ u => ((refl u).updCore _ _).send _
  | tsett c r => cases he; exact tallyInsn _ _ _ _ _ _ fun _ u => ((refl u).send _).retire _
  | lsubmit c r => exact execLsubmit he
  | atom c r fn => cases he; exact atomic _ _ _ _ _
  | acas c r => cases he; exact atomic _ _ _ _ _
  | syncI c r => cases he; exact issue _ _ _ _ _ fun u => ite (fun _ => refl u) fun _ => (refl u).retireTo _ _
  | fence c r => cases he; exact issue _ _ _ _ _ fun u => ite (fun _ => (refl u).retire _) fun _ => refl u
  | yield c r => cases he; exact issue _ _ _ _ _ fun u => (refl u).yieldPoint _ ((refl u).retire _)
  | wfe c r =>
    cases he
    exact issue _ _ _ _ _ fun u => (refl u).yieldPoint _ (ite (fun _ => hput c _ u) fun _ => (refl u).suspend _ _ _)
  | trap c r => cases he; exact issue _ _ _ _ _ fun u => (refl u).trapOn _ _ _ _ _ _
  | halt c r => exact execHalt he
  | tret c r => cases he; exact issue _ _ _ _ _ fun u => ((refl u).updCore _ _).retireTo _ _
  | _ => cases hi

end Keeps

/-- Settles O11: a step that takes a core's instruction runs it on the rest of the queue, and every instruction keeps the form
(`Keeps.exec`), because its shared operations do. -/
theorem coreStepsKeepForm : Obligations.CoreStepsKeepForm := by
  intro c w i cs s t hi hpend hs hstep
  simp only [step, hpend] at hstep
  exact Keeps.exec hi hstep hs

end Sys2Proof.Machine
end

section
/-! Steps: a command at the front of the queue runs on the rest of it, every command answers, and a step of an empty queue is a
period of `MC_TSC` (02 R56, log 32). -/

namespace Sys2Proof.Machine

open Sys2Proof

set_option Elab.async false

/-! ### The device's counters leave memory and `MC_TSC` -/

theorem Reg.base_le_addr (r : Reg) (i j k : Nat) : r.base ≤ r.addr i j k := by
  unfold Reg.addr
  split <;> omega

/-- From a state in canonical form, a change keeps the form, memory and `MC_TSC`. -/
def KeepsTsc (s t : State) : Prop := s.canon = true → t.canon = true ∧ t.mem = s.mem ∧ t.reg MC_TSC = s.reg MC_TSC

namespace KeepsTsc

variable {s t u : State} {r : Reg}

theorem refl (s : State) : KeepsTsc s s := fun h => ⟨h, rfl, rfl⟩

theorem trans (h : KeepsTsc s t) (h' : KeepsTsc t u) : KeepsTsc s u := by
  intro hs
  obtain ⟨ht, hmem, hreg⟩ := h hs
  obtain ⟨hu, hmem', hreg'⟩ := h' ht
  exact ⟨hu, hmem'.trans hmem, hreg'.trans hreg⟩

theorem setFld (h : KeepsTsc s t) {f : Fld} (hf : MC_TSC.base < f.reg.base) (x i j k : Nat) :
    KeepsTsc s (t.setFld f x i j k) :=
  h.trans fun ht => ⟨t.canon_setFld ht f x i j k, rfl, State.reg_setReg_ne (smWf_sorted (canon_iff.1 ht).2.1) _
    (Nat.ne_of_lt (Nat.lt_of_lt_of_le hf (Reg.base_le_addr _ _ _ _)))⟩

/-- A counter of the device, whose overflow is a latch of the interrupt controller. -/
theorem bump (h : KeepsTsc s t) (hr : MC_TSC.base < r.base) (hdev : r.base < 0x1000000) (i j k : Nat) :
    KeepsTsc s (t.bump r i j k) := by
  have hraw : KeepsTsc s (t.bumpRaw r i j k).1 := by
    unfold State.bumpRaw
    dsimp only
    split
    · exact (h.setFld hr _ _ _ _).setFld hr _ _ _ _
    · exact h.setFld hr _ _ _ _
  unfold State.bump
  simp only [if_neg (Nat.not_le.2 hdev)]
  split
  · exact hraw.setFld (by decide) _ _ _ _
  · exact hraw

theorem tickEach (h : KeepsTsc s t) (hr : MC_TSC.base < r.base) (hdev : r.base < 0x1000000) (ix : List (Nat × Nat))
    (on : State → Nat → Nat → Bool) : KeepsTsc s (t.tickEach r ix on) := by
  unfold State.tickEach
  induction ix generalizing t with
  | nil => exact h
  | cons e ix ih =>
    refine ih ?_
    dsimp only
    split
    · exact h.bump hr hdev _ _ _
    · exact h

end KeepsTsc

/-- While the reference runs, a period advances `MC_TSC` by one and leaves memory (02 R56). -/
theorem State.tick_runs {s : State} (h : s.canon = true) (hrun : s.tscRuns = true) :
    s.tick.reg MC_TSC = s.reg MC_TSC + 1 ∧ s.tick.mem = s.mem := by
  have hset : (s.setReg MC_TSC (s.reg MC_TSC + 1)).reg MC_TSC = s.reg MC_TSC + 1 :=
    State.reg_setReg_same (smWf_sorted (canon_iff.1 h).2.1) _ _ _ _ _
  have hrest : KeepsTsc (s.setReg MC_TSC (s.reg MC_TSC + 1)) s.tick := by
    have hcount := (((KeepsTsc.refl (s.setReg MC_TSC (s.reg MC_TSC + 1))).tickEach (r := CRK_CH_PC_THROT) (by decide) (by decide)
      (pairsOf 8 16) (fun s k j => s.fld CRK_CH_STAT.TLVL k j ≠ 0)).tickEach (r := CEL_PC_THROT) (by decide) (by decide)
      (pairsOf 8 1) (fun s p _ => s.fld CEL_STAT.TLVL p ≠ 0)).tickEach (r := LNK_PC_LP_TIME) (by decide) (by decide)
      (pairsOf 48 1) (fun s p _ => s.portState p = 7 || s.portState p = 8)
    unfold State.tick
    rw [if_neg (by simp [hrun])]
    dsimp only
    split
    · exact hcount
    · exact hcount.bump (by decide) (by decide) _ _ _
  obtain ⟨-, hmem, hreg⟩ := hrest (s.canon_setReg h _ _ _ _ _)
  exact ⟨hreg.trans hset, hmem⟩

/-! ### Steps -/

/-- Settles O1, from the definition of a step. -/
theorem stepRunsFront : Obligations.StepRunsFront := by
  intro c cs s h
  simp only [step, h]

/-- Every command ends in a next state: each arm of `exec` gives one. -/
theorem exec_answers (c : Instr) (s : State) : Answers (exec c s) := by
  cases c
  all_goals exact ⟨_, rfl⟩

theorem step_idle {s : State} (h : s.pending = []) : step s = .next s.tick := by
  simp only [step, h]

/-- Settles O2: a step is a command's, which answers, or a period, which advances `MC_TSC` while the reference runs. -/
theorem everyStepAnswers : Obligations.EveryStepAnswers := by
  refine ⟨exec_answers, fun s => ?_, fun s h haux => ?_, fun s h hcanon haux href => ?_⟩
  · cases h : s.pending with
    | nil => exact ⟨_, step_idle h⟩
    | cons c cs => exact stepRunsFront c cs s h ▸ exec_answers c _
  · rw [step_idle h, State.tick, if_pos (by simp [State.tscRuns, haux])]
  · exact ⟨_, step_idle h, State.tick_runs hcanon (by simp [State.tscRuns, haux, href])⟩

/-! ### Reset and written-out words -/

theorem State.reg_reset (r : Reg) (i j k : Nat) : State.reset.reg r i j k = BitVec.ofNat 64 r.reset := BitVec.zero_xor

theorem State.fld_reset (f : Fld) (i j k : Nat) : State.reset.fld f i j k = bvBits (BitVec.ofNat 64 f.reg.reset) f.lo f.width := by
  rw [State.fld, State.reg_reset]

/-- Settles O3: after reset every register reads its reset value (`State.reg_reset`), at every index. -/
theorem resetState : Obligations.ResetState := by
  unfold Obligations.ResetState
  simp only [State.reg_reset, State.fld_reset]
  exact ⟨rfl, rfl, rfl, fun _ _ _ _ => ⟨rfl, rfl⟩, fun _ _ => ⟨rfl, rfl⟩, fun _ _ => ⟨rfl, rfl⟩, fun _ _ => ⟨rfl, rfl⟩, rfl,
    fun _ _ => rfl, fun _ _ _ _ => rfl, fun _ _ => rfl, rfl, rfl, rfl, rfl, rfl, rfl⟩

/-- Settles O4: each word is that of the instruction, which its decoding gives back (`coreWordsDecode`). -/
theorem coreWordsWrittenOut : Obligations.CoreWordsWrittenOut := by
  intro c
  refine ⟨?_, ?_, ?_, ?_, ?_, ?_, ?_, ?_, ?_, ?_, rfl⟩
  all_goals exact coreWordsDecode _ c _ rfl rfl

end Sys2Proof.Machine
end

section
/-! A core that may not issue, or whose word at `PC` is another one, executes no instruction (04 R105). -/

namespace Sys2Proof.Machine

open Sys2Proof

set_option Elab.async false

/-- The command runs through the issue guard of core `c` with the instruction word `w`. -/
def Issues (i : Instr) (c : CoreId) (w : Word) (s : State) : Prop :=
  ∃ uses ill act, exec i s = .next (s.issue c w uses ill act)

theorem State.sendMsg_eq_issue (s : State) (c : Nat) (r : RArg) (urgent : Bool) :
    ∃ act, s.sendMsg c r urgent = s.issue c (encR 0x30 r (if urgent then 1 else 0)) [r.rs1, r.rs2] (resMsg r) act := by
  unfold State.sendMsg
  exact ⟨_, rfl⟩

theorem State.tallyInsn_eq_issue (s : State) (c : Nat) (r : RArg) (fn : BitVec 6) (uses : List (BitVec 5)) (ill : Option Nat)
    (act : Nat → State → State) : ∃ act', s.tallyInsn c r fn uses ill act = s.issue c (encR 0x32 r fn) uses ill act' := by
  unfold State.tallyInsn
  exact ⟨_, rfl⟩

theorem State.cacheOp_eq_issue (s : State) (c : Nat) (w : Word) (a : VMArg) (act : Nat → State → State) :
    ∃ uses ill act', s.cacheOp c w a act = s.issue c w uses ill act' := by
  unfold State.cacheOp
  exact ⟨_, _, _, rfl⟩

theorem State.atomic_eq_issue (s : State) (c : Nat) (r : RArg) (fn : BitVec 6) (e : CoreSt → Word) :
    ∃ uses ill act, s.atomic c r fn e = s.issue c (encR 0x34 r fn) uses ill act := by
  unfold State.atomic
  exact ⟨_, _, _, rfl⟩

/-- What an instruction shares with others stands behind the guard too: messages, tallies, the curd cache, atomics. -/
theorem issues_of_coreWord {i : Instr} {c : CoreId} {w : Word} (h : coreWord i = some (c, w)) (s : State) : Issues i c w s := by
  have hshared {w : Word} {t : State} (hi : exec i s = .next t) (ht : ∃ uses ill act, t = s.issue c w uses ill act) :
      Issues i c w s := by
    obtain ⟨uses, ill, act, rfl⟩ := ht
    exact ⟨uses, ill, act, hi⟩
  have htally (r : RArg) (fn : BitVec 6) (uses : List (BitVec 5)) (ill : Option Nat) (act : Nat → State → State)
      (hi : exec i s = .next (s.tallyInsn c r fn uses ill act)) : Issues i c (encR 0x32 r fn) s :=
    hshared hi ⟨uses, ill, s.tallyInsn_eq_issue c r fn uses ill act⟩
  cases i with
  | send c r => cases h; exact hshared rfl ⟨_, _, s.sendMsg_eq_issue c r false⟩
  | sendu c r => cases h; exact hshared rfl ⟨_, _, s.sendMsg_eq_issue c r true⟩
  | tinc c r => cases h; exact htally r 0 _ _ _ rfl
  | twait c r => cases h; exact htally r 1 _ _ _ rfl
  | trd c r => cases h; exact htally r 2 _ _ _ rfl
  | tsett c r => cases h; exact htally r 3 _ _ _ rfl
  | cachePref c a => cases h; exact hshared rfl (s.cacheOp_eq_issue c _ a _)
  | cacheZero c a => cases h; exact hshared rfl (s.cacheOp_eq_issue c _ a _)
  | cacheInvl c a => cases h; exact hshared rfl (s.cacheOp_eq_issue c _ a _)
  | atom c r fn => cases h; exact hshared rfl (s.atomic_eq_issue c r _ _)
  | acas c r => cases h; exact hshared rfl (s.atomic_eq_issue c r _ _)
  | _ => cases h <;> exact ⟨_, _, _, rfl⟩

theorem canIssue_of_fatal {s : State} (h : s.fatal = true) (c : Nat) : s.canIssue c = false := by
  simp [State.canIssue, h]

theorem canIssue_of_idle {s : State} {c : Nat} (h : (s.core c).task = none) : s.canIssue c = false := by
  simp [State.canIssue, h]

/-- Settles O7: every instruction of a core goes through the issue guard, which holds it. -/
theorem idleCoreExecutesNothing : Obligations.IdleCoreExecutesNothing := by
  intro i c w s hw hidle
  obtain ⟨uses, ill, act, hexec⟩ := issues_of_coreWord hw s
  have hheld : s.canIssue c = false ∨ (s.core c).fbuf.head?.map Prod.fst ≠ some w := by
    obtain hfatal | htask | hissue | hword := hidle
    · exact .inl (canIssue_of_fatal hfatal c)
    · exact .inl (canIssue_of_idle htask)
    · exact .inl hissue
    · exact .inr hword
  rw [hexec, issue_not_ready hheld]

end Sys2Proof.Machine
end

section
/-! What the canonical form does not say (log 5): it bounds the map of the cores, not the map of the scalar registers inside
a core. Writing 0 removes an entry, and in a map whose keys are out of order or repeated that uncovers what stood behind it. -/

namespace Sys2Proof.Machine

open Sys2Proof

set_option Elab.async false

/-- Core 0 of vat 0 runs the task of slot 0, the words `ws` are in its fetch buffer, and its scalar registers are the map `m`. -/
def coreWithRegs (ws : List Word) (m : SMap Word) : State :=
  ((State.reset.setFld VAT_TASK_CTL.STATE 3 0 0).setReg VAT_CORE_STAT 0 0 0).updCore 0
    (fun x => { x with task := some 0, fbuf := ws.map (·, false), sreg := m })

/-- `ADDI s5, s0, 0` where the entries of `s5` and `s3` are out of order. -/
def swappedRegs : State := coreWithRegs [encI 0x02 ⟨5, 0, 0⟩] [(5, 1), (3, 1)]

/-- `s3` reads 0, until `s5` is written. -/
theorem swappedRegs_frame : ∀ t, exec (.addi 0 ⟨5, 0, 0⟩) swappedRegs = .next t →
    (t.core 0).s 3 = 1 ∧ (swappedRegs.core 0).s 3 = 0 := by
  rintro _ ⟨⟩
  decide +kernel

/-- Refutes O8: in `swappedRegs` the write of `s5` changes what `s3` reads. The statement asks for the canonical form of the
state, which leaves the order of a core's registers open. -/
theorem not_scalarFrame : ¬ Obligations.ScalarFrame := by
  intro h
  have hform : swappedRegs.canon = true := by decide +kernel
  obtain ⟨-, hothers, -⟩ := h (.addi 0 ⟨5, 0, 0⟩) 0 5 swappedRegs _ rfl hform rfl
  obtain ⟨hafter, hbefore⟩ := swappedRegs_frame _ rfl
  have hframe := hothers 3 (by decide)
  exact absurd (hafter.symm.trans (hframe.trans hbefore)) (by decide)

/-- `SW s0` at 0x7FFC, then `LW s5` from there, where `s5` has two entries. -/
def doubledRegs : State := coreWithRegs [encS 0x09 ⟨0, 0, 0x7FFC⟩, encI 0x08 ⟨5, 0, 0x7FFC⟩] [(5, 1), (5, 2)]

/-- Refutes O9: in `doubledRegs` the load of the stored 0 removes the first entry of `s5`, which then reads the second. The
statement asks for the canonical form of the state, which leaves the keys of a core's registers open. -/
theorem not_storeThenLoad : ¬ Obligations.StoreThenLoad := by
  intro h
  have hready : Ready doubledRegs 0 (encS 0x09 ⟨0, 0, 0x7FFC⟩) := by unfold Ready; decide +kernel
  have hform : doubledRegs.canon = true := by decide +kernel
  obtain ⟨t, ht, -, hload⟩ := h 0 ⟨0, 0, 0x7FFC⟩ ⟨5, 0, 0x7FFC⟩ 0x7FFC doubledRegs hready hform (by decide +kernel) (by decide)
    (by decide) (by decide +kernel)
  cases ht
  obtain ⟨u, hu, -, hs⟩ := hload (by unfold Ready; decide +kernel) (by decide +kernel) (by decide +kernel)
  cases hu
  exact absurd hs (by decide +kernel)

end Sys2Proof.Machine
end

section
/-! What a write by the access codes of a register's fields leaves in each of them (00 R13, R15). -/

namespace Sys2Proof.Machine

open Sys2Proof

set_option Elab.async false

/-! ### The fields of a register -/

/-- Two fields share no bit. -/
def Fld.Apart (f g : Fld) : Prop := g.lo + g.width ≤ f.lo ∨ f.lo + f.width ≤ g.lo

/-- Every field of a register's list lies in the register. -/
theorem regTable_flds_fit : ∀ e ∈ regTable, ∀ f ∈ e.2, f.reg = e.1 ∧ f.lo + f.width ≤ 64 := by decide +kernel

theorem regTable_flds_apart : ∀ e ∈ regTable, e.2.Pairwise Fld.Apart := by
  unfold Fld.Apart
  decide +kernel

/-! ### Writing one field by its access code -/

/-- What a write of `d` by `a` does to the field `f`. -/
def State.plainFld (a : Agent) (r : RegAt) (d : Dword) (s : State) (f : Fld) : State :=
  match f.acc with
  | .rw | .rws => s.setFld f (bvBits d f.lo f.width) r.i r.j r.k
  | .rw1c => s.setFld f (s.fld f r.i r.j r.k &&& (2 ^ f.width - 1 ^^^ bvBits d f.lo f.width)) r.i r.j r.k
  | .ro => if a = .mgmt ∧ r.reg.fw then s.setFld f (bvBits d f.lo f.width) r.i r.j r.k else s
  | .wo | .rc => s

/-- What the field reads as afterwards, for a writer other than the management core. -/
def State.plainVal (r : RegAt) (d : Dword) (s : State) (f : Fld) : Nat :=
  match f.acc with
  | .rw | .rws => bvBits d f.lo f.width
  | .rw1c => s.fld f r.i r.j r.k &&& (2 ^ f.width - 1 ^^^ bvBits d f.lo f.width)
  | _ => s.fld f r.i r.j r.k

theorem State.plainWrite_eq_foldl (s : State) (a : Agent) (r : RegAt) (d : Dword) :
    s.plainWrite a r d = r.flds.foldl (State.plainFld a r d) s := rfl

theorem bvBits_lt {n : Nat} (d : BitVec n) (lo w : Nat) : bvBits d lo w < 2 ^ w := Nat.mod_lt _ (by positivity)

section
variable {s : State} {a : Agent} {r : RegAt} {d : Dword} {f : Fld}

/-- The write of a field leaves the state or sets the field. -/
theorem State.plainFld_cases : s.plainFld a r d f = s ∨ ∃ x, s.plainFld a r d f = s.setFld f x r.i r.j r.k := by
  unfold State.plainFld
  split
  · exact .inr ⟨_, rfl⟩
  · exact .inr ⟨_, rfl⟩
  · exact .inr ⟨_, rfl⟩
  · split
    · exact .inr ⟨_, rfl⟩
    · exact .inl rfl
  · exact .inl rfl
  · exact .inl rfl

theorem State.canon_plainFld (h : s.canon = true) : (s.plainFld a r d f).canon = true := by
  obtain he | ⟨x, he⟩ := s.plainFld_cases (a := a) (r := r) (d := d) (f := f)
  · rwa [he]
  · rw [he]
    exact s.canon_setFld h _ _ _ _ _

theorem State.mem_plainFld : (s.plainFld a r d f).mem = s.mem := by
  obtain he | ⟨x, he⟩ := s.plainFld_cases (a := a) (r := r) (d := d) (f := f) <;> rw [he]
  rfl

/-- A field of a register at another address reads as before. -/
theorem State.fld_plainFld_ne (h : s.canon = true) (hf : f.reg = r.reg) {g : Fld}
    (hg : g.reg.addr r.i r.j r.k ≠ r.reg.addr r.i r.j r.k) :
    (s.plainFld a r d f).fld g r.i r.j r.k = s.fld g r.i r.j r.k := by
  obtain he | ⟨x, he⟩ := s.plainFld_cases (a := a) (r := r) (d := d) (f := f) <;> rw [he]
  exact State.fld_setFld_ne (smWf_sorted (canon_iff.1 h).2.1) x (hf ▸ hg)

/-- A field that shares no bit with the written one reads as before. -/
theorem State.fld_plainFld_apart (h : s.canon = true) {g : Fld} (hreg : g.reg = f.reg) (hf : f.lo + f.width ≤ 64)
    (hg : g.lo + g.width ≤ 64) (hd : g.lo + g.width ≤ f.lo ∨ f.lo + f.width ≤ g.lo) :
    (s.plainFld a r d f).fld g r.i r.j r.k = s.fld g r.i r.j r.k := by
  obtain he | ⟨x, he⟩ := s.plainFld_cases (a := a) (r := r) (d := d) (f := f) <;> rw [he]
  exact State.fld_setFld_other (smWf_sorted (canon_iff.1 h).2.1) hreg hf hg hd _ _ _ _

theorem State.fld_plainFld_same (h : s.canon = true) (hf : f.lo + f.width ≤ 64) (ha : a ≠ .mgmt) :
    (s.plainFld a r d f).fld f r.i r.j r.k = s.plainVal r d f := by
  have hset (x : Nat) (hx : x < 2 ^ f.width) : (s.setFld f x r.i r.j r.k).fld f r.i r.j r.k = x := by
    rw [State.fld_setFld_same (smWf_sorted (canon_iff.1 h).2.1) f hf, Nat.mod_eq_of_lt hx]
  unfold State.plainFld State.plainVal
  cases f.acc with
  | rw => exact hset _ (bvBits_lt _ _ _)
  | rws => exact hset _ (bvBits_lt _ _ _)
  | rw1c => exact hset _ (Nat.and_lt_two_pow _ (Nat.xor_lt_two_pow (Nat.sub_lt (by positivity) Nat.one_pos) (bvBits_lt _ _ _)))
  | ro => exact congrArg (fun t : State => t.fld f r.i r.j r.k) (if_neg fun hm : a = .mgmt ∧ _ => ha hm.1)
  | wo => rfl
  | rc => rfl

/-- A field's write depends on the state by the field alone. -/
theorem State.plainVal_congr {t : State} (h : t.fld f r.i r.j r.k = s.fld f r.i r.j r.k) : t.plainVal r d f = s.plainVal r d f := by
  unfold State.plainVal
  split <;> simp only [h]

end

/-! ### Writing the fields of a register in turn -/

section
variable {a : Agent} {r : RegAt} {d : Dword} {fs : List Fld}

theorem State.mem_foldl_plainFld (s : State) : (fs.foldl (State.plainFld a r d) s).mem = s.mem := by
  induction fs generalizing s with
  | nil => rfl
  | cons f fs ih => rw [List.foldl_cons, ih, State.mem_plainFld]

theorem State.fld_foldl_plainFld_ne {s : State} (h : s.canon = true) (hreg : ∀ f ∈ fs, f.reg = r.reg) {g : Fld}
    (hg : g.reg.addr r.i r.j r.k ≠ r.reg.addr r.i r.j r.k) :
    (fs.foldl (State.plainFld a r d) s).fld g r.i r.j r.k = s.fld g r.i r.j r.k := by
  induction fs generalizing s with
  | nil => rfl
  | cons f fs ih =>
    obtain ⟨hf, hfs⟩ := List.forall_mem_cons.1 hreg
    rw [List.foldl_cons, ih (State.canon_plainFld h) hfs, State.fld_plainFld_ne h hf hg]

theorem State.fld_foldl_plainFld_apart {s : State} (h : s.canon = true) (hfit : ∀ f ∈ fs, f.reg = r.reg ∧ f.lo + f.width ≤ 64)
    {g : Fld} (hg : g.reg = r.reg ∧ g.lo + g.width ≤ 64) (hd : ∀ f ∈ fs, g.Apart f) :
    (fs.foldl (State.plainFld a r d) s).fld g r.i r.j r.k = s.fld g r.i r.j r.k := by
  induction fs generalizing s with
  | nil => rfl
  | cons f fs ih =>
    obtain ⟨⟨hf, hfw⟩, hfs⟩ := List.forall_mem_cons.1 hfit
    obtain ⟨hdf, hdfs⟩ := List.forall_mem_cons.1 hd
    rw [List.foldl_cons, ih (State.canon_plainFld h) hfs hdfs, State.fld_plainFld_apart h (hg.1.trans hf.symm) hfw hg.2 hdf.symm]

theorem State.fld_foldl_plainFld {s : State} (h : s.canon = true) (hfit : ∀ f ∈ fs, f.reg = r.reg ∧ f.lo + f.width ≤ 64)
    (hd : fs.Pairwise Fld.Apart) (ha : a ≠ .mgmt) {g : Fld} (hg : g ∈ fs) :
    (fs.foldl (State.plainFld a r d) s).fld g r.i r.j r.k = s.plainVal r d g := by
  induction fs generalizing s with
  | nil => cases hg
  | cons f fs ih =>
    obtain ⟨hf, hfs⟩ := List.forall_mem_cons.1 hfit
    obtain ⟨hdf, hdfs⟩ := List.pairwise_cons.1 hd
    have hcanon := State.canon_plainFld (a := a) (r := r) (d := d) (f := f) h
    rw [List.foldl_cons]
    obtain rfl | hg := List.mem_cons.1 hg
    · rw [State.fld_foldl_plainFld_apart hcanon hfs hf hdf, State.fld_plainFld_same h hf.2 ha]
    · obtain ⟨hgr, hgw⟩ := hfs g hg
      rw [ih hcanon hfs hdfs hg]
      exact State.plainVal_congr (State.fld_plainFld_apart h (hgr.trans hf.1.symm) hf.2 hgw (hdf g hg))

end

/-- Settles O59: the fields of a register of the table share no bit, so each reads as its own write left it. -/
theorem registerReadBack : Obligations.RegisterReadBack := by
  intro src r d f s hcanon hr hf hsrc
  have hfit := regTable_flds_fit _ hr
  rw [State.plainWrite_eq_foldl]
  exact ⟨State.fld_foldl_plainFld hcanon hfit (regTable_flds_apart _ hr) hsrc hf,
    fun g _ hg => State.fld_foldl_plainFld_ne hcanon (fun f hf => (hfit f hf).1) hg, State.mem_foldl_plainFld s⟩

end Sys2Proof.Machine
end

section
/-! What a scalar instruction does at a core that is ready for its word (04 R114, R115, R121 to R130). -/

namespace Sys2Proof.Machine

open Sys2Proof

set_option Elab.async false

/-! ### Instructions of a ready core -/

section
variable {i : Instr} {s t : State} {c : CoreId} {w : Word} {uses : List (BitVec 5)} {ill : Option Nat} {act : State → State}

/-- A legal instruction of a ready core acts. -/
theorem exec_ready (he : exec i s = .next (s.issue c w uses ill act)) (h : Ready s c w) (hill : ill = none) (hact : act s = t) :
    exec i s = .next t := by
  rw [he, hill, issue_ready h, hact]

/-- An illegal one traps with its sub-code (04 R123). -/
theorem exec_ready_illegal {sub : Nat} (he : exec i s = .next (s.issue c w uses ill act)) (h : Ready s c w)
    (hill : ill = some sub) : exec i s = .next (s.trapOn c w causeIllegal sub) := by
  rw [he, hill, issue_illegal h]

/-- No sub-code applies where no condition holds. -/
theorem lowest_cons_eq_none {b : Bool} {n : Nat} {cs : List (Bool × Nat)} :
    lowest ((b, n) :: cs) = none ↔ b = false ∧ lowest cs = none := by
  have hsome {F : Option Nat → Bool × Nat → Option Nat} (hF : ∀ k e, (F (some k) e).isSome) (l : List (Bool × Nat)) (k : Nat) :
      (l.foldl F (some k)).isSome := by
    induction l generalizing k with
    | nil => rfl
    | cons e l ih =>
      obtain ⟨m, hm⟩ := Option.isSome_iff_exists.1 (hF k e)
      rw [List.foldl_cons, hm]
      exact ih m
  cases b with
  | false => simp [lowest]
  | true => simpa [lowest] using Option.isSome_iff_ne_none.1 (hsome (fun _ _ => rfl) _ n)

end

/-! ### Scalar arithmetic -/

theorem shiOp_eq (imm : BitVec 16) (x : Word) : shiOp imm x =
    if bvBits imm 5 2 = 0 then x <<< bvBits imm 0 5 else if bvBits imm 5 2 = 1 then x >>> bvBits imm 0 5
    else x.sshiftRight (bvBits imm 0 5) := by
  unfold shiOp
  split
  next h0 => rw [if_pos h0]
  next h1 => rw [h1, if_neg (by decide), if_pos rfl]
  next h0 h1 => rw [if_neg h0, if_neg h1]

/-- Settles O12: every clause is the instruction's action, its operands being legal. -/
theorem scalarArithmetic : Obligations.ScalarArithmetic := by
  refine ⟨fun c r fn s v h hfx hv => ?alu, fun c a s h => exec_ready rfl h rfl rfl, fun c a s h => exec_ready rfl h rfl rfl,
    fun c a s h => exec_ready rfl h rfl rfl, fun c a s h hkind hres => ?shi, fun c a s h hrs => ?lui,
    fun c r fn s h hfx hfn => ?div, fun c rd q s h => ?divComplete⟩
  case alu => exact exec_ready rfl h (by simp [lowest, hv, hfx]) (by simp [hv])
  case shi =>
    refine exec_ready rfl h (by simp [hkind, hres]) ?_
    simp only [shiOp_eq]
  case lui => exact exec_ready rfl h (by simp [hrs]) rfl
  case div =>
    obtain ⟨-, -, -, hdiv, -⟩ := id h
    exact exec_ready rfl h (by simp [lowest, hfx, Nat.not_lt.2 hfn]) (if_neg (by simp [hdiv]))
  case divComplete =>
    refine congrArg Host.Outcome.next ?_
    rw [h]

/-! ### Accesses to the core store -/

theorem localCheck_eq_none {a n : Nat} (hrange : a ≤ 0xFFFF) (halign : a % n = 0) : localCheck a n = none := by
  rw [localCheck, if_neg (Nat.not_lt.2 hrange), if_neg (not_not.2 halign)]

section
variable {s : State} {c : CoreId} {w : Word} {a n : Nat}

theorem State.loadLocal_hit {d : Nat} (hrange : a ≤ 0xFFFF) (halign : a % n = 0) (hload : localLoad s c a n = some d)
    (hinj : s.injBits c 0 = 0) (put : Nat → CoreSt → CoreSt) :
    s.loadLocal c w a n put = (s.updCore c (put d)).retire c := by
  simp only [State.loadLocal, localCheck_eq_none hrange halign, hload, State.csAccess, hinj, State.useInj_zero]
  rfl

theorem State.storeLocal_push (hrange : a ≤ 0xFFFF) (halign : a % n = 0) (hroom : (s.core c).sb.length < 8) (d : Nat) :
    s.storeLocal c w a n d = (s.pushSb c
      { far := false, line := a / 64, mask := byteMask (a % 64) n, data := placeAt (a % 64) (d % 2 ^ (8 * n)) }).retire c := by
  have hfull : s.sbFull c = false := by simp [State.sbFull, hroom]
  simp [State.storeLocal, localCheck_eq_none hrange halign, hfull]

end

/-! ### Accesses by every member of a cluster -/

section
variable {α : Type} (d : α) {i j : Nat} (h : i < j)
include h

theorem smGet_smDel_gt (m : List (Nat × α)) : smGet d (smDel m i) j = smGet d m j := by
  induction m with
  | nil => rfl
  | cons e m ih => grind [smDel, smGet]

theorem smGet_smPut_gt (m : List (Nat × α)) (x : α) : smGet d (smPut m i x) j = smGet d m j := by
  induction m with
  | nil => grind [smPut, smGet]
  | cons e m ih => grind [smPut, smGet]

/-- Writing a key leaves what stands at the keys above it, in canonical form or not. -/
theorem smGet_smSet_gt [DecidableEq α] (m : List (Nat × α)) (x : α) : smGet d (smSet d m i x) j = smGet d m j := by
  unfold smSet
  split
  · exact smGet_smDel_gt d h m
  · exact smGet_smPut_gt d h m x

end

theorem State.core_setCore_gt (s : State) {c d : Nat} (h : c < d) (x : CoreSt) : (s.setCore c x).core d = s.core d :=
  smGet_smSet_gt _ h _ _

/-- The members of a cluster rise from its leader (04 R120). -/
theorem State.members_rising (s : State) (c : Nat) : (s.members c).Pairwise (· < ·) := by
  unfold State.members
  split <;> simp

/-- Two folds agree where their steps do as long as an invariant holds of what is still to come. -/
theorem foldl_eq_foldl {α β γ : Type} {F : β → α → β} {G : γ → α → γ} {π : γ → β} {Inv : List α → γ → Prop}
    (hstep : ∀ a l x, Inv (a :: l) x → F (π x) a = π (G x a) ∧ Inv l (G x a)) (l : List α) (x : γ) (h : Inv l x) :
    l.foldl F (π x) = π (l.foldl G x) := by
  induction l generalizing x with
  | nil => rfl
  | cons a l ih =>
    obtain ⟨heq, hinv⟩ := hstep a l x h
    rw [List.foldl_cons, List.foldl_cons, heq, ih _ hinv]

/-- The cores of `ms`, the registers and memory stand as in `s`, and `ms` rises. -/
def AsBefore (s : State) (ms : List Nat) (t : State) : Prop :=
  ms.Pairwise (· < ·) ∧ (∀ m ∈ ms, t.core m = s.core m) ∧ t.regs = s.regs ∧ t.mem = s.mem

theorem AsBefore.updCore {s t : State} {m : Nat} {ms : List Nat} (h : AsBefore s (m :: ms) t) (f : CoreSt → CoreSt) :
    AsBefore s ms (t.updCore m f) := by
  obtain ⟨hrise, hcore, hregs, hmem⟩ := h
  obtain ⟨hm, hms⟩ := List.pairwise_cons.1 hrise
  exact ⟨hms, fun d hd => (t.core_setCore_gt (hm d hd) _).trans (hcore d (List.mem_cons_of_mem _ hd)), hregs, hmem⟩

theorem AsBefore.localLoad {s t : State} {m : Nat} {ms : List Nat} (h : AsBefore s (m :: ms) t) (a n : Nat) :
    localLoad t m a n = Machine.localLoad s m a n := by
  obtain ⟨-, hcore, -, hmem⟩ := h
  simp only [Machine.localLoad, hcore m List.mem_cons_self, hmem]

theorem AsBefore.injBits {s t : State} {ms : List Nat} (h : AsBefore s ms t) (m k : Nat) : t.injBits m k = s.injBits m k := by
  obtain ⟨-, -, hregs, -⟩ := h
  exact congrArg (fun rs => State.injBits { State.reset with regs := rs } m k) hregs

/-- What `VLD` does at one member: it takes the line as it was when the instruction began. -/
def State.vldMember (s : State) (vr : BitVec 4) (a : Nat) (t : State) (m : Nat) : State :=
  t.updCore m (fun x => x.setV vr.toNat (BitVec.ofNat 512 ((localLoad s m a 64).getD 0)))

/-- Settles O13: each access is the instruction's action; the members of a `VLD` do not meet one another. -/
theorem localMemory : Obligations.LocalMemory := by
  refine ⟨fun c a s d h hrange halign hload hinj => ?lw, fun c a s h hrange halign hroom => ?sw,
    fun c r half s d h hfx hrs2 hrange halign hload hinj => ?lsub, fun c r half s d h hfx hrs2 hrange halign hload hinj => ?lsubs,
    fun c r half s h hfx hrd hrange halign hroom => ?lsubst, fun c vr a s h hres hrange halign hload => ?vld,
    fun c vr a s h hres hrange halign hroom => ?vst, fun c e es s h hfar => ?drain⟩
  case lw => exact exec_ready rfl h rfl (State.loadLocal_hit hrange halign hload hinj _)
  case sw =>
    refine exec_ready rfl h rfl ((State.storeLocal_push hrange halign hroom _).trans ?_)
    rw [Nat.mod_eq_of_lt ((s.core c).s a.rs2).isLt]
  case lsub =>
    cases half <;> exact exec_ready rfl h (by simp only [hfx, hrs2]; rfl) (State.loadLocal_hit hrange halign hload hinj _)
  case lsubs =>
    cases half <;> exact exec_ready rfl h (by simp only [hfx, hrs2]; rfl) (State.loadLocal_hit hrange halign hload hinj _)
  case lsubst =>
    cases half <;> exact exec_ready rfl h (by simp only [hfx, hrd]; rfl) (State.storeLocal_push hrange halign hroom _)
  case vld =>
    refine exec_ready rfl h (by simp [hres]) ?_
    have hany : (s.members c).any (fun m => (localLoad s m (localAddr (s.core c) a.rs1 a.imm) 64).isNone) = false := by
      simpa using fun m hm => (hload m hm).1
    simp only [localCheck_eq_none hrange halign, hany]
    rw [if_neg Bool.false_ne_true, foldl_eq_foldl (π := Prod.mk none) 
      (G := s.vldMember vr (localAddr (s.core c) a.rs1 a.imm)) (Inv := fun ms t => AsBefore s ms t ∧ ∀ m ∈ ms, s.injBits m 0 = 0)]
    · rfl
    · rintro m ms t ⟨hs, hinj⟩
      obtain ⟨hm, hms⟩ := List.forall_mem_cons.1 hinj
      refine ⟨?_, hs.updCore _, hms⟩
      simp [State.csAccess, hs.injBits, hm, State.useInj_zero, hs.localLoad, State.vldMember]
    · exact ⟨⟨s.members_rising c, fun _ _ => rfl, rfl, rfl⟩, fun m hm => (hload m hm).2⟩
  case vst =>
    refine exec_ready rfl h (by simp [hres]) ?_
    have hany : (s.members c).any (fun m => s.sbFull m) = false := by simpa [State.sbFull] using hroom
    simp only [localCheck_eq_none hrange halign, hany]
    rfl
  case drain =>
    refine congrArg Host.Outcome.next ?_
    simp only [drainSb, h, hfar]
    rfl

end Sys2Proof.Machine
end

section
/-! Transfers of control and system operations at a ready core (04 R112, R114, R121 to R126). -/

namespace Sys2Proof.Machine

open Sys2Proof

set_option Elab.async false

/-- Settles O14: each transfer of control is its instruction's action (`exec_ready`), and a word that is none traps. -/
theorem controlFlow : Obligations.ControlFlow := by
  refine ⟨fun c op r1 r2 off s h => exec_ready rfl h rfl rfl, fun c off s h => exec_ready rfl h rfl rfl,
    fun c a s h halign hrange => ?jalr, fun c r s h hres hsb => ?syncI, fun c r s h hres hin => ?tret,
    fun c r s h hrd hrs1 hrs2 => ?trap, fun c w sub s h hw => ?undefined⟩
  case jalr => exact exec_ready rfl h rfl ((if_neg (not_not.2 halign)).trans (if_neg (Nat.not_lt.2 hrange)))
  case syncI => exact exec_ready rfl h (by simp [hres]) (if_neg (not_not.2 hsb))
  case tret => exact exec_ready rfl h (by simp [lowest, hres, hin]) rfl
  case trap => exact exec_ready rfl h (by simp [hrd, hrs1, hrs2]) rfl
  case undefined =>
    refine (congrArg Host.Outcome.next ?_).trans (congrArg Host.Outcome.next (issue_illegal h [] sub id))
    rw [hw]

/-- Settles O15: the operations pass the guards of their control register or of the fence, or yield. -/
theorem systemOperations : Obligations.SystemOperations := by
  refine ⟨fun c a s old h hres hop hrs hold => ?read, fun c a s old h hres hop hold hro hok => ?write, fun c r s h hres => ?fence,
    fun c r s h hres => ?yield, fun c r s h hres hab => ?wfe, fun c r lag s h hrs1 hrs2 hfx hodd => ?rdtsc⟩
  case read => exact exec_ready rfl h (by simp [lowest, hres, hop, hrs, hold]) (by simp [hop, hold])
  case write => exact exec_ready rfl h (by simp [lowest, hres, hop, hold, hro, hok]) (by simp [hop, hold])
  case fence => exact exec_ready rfl h (by simp [hres]) rfl
  case yield => exact exec_ready rfl h (by simp [hres]) rfl
  case wfe => exact exec_ready rfl h (by simp [hres]) (if_neg (by simp [hab]))
  case rdtsc => exact exec_ready rfl h (by simp [lowest, hrs1, hrs2, hfx, hodd]) rfl

end Sys2Proof.Machine
end

section
/-! Vector instructions of a ready core act on every member of its cluster (04 R115 to R120, 05 R155, R166 to R168). -/

namespace Sys2Proof.Machine

open Sys2Proof

set_option Elab.async false

/-- Settles O16: each format that its operands allow is one action on every member of the cluster. -/
theorem laneWise : Obligations.LaneWise := by
  refine ⟨fun c v s h hfn hw hfmt => ?valu, fun c v s h hfn hw hfmt hfmt' => ?vfp, fun c v s h hfn hres hrs hlane => ?copy,
    fun c v s h hfn hres hvs hlane => ?spread, fun c v s h hfn hres hvs => ?insert, fun c v s h hfn hres hvd => ?extract,
    fun c v s h hfn hres hvd hvs hlane => ?setPred, fun c v s h hfn hres hvs hvd hlane => ?getPred,
    fun c v s h hfn hfmt hwide => ?vperm, fun c v s h hfn hvd hint hflt => ?vcmp,
    fun c v s h hsrc hdst hres hpm hvs hvd => ?cvt⟩
  case valu =>
    exact exec_ready rfl h
      (by simp [lowest_cons_eq_none, -BitVec.getLsbD_eq_getElem, Nat.not_lt.2 hfn, Nat.not_lt.2 hfmt, hw]) rfl
  case vfp =>
    exact exec_ready rfl h
      (by simp [lowest_cons_eq_none, -BitVec.getLsbD_eq_getElem, Nat.not_lt.2 hfn, Nat.not_lt.2 hfmt, Nat.not_lt.2 hfmt', hw]) rfl
  case copy =>
    exact exec_ready rfl h (by simp [lowest_cons_eq_none, -BitVec.getLsbD_eq_getElem, hfn, hres, hrs, hlane]) (by simp [hfn])
  case spread =>
    exact exec_ready rfl h (by simp [lowest_cons_eq_none, -BitVec.getLsbD_eq_getElem, hfn, hres, hvs, hlane]) (by simp [hfn])
  case insert =>
    exact exec_ready rfl h (by simp [lowest_cons_eq_none, -BitVec.getLsbD_eq_getElem, hfn, hres, hvs]) (by simp [hfn])
  case extract =>
    exact exec_ready rfl h (by simp [lowest_cons_eq_none, -BitVec.getLsbD_eq_getElem, hfn, hres, hvd]) (by simp [hfn])
  case setPred =>
    exact exec_ready rfl h
      (by simp [lowest_cons_eq_none, -BitVec.getLsbD_eq_getElem, hfn, hres, hvs, hvd, hlane]) (by simp [hfn])
  case getPred =>
    exact exec_ready rfl h
      (by simp [lowest_cons_eq_none, -BitVec.getLsbD_eq_getElem, hfn, hres, hvs, hvd, hlane]) (by simp [hfn])
  case vperm =>
    exact exec_ready rfl h
      (by simp [lowest_cons_eq_none, -BitVec.getLsbD_eq_getElem, Nat.not_lt.2 hfn, hfmt]; exact hwide) rfl
  case vcmp =>
    have hint (hlt : v.fn.toNat < 6) : v.fmt.toNat = 0 := by rw [hint hlt]; rfl
    refine exec_ready rfl h ?_ rfl
    simp only [lowest_cons_eq_none]
    grind [lowest_nil]
  case cvt =>
    exact exec_ready rfl h
      (by simp [lowest_cons_eq_none, -BitVec.getLsbD_eq_getElem, hsrc, hdst, hres, hpm]; exact ⟨hvs, hvd⟩) rfl

/-- Settles O17: the operands are legal, so that each instruction is its action on the accumulators of every member. -/
theorem accumulators : Obligations.Accumulators := by
  refine ⟨fun c d s h hill => exec_ready rfl h hill rfl, fun c d s h hill hkind => ?dotP,
    fun c f s h hfn hfmt hfmt' hafmt hvs hss h9 h11 => ?dotmx, fun c d s h hres => ?accClr,
    fun c d s h hill => exec_ready rfl h hill rfl, fun c d s h hill => exec_ready rfl h hill rfl,
    fun c d s h hill => exec_ready rfl h hill rfl⟩
  case dotP => exact exec_ready rfl h (by simpa [dotIll, lowest_cons_eq_none, hkind] using hill) rfl
  case dotmx =>
    have h9 (he : f.fmt.toNat = 9) := h9 (BitVec.eq_of_toNat_eq he)
    have h11 (he : f.fmt.toNat = 11) := h11 (BitVec.eq_of_toNat_eq he)
    refine exec_ready rfl h ?_ rfl
    simp only [lowest_cons_eq_none]
    grind [lowest_nil]
  case accClr => exact exec_ready rfl h (by simp [hres]) rfl

end Sys2Proof.Machine
end

section
/-! Far accesses, atomics and the curd cache instructions of a ready core (04 R105, R114, R129 to R138). -/

namespace Sys2Proof.Machine

open Sys2Proof

set_option Elab.async false

/-! ### Far loads -/

theorem farCheck_eq_none {fa n : Nat} (hfa : fa < 2 ^ 48) (halign : fa % n = 0) : farCheck fa n = none := by
  rw [farCheck, if_neg (Nat.not_le.2 hfa), if_neg (not_not.2 halign)]

/-- The far loads of the members `ms` take effect in turn, and which of them wait for their data. -/
def State.farTakes (s : State) (c : Nat) (w : Word) (ms : List (Nat × Nat)) (fa n : Nat) (parity : Bool)
    (put : Nat → CoreSt → CoreSt) : State × List Nat :=
  ms.foldl (fun (acc : State × List Nat) e =>
    let q := acc.1.farTake c w e.1 e.2 ((fa + 64 * e.1) % 2 ^ 48) n parity put
    (q.1, if q.2 then acc.2 ++ [e.1] else acc.2)) (s, [])

/-- A far load goes on at this answer: the data is there, or a request can be sent. -/
def FarPeek.Goes : FarPeek → Prop
  | .fwd _ | .hit .. | .go .. => True
  | _ => False

/-- What a far load that has taken effect leaves: it completes, or blocks until the data of the members that wait is there. -/
def State.farBlock (r : State × List Nat) (c : Nat) (w : Word) (fa : Nat) (kind : BlkKind) : State :=
  if r.2 = [] then r.1.retire c
  else r.1.updCore c (fun x =>
    { x with blk := some { kind := kind, fa := fa, word := w, waits := r.2, regWin := regWindow ≤ fa, rtime := r.1.tsc32 } })

section
variable {s t : State} {c : Nat} {w : Word} {fa n : Nat} {parity : Bool} {kind : BlkKind} {put : Nat → CoreSt → CoreSt}

theorem State.farLoad_goes {ms : List (Nat × Nat)} (hcheck : farCheck fa n = none)
    (hgoes : ∀ e ∈ ms, (s.farPeek c w e.1 e.2 ((fa + 64 * e.1) % 2 ^ 48) n parity).Goes) :
    s.farLoad c w ms fa n parity kind put = State.farBlock (s.farTakes c w ms fa n parity put) c w fa kind := by
  unfold State.farLoad
  rw [hcheck]
  dsimp only
  split
  next heq =>
    obtain ⟨e, he, hstop⟩ := List.exists_of_findSome?_eq_some heq
    have hg := hgoes e he
    split at hstop
    · next hpeek => exact (hpeek ▸ hg).elim
    · next hpeek => exact (hpeek ▸ hg).elim
    · next hpeek => exact (hpeek ▸ hg).elim
    · next hpeek => exact (hpeek ▸ hg).elim
    · cases hstop
  next => rfl

/-- The far load of one core that goes on. -/
theorem State.farLoad_one {r : State × Bool} (hfa : fa < 2 ^ 48) (halign : fa % n = 0)
    (hgoes : (s.farPeek c w 0 c fa n parity).Goes) (htake : s.farTake c w 0 c fa n parity put = r) :
    s.farLoad c w [(0, c)] fa n parity kind put = State.farBlock (r.1, if r.2 then [0] else []) c w fa kind := by
  have hva : (fa + 64 * 0) % 2 ^ 48 = fa := Nat.mod_eq_of_lt hfa
  rw [State.farLoad_goes (farCheck_eq_none hfa halign) (by simpa only [List.mem_singleton, forall_eq, hva] using hgoes)]
  simp only [State.farTakes, List.foldl_cons, List.foldl_nil, hva, htake, List.nil_append]

end

/-! ### Far stores and atomics -/

/-- An act that is signed goes on where its stream has room. -/
theorem State.signed_of_room {s : State} {v st : Nat} (h : s.signBlocked v st = false) (act : State → State) :
    s.signed v st act = act s := by
  rw [State.signed, if_neg (by simp [h])]

section
variable {s t : State} {c : Nat} {w : Word} {fa n : Nat} {ga : Dword}

/-- The far store of one core, at the global address that its vat gives. -/
theorem State.farStore_one {data : CoreSt → Nat} {e : SbEntry} (hfa : fa < 2 ^ 48) (halign : fa % n = 0)
    (hroom : s.sbFull c = false) (hsign : s.signBlocked (vatOf c) (idxOf c) = false) (haddr : s.farAddr c w fa true 0 = .ga ga t)
    (he : e = farEntry fa n (data (s.core c)) (if n = 64 then ga else ga &&& ~~~63) false) :
    s.farStore c w [(0, c)] fa n data =
      ((if t.ownCore c ga then t else t.sign (vatOf c) (idxOf c) (evLine ga e.mask e.data)).pushSb c e).retire c := by
  have hva : (fa + 64 * 0) % 2 ^ 48 = fa := Nat.mod_eq_of_lt hfa
  subst he
  simp only [State.farStore, farCheck_eq_none hfa halign, List.any_cons, List.any_nil, hroom, List.findSome?_cons,
    List.findSome?_nil, hva, haddr, State.signed_of_room hsign, List.foldl_cons, List.foldl_nil]
  rfl

/-- An atomic of one core, at the global address that its vat gives. -/
theorem State.atomic_ready {c : CoreId} {r : RArg} {fn : BitVec 6} {expected : CoreSt → Word} (h : Ready s c (encR 0x34 r fn))
    (hfx : r.fx = 0) (hodd : oddReg r.rs1 = false) (hsum : fa = ((s.core c).pair r.rs1).toNat) (hfa : fa < 2 ^ 48)
    (halign : fa % 4 = 0) (hsb : (s.core c).sb = []) (haddr : s.farAddr c (encR 0x34 r fn) fa true 0 = .ga ga t)
    (hsign : t.signBlocked (vatOf c) (idxOf c) = false) :
    s.atomic c r fn expected =
      (((t.sign (vatOf c) (idxOf c) (evAtomic ga fn.toNat ((s.core c).s r.rs2) (expected (s.core c)))).updCore c
        (fun x => x.invalidate (fun e => e.line = fa / 64) false)).updCore c (fun x =>
        { x with blk := some { kind := .atom r.rd, fa := fa, word := encR 0x34 r fn, waits := [0], regWin := false } })).send
      (.req (.core c) 0 ga (.atomic fn.toNat ((s.core c).s r.rs2) (expected (s.core c)))) := by
  subst hsum
  have hill : lowest [(decide (r.fx ≠ 0), 2), (oddReg r.rs1, 3)] = none := by simp [lowest_cons_eq_none, hfx, hodd]
  unfold State.atomic
  dsimp only
  rw [hill, issue_ready h]
  simp only [farCheck_eq_none hfa halign, hsb, haddr, State.signed_of_room hsign, Bool.not_false, Bool.and_true]
  rfl

end

/-- Settles O18: the loads by `farLoad_goes`, the stores by `farStore_one`, the atomics by `exec_atomic`. -/
theorem farAccesses : Obligations.FarAccesses := by
  refine ⟨fun c a parity s t d h hodd hfa halign hpeek => ?hit, fun c a parity s d h hodd hfa halign hpeek => ?fwd,
    fun c a parity s t u fa ga h hodd hsum hfa halign hpeek hu => ?go, fun c vr a parity s fa h hres hodd hsum hfa halign hgoes => ?vldf,
    fun c a s t fa ga h hodd hsum hfa halign hroom hsign haddr => ?fst,
    fun c vr a s t fa ga h hres hodd hms hsum hfa halign hroom hsign haddr => ?vstf,
    fun c r fn s t fa ga h hfx hodd hsum hfa halign hsb haddr hsign => ?atom,
    fun c r s t fa ga h hfx hodd hsum hfa halign hsb haddr hsign => ?acas⟩
  case hit =>
    refine exec_ready rfl h (by simp [hodd]) ((State.farLoad_one hfa halign (by rw [hpeek]; trivial) rfl).trans ?_)
    rw [State.farTake, hpeek]
    rfl
  case fwd =>
    refine exec_ready rfl h (by simp [hodd]) ((State.farLoad_one hfa halign (by rw [hpeek]; trivial) rfl).trans ?_)
    rw [State.farTake, hpeek]
    rfl
  case go =>
    subst hsum hu
    refine exec_ready rfl h (by simp [hodd]) ((State.farLoad_one hfa halign (by rw [hpeek]; trivial) rfl).trans ?_)
    rw [State.farTake, hpeek]
    rfl
  case vldf =>
    subst hsum
    refine exec_ready rfl h (by simp [lowest_cons_eq_none, hres, hodd]) ?_
    refine State.farLoad_goes (farCheck_eq_none hfa halign) fun e he => ?_
    obtain ⟨d, t, hpeek⟩ | ⟨ga, t, hpeek⟩ := hgoes e he <;> rw [hpeek] <;> trivial
  case fst =>
    subst hsum
    exact exec_ready rfl h (by simp [hodd]) (State.farStore_one hfa halign hroom hsign haddr rfl)
  case vstf =>
    subst hsum
    refine exec_ready rfl h (by simp [lowest_cons_eq_none, hres, hodd]) ?_
    rw [hms]
    exact State.farStore_one hfa halign hroom hsign haddr rfl

  case atom => exact congrArg Host.Outcome.next (State.atomic_ready h hfx hodd hsum hfa halign hsb haddr hsign)
  case acas => exact congrArg Host.Outcome.next (State.atomic_ready h hfx hodd hsum hfa halign hsb haddr hsign)

/-! ### The curd cache -/

theorem regWindow_lt : regWindow < 2 ^ 48 := by decide

theorem State.cacheOp_ready {s : State} {c : CoreId} {w : Word} {a : VMArg} {fa : Nat} (h : Ready s c w)
    (hres : vmRes a true = false) (hodd : oddReg a.rs1 = false) (hsum : fa = farSum (s.core c) a.rs1 a.imm) (hfa : fa < 2 ^ 48)
    (act : Nat → State → State) : s.cacheOp c w a act = act fa s := by
  subst hsum
  have hill : lowest [(vmRes a true, 2), (oddReg a.rs1, 3)] = none := by simp [lowest_cons_eq_none, hres, hodd]
  rw [State.cacheOp, hill, issue_ready h]
  exact if_neg (Nat.not_le.2 hfa)

/-- Settles O19: the operations on a line by `cacheOp_ready`. -/
theorem curdCache : Obligations.CurdCache := by
  refine ⟨fun c a s t fa ga h hres hodd hsum hfa hwants hx => ?pref,
    fun c a s t u fa ga h hres hodd hsum hfa hroom haddr hsign hinst => ?zero, fun c a s fa h hres hodd hsum hfa => ?invl,
    fun c a s h hst hrs himm hpref => ?invall, fun c line time d s hfind => ?fill, fun c s h => ?init⟩
  case pref =>
    refine congrArg Host.Outcome.next ((State.cacheOp_ready h hres hodd hsum (hfa.trans regWindow_lt) _).trans ?_)
    rw [if_neg (by simp [hfa, hwants]), hx]
  case zero =>
    refine congrArg Host.Outcome.next ((State.cacheOp_ready h hres hodd hsum hfa _).trans ?_)
    simp only [hroom, haddr, State.signed_of_room hsign, hinst]
    rfl
  case invl =>
    refine congrArg Host.Outcome.next ((State.cacheOp_ready h hres hodd hsum (hfa.trans regWindow_lt) _).trans ?_)
    exact if_neg (Nat.not_le.2 hfa)
  case invall => exact exec_ready rfl h (by simp [hst, hrs, himm]) (if_neg (not_not.2 hpref))
  case fill =>
    refine congrArg Host.Outcome.next ?_
    have hcore : (s.recvMsg (.reply (.core c) (prefTag line) (FarRes_reply (.line d)))).core c = s.core c := rfl
    simp only [hcore, hfind]
    rfl
  case init => exact congrArg Host.Outcome.next (if_pos h)

end Sys2Proof.Machine
end

section
/-! What answers the requests of a core, and what the external port of its core store does (04 R108, R111, R126, R127, R131
to R135). -/

namespace Sys2Proof.Machine

open Sys2Proof

set_option Elab.async false

/-! ### A core that is written with something in it -/

section
variable {α : Type} [DecidableEq α] {d x : α} (h : x ≠ d) (m : List (Nat × α)) (i : Nat)
include h

/-- A key that is written with another value than the default reads as written, in canonical form or not. -/
theorem smGet_smSet_same : smGet d (smSet d m i x) i = x := by
  rw [smSet, if_neg h]
  induction m with
  | nil => grind [smPut, smGet]
  | cons e m ih => grind [smPut, smGet]

/-- A second write of the key replaces it. -/
theorem smSet_smSet_same (y : α) : smSet d (smSet d m i x) i y = smSet d m i y := by
  have hput : smPut (smPut m i x) i y = smPut m i y := by
    induction m with
    | nil => grind [smPut]
    | cons e m ih => grind [smPut]
  have hdel : smDel (smPut m i x) i = smDel m i := by
    induction m with
    | nil => grind [smPut, smDel]
    | cons e m ih => grind [smPut, smDel]
  simp only [smSet, if_neg h, hput, hdel]

end

section
variable (s : State) (c : Nat)

theorem State.core_setCore_self {x : CoreSt} (h : x ≠ {}) : (s.setCore c x).core c = x := smGet_smSet_same h _ _

theorem State.core_updCore_self {f : CoreSt → CoreSt} (h : f (s.core c) ≠ {}) : (s.updCore c f).core c = f (s.core c) :=
  s.core_setCore_self c h

theorem State.setCore_setCore {x : CoreSt} (h : x ≠ {}) (y : CoreSt) : (s.setCore c x).setCore c y = s.setCore c y := by
  simp only [State.setCore, smSet_smSet_same h]

end

/-- The core as it is once the store `o` has been acknowledged. -/
def CoreSt.acked (x : CoreSt) (o : OutStore) : CoreSt := { x with outst := x.outst.erase o }

theorem CoreSt.findLine_acked (x : CoreSt) (o : OutStore) (line : Nat) : (x.acked o).findLine line = x.findLine line := rfl

theorem CoreSt.ent_acked (x : CoreSt) (o : OutStore) (i : Nat) : (x.acked o).ent i = x.ent i := rfl

theorem CoreSt.sb_acked (x : CoreSt) (o : OutStore) : (x.acked o).sb = x.sb := rfl

theorem CoreSt.outst_acked (x : CoreSt) (o : OutStore) : (x.acked o).outst = x.outst.erase o := rfl

/-- A core that holds a line is not a blank one. -/
theorem CoreSt.acked_ne {x : CoreSt} {o : OutStore} {line i : Nat} (h : x.findLine line = some i) : x.acked o ≠ {} := by
  intro he
  have hcache : x.cache = [] := congrArg CoreSt.cache he
  simp [CoreSt.findLine, hcache] at h

/-- Settles O20: a reply meets the blocked instruction or the store it answers; the last zero-fill of a line ends its waiting. -/
theorem coreReplies : Obligations.CoreReplies := by
  refine ⟨fun c s t b rd d hblk hkind hwait hwin hfill hinst => ?fld, fun c m s t b vr st d hblk hkind hwait hwin hfill hinst => ?vldf,
    fun c s b rd w hblk hkind hwait => ?word, fun c m s b hblk hwait => ?err, fun c tag o s hfind => ?storeAck,
    fun c tag i o s hfind hmore hsb hline hdrop => ?zeroAck, fun c m b s hblk hwait => ?timeout, fun c line s => rfl,
    fun c src tag off n s hpart hoff hinj => ?extRead, fun c src tag off m d s hpart hoff hinj => ?extWrite⟩
  case fld =>
    refine congrArg Host.Outcome.next ?_
    simp [hblk, hwait, hkind, hwin, hfill, FarRes_reply]
    simp at hinst
    simp [hinst]
  case vldf =>
    refine congrArg Host.Outcome.next ?_
    simp [hblk, hwait, hkind, hwin, hfill, FarRes_reply]
    simp at hinst
    simp [hinst]
  case word =>
    refine congrArg Host.Outcome.next ?_
    obtain hkind | hkind := hkind <;> simp [hblk, hwait, hkind, FarRes_reply]
  case err =>
    refine congrArg Host.Outcome.next ?_
    simp [hblk, hwait, FarRes_reply]
    rfl
  case storeAck =>
    refine congrArg Host.Outcome.next ?_
    simp [farStoreAck, hfind]
  case zeroAck =>
    refine congrArg Host.Outcome.next ?_
    have hcore : ((s.recvMsg (.reply (.core c) (16 + tag) .done)).updCore c (fun x => { x with outst := x.outst.erase o })).core c
        = (s.core c).acked o := State.core_updCore_self _ _ (CoreSt.acked_ne hline)
    unfold zeroFillAck
    rw [hfind]
    simp only [reduceCtorEq, decide_false, if_false, hcore, CoreSt.findLine_acked, CoreSt.ent_acked, CoreSt.sb_acked,
      CoreSt.outst_acked, hline, hdrop, hmore, hsb, Bool.false_eq_true, false_or, false_and, Bool.or_self]
    exact State.setCore_setCore _ _ (CoreSt.acked_ne hline) _
  case timeout =>
    refine congrArg Host.Outcome.next ?_
    simp [hblk, hwait]
    rfl
  case extRead =>
    have hpart : ¬((s.partOf (vatOf c)).isNone = true ∨ 0x10000 ≤ off) := by simp [hpart, hoff]
    have hinj : (s.recvMsg (.req src tag (BitVec.ofNat 64 (csBase c + off)) (.read n))).injBits c 0 = 0 := hinj
    refine congrArg Host.Outcome.next ((if_neg hpart).trans ?_)
    simp only [hinj, State.useInj_zero]
    rfl
  case extWrite =>
    have hpart : ¬((s.partOf (vatOf c)).isNone = true ∨ 0x10000 ≤ off) := by simp [hpart, hoff]
    have hinj : (s.recvMsg (.req src tag (BitVec.ofNat 64 (csBase c + off)) (.write m d))).injBits c 0 = 0 := hinj
    refine congrArg Host.Outcome.next ((if_neg hpart).trans ?_)
    simp only [hinj, State.useInj_zero]
    rfl

end Sys2Proof.Machine
end

section
/-! Messages and doorbells of a core, `HALT`, task slots and the dispatcher (06 R190 to R197, 07 R231, R241 to R243). -/

namespace Sys2Proof.Machine

open Sys2Proof

set_option Elab.async false

/-! ### Messages -/

theorem State.sendMsg_ready {s : State} {c : CoreId} {r : RArg} {urgent : Bool} {dst : Nat}
    (h : Ready s c (encR 0x30 r (if urgent then 1 else 0))) (hrd : r.rd = 0) (hfx : r.fx = 0)
    (hdst : dst = bvBits ((s.core c).s r.rs1) 0 12) (hcheck : s.srcCheck (vatOf c) dst = none)
    (hsign : s.signBlocked (vatOf c) (idxOf c) = false) :
    s.sendMsg c r urgent =
      ((s.sign (vatOf c) (idxOf c) (evMsg dst ((s.partOf (vatOf c)).getD 0) (((s.core c).s r.rs2).setWidth 64))).send
        (.cnet dst urgent (BitVec.ofNat 32 c) ((s.core c).s r.rs2))).retire c := by
  subst hdst
  have hill : resMsg r = none := by simp [resMsg, hrd, hfx]
  unfold State.sendMsg
  dsimp only
  rw [hill, issue_ready h, hcheck]
  exact State.signed_of_room hsign _

theorem State.yieldPoint_of_going {s : State} {c : Nat} (h : s.aborting c = false) (act : State → State) :
    s.yieldPoint c act = act s := by
  rw [State.yieldPoint, if_neg (by simp [h])]

/-- Settles O21: a message goes where the source check lets it, and is taken from its queue in order. -/
theorem messages : Obligations.Messages := by
  refine ⟨fun c r s h hrd hfx hcheck hsign => ?send, fun c r s h hrd hfx hcheck hsign => ?sendu,
    fun c r s h hrd hfx hpart hsign => ?dbell, fun c r s m x h hrs2 hfx hab htake => ?recv,
    fun c r s h hrs2 hfx hab htake => ?recvWait, fun c r s h hrs2 hfx => ?recvnb,
    fun c sender payload s hroom hwait => ?deliver, fun c sender payload s hroom hwait => ?deliverUrgent,
    fun c r s k h hres hab hfenced htask hgate => ?halt, fun c d s h hres hpart hsign => ?part⟩
  case send => exact congrArg Host.Outcome.next (State.sendMsg_ready (urgent := false) h hrd hfx rfl hcheck hsign)
  case sendu => exact congrArg Host.Outcome.next (State.sendMsg_ready (urgent := true) h hrd hfx rfl hcheck hsign)
  case dbell =>
    refine exec_ready rfl h (by simp [resMsg, hrd, hfx]) ?_
    rw [if_neg (by simp [hpart])]
    exact State.signed_of_room hsign _
  case recv =>
    refine exec_ready rfl h (by simp [resRecv, hrs2, hfx]) ?_
    rw [State.yieldPoint_of_going hab, htake]
  case recvWait =>
    refine exec_ready rfl h (by simp [resRecv, hrs2, hfx]) ?_
    rw [State.yieldPoint_of_going hab, htake]
  case recvnb => exact exec_ready rfl h (by simp [resRecv, hrs2, hfx]) rfl
  case deliver =>
    have hcore := State.core_updCore_self (s.recvMsg (.cnet c false sender payload)) c
      (f := fun x => { x with rx0 := x.rx0 ++ [(sender, payload)] })
      fun he => List.append_ne_nil_of_right_ne_nil _ (List.cons_ne_nil _ _) (congrArg CoreSt.rx0 he)
    refine congrArg Host.Outcome.next ((if_neg (by simp [hroom])).trans ?_)
    simp only [Bool.false_eq_true, if_false, hcore]
    have hwait : ((s.recvMsg (.cnet c false sender payload)).core c).wait = none := hwait
    rw [hwait]
  case deliverUrgent =>
    have hcore := State.core_updCore_self (s.recvMsg (.cnet c true sender payload)) c
      (f := fun x => { x with rx1 := x.rx1 ++ [(sender, payload)] })
      fun he => List.append_ne_nil_of_right_ne_nil _ (List.cons_ne_nil _ _) (congrArg CoreSt.rx1 he)
    refine congrArg Host.Outcome.next ((if_neg (by simp [hroom])).trans ?_)
    simp only [if_true, hcore]
    have hwait : ((s.recvMsg (.cnet c true sender payload)).core c).wait = none := hwait
    rw [hwait]
  case halt =>
    refine exec_ready rfl h (by simp [hres]) ?_
    rw [State.yieldPoint_of_going hab, hfenced, htask]
    simp [hgate]
  case part =>
    refine exec_ready rfl h (by simp [hres]) ?_
    rw [if_neg (by simp [hpart])]
    exact State.signed_of_room hsign _

end Sys2Proof.Machine
end

section
/-! Task slots and the dispatcher (06 R190 to R197). -/

namespace Sys2Proof.Machine

open Sys2Proof

set_option Elab.async false

/-! ### A target that a task starts on -/

section
variable {s : State}

theorem State.cores_useInj (v b : Nat) (f : Fld) : (s.useInj v b f).cores = s.cores := by
  unfold State.useInj
  split
  · rfl
  · dsimp only
    split <;> rfl

/-- A refill of a core fetches five words, which may use up an armed injection, and changes the core's fetch buffer only. -/
theorem State.refill_eq (c : Nat) : ∃ (ws : List (Word × Bool)) (t : State),
    s.refill c = t.updCore c (fun x => { x with fbuf := ws }) ∧ t.cores = s.cores := by
  refine ⟨_, _, rfl, ?_⟩
  exact (cores_useInj _ _ _).trans <| (cores_useInj _ _ _).trans <| (cores_useInj _ _ _).trans <| (cores_useInj _ _ _).trans <|
    cores_useInj _ _ _

theorem State.core_refill (h : s.canon = true) (c : Nat) : ∃ ws, (s.refill c).core c = { s.core c with fbuf := ws } := by
  obtain ⟨ws, t, heq, hcores⟩ := s.refill_eq c
  have hsorted : smSorted t.cores = true := hcores ▸ smWf_sorted (canon_iff.1 h).2.2
  refine ⟨ws, ?_⟩
  rw [heq, State.core_updCore _ hsorted, if_pos rfl, State.core, hcores]
  rfl

/-- A change of every member of a list of cores. -/
theorem State.core_foldl_updCore {ms : List Nat} (h : s.canon = true) (hms : ms.Nodup) (f : CoreSt → CoreSt) (d : Nat) :
    (ms.foldl (fun s m => s.updCore m f) s).core d = if d ∈ ms then f (s.core d) else s.core d := by
  induction ms generalizing s with
  | nil => rfl
  | cons m ms ih =>
    obtain ⟨hm, hms⟩ := List.nodup_cons.1 hms
    rw [List.foldl_cons, ih (s := s.updCore m f) (s.canon_setCore h m _) hms, s.core_updCore (smWf_sorted (canon_iff.1 h).2.2)]
    grind

theorem State.self_mem_members (c : Nat) : c ∈ s.members c := by
  unfold State.members
  split <;> simp

end

/-- The members of a cluster start from cleared registers, and its leader as `f` sets it up. -/
theorem State.core_start {s : State} (h : s.canon = true) (c : Nat) (f : CoreSt → CoreSt) :
    (∃ ws, ((((s.members c).foldl (fun s m => s.updCore m CoreSt.cleared) s).updCore c f).refill c).core c =
      { f (s.core c).cleared with fbuf := ws })
    ∧ ((((s.members c).foldl (fun s m => s.updCore m CoreSt.cleared) s).updCore c f).refill c).mem = s.mem := by
  have hfold : Keeps s ((s.members c).foldl (fun s m => s.updCore m CoreSt.cleared) s) :=
    Keeps.foldl id (fun b m => (Keeps.refl b).updCore m _) _ s
  have hmem : ((s.members c).foldl (fun s m => s.updCore m CoreSt.cleared) s).mem = s.mem :=
    List.foldlRecOn (motive := fun (t : State) => t.mem = s.mem) (s.members c) _ rfl fun _ hb _ _ => hb
  have hcore := State.core_foldl_updCore h ((s.members_rising c).imp Nat.ne_of_lt) CoreSt.cleared c
  rw [if_pos (State.self_mem_members c)] at hcore
  generalize (s.members c).foldl (fun s m => s.updCore m CoreSt.cleared) s = t at hfold hmem hcore
  have ht := t.canon_setCore (hfold h) c (f (t.core c))
  obtain ⟨ws, hws⟩ := State.core_refill ht c
  obtain ⟨-, hmem', -⟩ := ((Quiet.refl _).refill c) ht
  refine ⟨⟨ws, hws.trans ?_⟩, hmem'.trans hmem⟩
  rw [State.core_setCore _ (smWf_sorted (canon_iff.1 (hfold h)).2.2), if_pos rfl, hcore]

/-- A scalar register reads as written. -/
theorem CoreSt.s_setS {x : CoreSt} (h : smWf 0 x.sreg = true) (r q : BitVec 5) (w : Word) :
    (x.setS r w).s q = if q = r ∧ r ≠ 0 then w else x.s q := by
  by_cases hr : r = 0
  · rw [CoreSt.setS, if_pos hr, if_neg (by simp [hr])]
  by_cases hq : q = 0
  · rw [CoreSt.s, if_pos hq, CoreSt.s, if_pos hq, if_neg (by grind)]
  · have hkey : q.toNat = r.toNat ↔ q = r := ⟨BitVec.eq_of_toNat_eq, congrArg _⟩
    rw [show x.setS r w = { x with sreg := smSet 0 x.sreg r.toNat w } from if_neg hr]
    simp only [CoreSt.s, if_neg hq, smGet_smSet 0 (smWf_sorted h), hkey, hr, ne_eq, not_false_eq_true, and_true]

theorem CoreSt.sregs_wf_setS {x : CoreSt} (h : smWf 0 x.sreg = true) (r : BitVec 5) (w : Word) :
    smWf 0 (x.setS r w).sreg = true := by
  unfold CoreSt.setS
  split
  · exact h
  · exact smWf_smSet h _ _

/-- The state in which target `k` of vat `v` takes the task of slot `i` (06 R196): the slot runs and was the last dispatched. -/
def State.granted (s : State) (v k i : Nat) : State :=
  { (s.setTask v i 3 0).setFld VAT_TASK_CTL.ABORT 0 v i with lastDisp := smSet 255 s.lastDisp (64 * v + k) i }

/-- The registers, the task and the `PC` that the leader of the target starts with (06 R196). -/
def CoreSt.begun (x : CoreSt) (t : TaskSt) (v i : Nat) : CoreSt :=
  { (((x.setS 1 (BitVec.ofNat 32 (256 * v + i))).setS 2 t.arg).setS 3
      (BitVec.ofNat 32 (t.stage.getD (0xFFFFFFFF, 0xFFFFFFFF)).1)).setS 4
      (BitVec.ofNat 32 (t.stage.getD (0xFFFFFFFF, 0xFFFFFFFF)).2) with
    task := some i, pc := BitVec.ofNat 16 (descEntry t.desc) }

theorem CoreSt.s_begun {x : CoreSt} (h : x.sreg = []) (t : TaskSt) (v i : Nat) :
    (x.begun t v i).s 1 = BitVec.ofNat 32 (256 * v + i) ∧ (x.begun t v i).s 2 = t.arg := by
  have h0 : smWf 0 x.sreg = true := by rw [h]; rfl
  have h1 := CoreSt.sregs_wf_setS h0 1 (BitVec.ofNat 32 (256 * v + i))
  have h2 := CoreSt.sregs_wf_setS h1 2 t.arg
  have h3 := CoreSt.sregs_wf_setS h2 3 (BitVec.ofNat 32 (t.stage.getD (0xFFFFFFFF, 0xFFFFFFFF)).1)
  constructor
  · refine (CoreSt.s_setS h3 4 1 _).trans ?_
    rw [if_neg (by decide), CoreSt.s_setS h2, if_neg (by decide), CoreSt.s_setS h1, if_neg (by decide), CoreSt.s_setS h0,
      if_pos (by decide)]
  · refine (CoreSt.s_setS h3 4 2 _).trans ?_
    rw [if_neg (by decide), CoreSt.s_setS h2, if_neg (by decide), CoreSt.s_setS h1, if_pos (by decide)]

theorem exec_taskDispatch {s : State} {v k : VatId} {i : Nat} (hlive : s.vatLive v = true) (hfatal : s.fatal = false)
    (htgt : s.isTarget v k = true) (hidle : s.targetIdle v k = true) (hpick : s.pickSlot v k = some i) :
    exec (.taskDispatch v k) s = .next (((((s.granted v k i).members (64 * v.val + k.val)).foldl
      (fun s m => s.updCore m CoreSt.cleared) (s.granted v k i)).updCore (64 * v.val + k.val)
      (fun x => x.begun (s.task v i) v i)).refill (64 * v.val + k.val)) := by
  refine congrArg Host.Outcome.next ((if_neg (by simp [hlive, hfatal, htgt, hidle])).trans ?_)
  rw [hpick]
  rfl

/-- Settles O22: a command meets a slot in the state its clause names; a dispatch starts the target (`core_start`). -/
theorem tasks : Obligations.Tasks := by
  refine ⟨fun v k data s hlive hfree => ?desc, fun v k data s hlive hfree => ?arg,
    fun v k d s hlive hfree hd hentry htgt hgate hout => ?load, fun v k d s hlive hfree hd hentry htgt hgate hgok hout => ?loadGated,
    fun v k s hlive hst => ?ready, fun v k s hlive hst => ?cancel, fun v k s hlive hst => ?abort, fun v k s hlive hst => ?release,
    fun v k s hlive => ?reserved, fun v k i s hcanon hlive hfatal htgt hidle hpick => ?dispatch⟩
  case desc => exact congrArg Host.Outcome.next (by simp [hlive, hfree])
  case arg => exact congrArg Host.Outcome.next (by simp [hlive, hfree])
  case load =>
    subst hd
    refine congrArg Host.Outcome.next ?_
    have hout : (!descOutEn (s.reg VAT_TASK_DESC v k) || s.tallyOk v (descOut (s.reg VAT_TASK_DESC v k))) = true := by
      grind
    simp [hlive, hfree, hentry, htgt, hgate, hout]
  case loadGated => 
    subst hd
    refine congrArg Host.Outcome.next ?_
    have hout : (!descOutEn (s.reg VAT_TASK_DESC v k) || s.tallyOk v (descOut (s.reg VAT_TASK_DESC v k))) = true := by
      grind
    simp [hlive, hfree, hentry, htgt, hgate, hgok, hout]
  case ready => exact congrArg Host.Outcome.next (by simp [hlive, hst])
  case cancel => 
    exact congrArg Host.Outcome.next (by obtain hst | hst := hst <;> simp [hlive, State.cancelTask, hst])
  case abort => exact congrArg Host.Outcome.next (by simp [hlive, State.cancelTask, hst])
  case release => exact congrArg Host.Outcome.next (by simp [hlive, hst])
  case reserved => exact congrArg Host.Outcome.next (by simp [hlive, State.cmdRej])
  case dispatch =>
    have hquiet : Quiet s (s.granted v k i) :=
      Quiet.same (((Quiet.refl s).setTask v i 3 0).setFld VAT_TASK_CTL.ABORT 0 v i 0)
    obtain ⟨hform, hmem, -⟩ := hquiet hcanon
    obtain ⟨⟨ws, hcore⟩, hmem'⟩ := State.core_start hform (64 * v.val + k.val) (fun x => x.begun (s.task v i) v i)
    obtain ⟨hs1, hs2⟩ := CoreSt.s_begun (x := ((s.granted v k i).core (64 * v.val + k.val)).cleared) rfl (s.task v i) v i
    refine ⟨_, exec_taskDispatch hlive hfatal htgt hidle hpick, ?_⟩
    rw [hcore]
    exact ⟨rfl, rfl, hs1, hs2, hmem'.trans hmem⟩

end Sys2Proof.Machine
end

section
/-! Tallies, their registers and the instructions on them (06 R198 to R204). -/

namespace Sys2Proof.Machine

open Sys2Proof

set_option Elab.async false

section
variable {s : State}

theorem State.tallyInsn_ready {c : CoreId} {r : RArg} {fn : BitVec 6} {uses : List (BitVec 5)} {ill : Option Nat} {t : Nat}
    (h : Ready s c (encR 0x32 r fn)) (hill : ill = none) (ht : t = bvBits ((s.core c).s r.rs1) 0 14)
    (hok : s.tallyOk (vatOf c) t = true) (act : Nat → State → State) : s.tallyInsn c r fn uses ill act = act t s := by
  subst ht
  rw [State.tallyInsn, hill, issue_ready h]
  exact if_neg (by simp [hok])

/-- A T-net message in its order takes effect. -/
theorem State.tnetArrive_ordered {m : TMsg} (h : s.tnetOrder m = true) (f : State → State) :
    s.tnetArrive m f = f (s.recvMsg (.tnet m)) := if_pos h

theorem State.vatOn_of_vatLive {v : Nat} (h : s.vatLive v = true) : s.vatOn v = true := by
  unfold State.vatLive at h
  exact (Bool.and_eq_true_iff.1 h).1

/-- A tally of a vat that serves takes a message in its order. -/
theorem State.tnet_live {v : Nat} {m : TMsg} {f : State → State} {t : State} (hlive : s.vatLive v = true) (h : s.tnetOrder m = true) :
    (if (!s.vatOn v) = true then t else if (!s.vatLive v) = true then s else s.tnetArrive m f) = f (s.recvMsg (.tnet m)) := by
  rw [if_neg (by simp [State.vatOn_of_vatLive hlive]), if_neg (by simp [hlive]), State.tnetArrive_ordered h]

/-- A slot that holds something reads as replaced. -/
theorem State.task_setTaskSt_self {x : TaskSt} (h : x ≠ {}) (v k : Nat) : (s.setTaskSt v k x).task v k = x := smGet_smSet_same h _ _

/-- Arming the gate of a slot leaves the core whose `HALT` waits for it. -/
theorem State.haltingCore_armed (v k : Nat) :
    (s.setTaskSt v k { s.task v k with gate := .armed }).haltingCore v k = s.haltingCore v k := by
  have hne : ({ s.task v k with gate := .armed } : TaskSt) ≠ {} := fun he => by cases congrArg TaskSt.gate he
  unfold State.haltingCore State.taskCore
  rw [State.task_setTaskSt_self hne]
  rfl

end

/-- Settles O23: the messages of the T-net that are due take effect, the instructions on tallies send them. -/
theorem tallies : Obligations.Tallies := by
  refine ⟨fun c r t s h hrd hfx ht hok hsign => ?tinc, fun c r t s h hrs2 hfx ht hok hab => ?twait,
    fun c r t s h hrs2 hfx ht hok => ?trd, fun c r t s h hrd hfx ht hok => ?tsett, fun t n org s hlive hord => ?inc,
    fun t w org s u hlive hord hu => ?registration, fun w t s u c rd n b hord hpop hwait => ?ackCore,
    fun w t s u v k hord hpop hhalt => ?ackSlot, fun w t count s hord => ?release, fun t c s u hlive hord hu => ?read,
    fun t c count s b rd hblk hkind hord => ?readReply, fun t x org s hlive hord => ?threshold, fun t x s hlive => ?cntWrite,
    fun t x s hlive => ?thrWrite, fun t x s hlive => ?stepWrite⟩
  case tinc =>
    refine congrArg Host.Outcome.next ((State.tallyInsn_ready h (by simp [resMsg, hrd, hfx]) ht hok _).trans ?_)
    exact State.signed_of_room hsign _
  case twait =>
    refine congrArg Host.Outcome.next ((State.tallyInsn_ready h (by simp [resRecv, hrs2, hfx]) ht hok _).trans ?_)
    exact State.yieldPoint_of_going hab _
  case trd => exact congrArg Host.Outcome.next (State.tallyInsn_ready h (by simp [resRecv, hrs2, hfx]) ht hok _)
  case tsett => exact congrArg Host.Outcome.next (State.tallyInsn_ready h (by simp [resMsg, hrd, hfx]) ht hok _)
  case inc => exact congrArg Host.Outcome.next (State.tnet_live hlive hord)
  case registration =>
    subst hu
    exact congrArg Host.Outcome.next (State.tnet_live hlive hord)
  case ackCore =>
    refine congrArg Host.Outcome.next ((State.tnetArrive_ordered hord _).trans ?_)
    simp only [hpop, hwait]
  case ackSlot =>
    refine congrArg Host.Outcome.next ((State.tnetArrive_ordered hord _).trans ?_)
    simp only [hpop, State.haltingCore_armed, hhalt]
  case release => exact congrArg Host.Outcome.next (State.tnetArrive_ordered hord _)
  case read =>
    subst hu
    exact congrArg Host.Outcome.next (State.tnet_live hlive hord)
  case readReply =>
    refine congrArg Host.Outcome.next ((State.tnetArrive_ordered hord _).trans ?_)
    have hblk : ((s.recvMsg (.tnet (tReadReply t.toNat count.toNat c))).core c).blk = some b := hblk
    simp only [hblk, hkind]
  case threshold => exact congrArg Host.Outcome.next (State.tnet_live hlive hord)
  case cntWrite => exact congrArg Host.Outcome.next (if_neg (by simp [hlive]))
  case thrWrite => exact congrArg Host.Outcome.next (if_neg (by simp [hlive]))
  case stepWrite => exact congrArg Host.Outcome.next (if_neg (by simp [hlive]))

end Sys2Proof.Machine
end

section
/-! Churn programs: the instructions that compute, those that reach beyond the churn, and how a program ends (06 R207 to R212). -/

namespace Sys2Proof.Machine

open Sys2Proof

set_option Elab.async false

section
variable {i : Instr} {s t : State} {v : VatId} {w : Word} {r : ChurnRun} {act : ChurnRun → State → State}

/-- A program that does not wait runs the word at its `PC`, unless the word is reserved. -/
theorem State.churnIssue_eq (hlive : s.vatLive v = true) (hrun : (s.churn v).run = some r) (hwait : r.wait = none)
    (hcount : r.count < 65536) (hword : smGet 0 r.prog r.pc = w) (act : ChurnRun → State → State) :
    s.churnIssue v w act = if churnReserved w then s.progFault v r.pc else act r s := by
  rw [State.churnIssue, if_neg (by simp [hlive]), hrun]
  exact if_neg (not_or.2 ⟨by simp [hwait], not_or.2 ⟨Nat.not_le.2 hcount, not_not.2 hword⟩⟩)

/-- An instruction of a program that is about to run it acts. -/
theorem exec_churnReady (he : exec i s = .next (s.churnIssue v w act)) (h : ChurnReady s v w r) (hact : act r s = t) :
    exec i s = .next t := by
  obtain ⟨hlive, hrun, hwait, hcount, hword, hlegal⟩ := h
  rw [he, State.churnIssue_eq hlive hrun hwait hcount hword, if_neg (by simp [hlegal]), hact]

theorem exec_churnFp {op : BitVec 6} {a : CArg} {f : ChurnRun → Nat × Flags} {d : Nat} {fl : Flags}
    (he : exec i s = .next (s.churnFp v op a f)) (h : ChurnReady s v (encC op a) r) (hf : f r = (d, fl)) :
    exec i s = .next ((s.churnFlags v fl).churnNext v (r.setC a.rd (BitVec.ofNat 64 d))) := by
  refine exec_churnReady he h ?_
  rw [hf]

end

/-- Settles O24: a program that is about to run the word computes and goes on. -/
theorem churnArithmetic : Obligations.ChurnArithmetic := by
  refine ⟨fun v op a s r h => exec_churnReady rfl h rfl, fun v a s r h => exec_churnReady rfl h rfl,
    fun v a s r h => exec_churnReady rfl h rfl, fun v a s r h => exec_churnReady rfl h rfl,
    fun v a s r h => exec_churnReady rfl h rfl, fun v a s r b fl h hcmp => ?flt, fun v op a s r d fl h hop => ?farith,
    fun v a s r d fl h hop => ?fexp2, fun v a s r d fl h hop => ?frcp, fun v a s r h => exec_churnReady rfl h rfl,
    fun v a s r k h hk hlo hhi => ?topk, fun v op a s r h => ?branch⟩
  case flt =>
    have hbit : (if b then 1 else 0 : Dword) = BitVec.ofNat 64 (if b then 1 else 0) := by cases b <;> rfl
    rw [hbit]
    exact exec_churnFp rfl h (by rw [hcmp])
  case farith =>
    refine exec_churnFp rfl h ?_
    cases op <;> exact hop
  case fexp2 => exact exec_churnFp rfl h hop
  case frcp => exact exec_churnFp rfl h hop
  case topk =>
    subst hk
    exact exec_churnReady rfl h (if_neg (by omega))
  case branch => exact exec_churnReady rfl h (by cases op <;> rfl)

/-- Settles O25: a request of a program is translated or checked and sent, its reply lets the program go on. -/
theorem churnPrograms : Obligations.ChurnPrograms := by
  refine ⟨fun v a s t r ga h halign hrange hx => ?ld, fun v a s t r ga h halign hrange hx hsign => ?st,
    fun v s r rd d hrun hwait => ?ldReply, fun v s r hrun hwait => ?stReply, fun v s r w hrun hwait hne => ?timeout,
    fun v a s r t h ht hok hsign => ?tinc, fun v a s r w h hw hok hsign => ?dbell, fun v a s r k h hk hcheck hsign => ?send,
    fun v a s r h => exec_churnReady rfl h rfl, fun v w s r hlive hrun hwait hcount hword hres => ?reserved,
    fun v s r hlive hrun hwait hcount => ?limit⟩
  case ld =>
    refine exec_churnReady rfl h ?_
    rw [State.churnAccess, if_neg (by omega), hx]
    cases hst : r.stream <;> rfl
  case st =>
    refine exec_churnReady rfl h ?_
    rw [State.churnAccess, if_neg (by omega), hx]
    cases hst : r.stream with
    | none => rfl
    | some st =>
      dsimp only
      rw [if_pos rfl, State.signed_of_room (hsign st hst)]
      rfl
  case ldReply =>
    refine congrArg Host.Outcome.next ?_
    simp [State.churnReply, hrun, hwait]
  case stReply =>
    refine congrArg Host.Outcome.next ?_
    simp [State.churnReply, hrun, hwait]
  case timeout =>
    refine congrArg Host.Outcome.next ?_
    cases w <;> simp_all [State.churnReply]
  case tinc =>
    subst ht
    exact exec_churnReady rfl h (if_neg (by simp [hok]))
  case dbell =>
    subst hw
    exact exec_churnReady rfl h (if_neg (by simp [hok]))
  case send =>
    subst hk
    exact exec_churnReady rfl h (if_neg (by simp [hcheck]))
  case reserved =>
    refine congrArg Host.Outcome.next ((if_pos hres).trans ?_)
    rw [State.churnIssue_eq hlive hrun hwait hcount hword, if_pos hres]
  case limit =>
    refine congrArg Host.Outcome.next ?_
    simp [hrun, hlive, hwait, hcount]

end Sys2Proof.Machine
end

section
/-! Reduction entries of a churn and its invocations (06 R205 to R209), ladles and submission to them (06 R213 to R218). -/

namespace Sys2Proof.Machine

open Sys2Proof

set_option Elab.async false

/-! ### Reductions -/

theorem State.vatLive_of_accepts {s : State} {v : Nat} (h : s.accepts v = true) : s.vatLive v = true := by
  unfold State.accepts at h
  exact (Bool.and_eq_true_iff.1 (Bool.and_eq_true_iff.1 h).1).1

/-- A partial of this vat that has room meets its entry. -/
theorem exec_churnPartial {v : VatId} {src : Nat} {p q : Partial} {s : State} (hacc : s.accepts v = true) (htag : tagVat p.tag = v)
    (hq : (if partialMalformed p false then partialSanitised p else p) = q) (hroom : s.earlyFull v q = false)
    (hsign : s.signBlocked v (64 + p.tag.toNat % 64) = false) :
    exec (.churnPartial v src p) s = .next ((s.recvMsg (.part src p)).redHandle 17 v q) := by
  subst hq
  refine congrArg Host.Outcome.next ?_
  rw [if_neg (by simp [State.vatOn_of_vatLive (State.vatLive_of_accepts hacc)]), if_neg (by simp [hacc, htag, hroom]),
    State.signed_of_room hsign]

theorem State.redGuard_idle {s : State} {v e : Nat} (hlive : s.vatLive v = true) (hbusy : s.bit VAT_RED_STAT.BUSY v e = false)
    (act : State → State) : s.redGuard v e act = act s := by
  rw [State.redGuard, if_neg (by simp [hlive]), if_neg (by simp [hbusy])]

/-- Settles O26: a partial meets its entry, a register of an entry that is not busy takes its write, an invocation starts. -/
theorem reductions : Obligations.Reductions := by
  refine ⟨fun v src p s hacc htag hform hroom hsign => exec_churnPartial hacc htag (by simp [hform]) hroom hsign,
    fun v src p s hacc htag hform hroom hsign => exec_churnPartial hacc htag (by simp [hform]) hroom hsign,
    fun v e l va ga s hfind => ?ack, fun v e data s hlive hbusy hfault => ?cfg, fun v e data s hlive hbusy => ?dst,
    fun v e data s hlive hbusy => ?xfwd, fun v s i is r hacc hrun hq hr => ?start, fun v data s hacc hroom => ?call,
    fun v seed s hlive => ?seed, fun v seed s hlive => ?rseed⟩
  case ack =>
    refine congrArg Host.Outcome.next ?_
    simp [State.redWriteEnd, hfind]
  case cfg =>
    refine congrArg Host.Outcome.next ((State.redGuard_idle hlive hbusy _).trans ?_)
    rw [if_neg (by simp [hfault])]
  case dst => exact congrArg Host.Outcome.next (State.redGuard_idle hlive hbusy _)
  case xfwd => exact congrArg Host.Outcome.next (State.redGuard_idle hlive hbusy _)
  case start =>
    subst hr
    refine congrArg Host.Outcome.next ((if_neg (by simp [hacc, hrun])).trans ?_)
    rw [hq]
  case call => exact congrArg Host.Outcome.next (if_neg (by simp [hacc, State.invFull, hroom]))
  case seed => exact congrArg Host.Outcome.next (if_neg (by simp [hlive]))
  case rseed => exact congrArg Host.Outcome.next (if_neg (by simp [hlive]))

/-! ### Ladles -/

section
variable {s : State} {v l : Nat} {d : LItem}

theorem State.ladleBegin_ready {op : Nat} (h : LadleReady s v l d) (hop : d.op = op) :
    s.ladleBegin v l op = State.ladlePump 16 (s.setLadle v l { s.ladle v l with act := some {} }) v l := by
  obtain ⟨hacc, hstate, hact, hhead⟩ := h
  obtain ⟨ds, hq⟩ := List.head?_eq_some_iff.1 hhead
  unfold State.ladleBegin
  simp only [hact, hq]
  exact if_pos ⟨hacc, hstate, hop⟩

theorem State.regs_recvReply (a : Agent) (tag : Nat) : (s.recvReply a tag).regs = s.regs := by
  unfold State.recvReply
  split <;> rfl

theorem State.ladle_recvReply (a : Agent) (tag : Nat) : (s.recvReply a tag).ladle v l = s.ladle v l := by
  unfold State.recvReply
  split <;> rfl

/-- A field depends on the registers alone. -/
theorem State.fld_of_regs {t : State} (h : t.regs = s.regs) (f : Fld) (i j k : Nat) : t.fld f i j k = s.fld f i j k := by
  simp only [State.fld, State.reg, h]

/-- A write of a running ladle ends: without an error the transfer goes on, else the ladle stops (06 R218). -/
theorem State.ladleWriteEnd_running {a : LAct} {w : Nat × Dword × Bool} {tag : Nat} (hstate : s.fld VAT_LADLE_STAT.STATE v l = 1)
    (hact : (s.ladle v l).act = some a) (hfind : a.wrs.find? (fun w => w.1 = tag) = some w) (err : Nat) :
    s.ladleWriteEnd v l tag err =
      if err = 0 then State.ladlePump 16 ((s.recvReply (.ladle v l) tag).setAct v l { a with wrs := a.wrs.erase w }) v l
      else ((s.recvReply (.ladle v l) tag).setAct v l { a with wrs := a.wrs.erase w }).ladleStop v l
        (if err = 2 ∧ w.2.2 then 4 else err) (some w.2.1) := by
  have hstate' : ((s.recvReply (.ladle v l) tag).setAct v l { a with wrs := a.wrs.erase w }).fld VAT_LADLE_STAT.STATE v l = 1 :=
    (State.fld_of_regs (State.regs_recvReply _ _) _ _ _ _).trans hstate
  unfold State.ladleWriteEnd
  simp only [hact, hfind]
  rw [if_neg (not_not.2 hstate')]
  rfl

end

/-- Settles O27: a descriptor begins (`ladleBegin_ready`), and what it waits for lets it go on or stops the ladle. -/
theorem ladles : Obligations.Ladles := by
  refine ⟨fun v l s d h hop => congrArg Host.Outcome.next (State.ladleBegin_ready h hop),
    fun v l s d h hop => congrArg Host.Outcome.next (State.ladleBegin_ready h hop),
    fun v l s d h hop => congrArg Host.Outcome.next (State.ladleBegin_ready h hop),
    fun v l s d h hop => congrArg Host.Outcome.next (State.ladleBegin_ready h hop),
    fun v l s d h hop => congrArg Host.Outcome.next (State.ladleBegin_ready h hop),
    fun v l s d h hop hacc hroom => ?call, fun v l s a d ds tag n ga x hstate hact hq hrd h4 h5 => ?read,
    fun v l tag s a w hstate hact hfind => ?write, fun v l tag s a w hstate hact hrd hfind => ?timeout,
    fun c line data time s t hinit hline hinst => ?inject, fun v l s t hlive hstg ht => ?flush,
    fun v l s hstate hact => ?flushed, fun v l s hlive hstate => ?resume⟩
  case call =>
    obtain ⟨hlive, hstate, hact, hhead⟩ := h
    obtain ⟨ds, hq⟩ := List.head?_eq_some_iff.1 hhead
    refine congrArg Host.Outcome.next ?_
    simp only [hact, hq]
    exact if_pos ⟨hlive, hstate, hop, hacc, by simp [hroom]⟩
  case read =>
    refine congrArg Host.Outcome.next ?_
    unfold State.ladleReadEnd
    simp only [hact, hq, hrd]
    rw [if_neg (by simp [State.fld_of_regs (State.regs_recvReply _ _), hstate])]
    simp only [replyBytes, if_neg (not_or.2 ⟨h4, h5⟩)]
    rfl
  case write => exact congrArg Host.Outcome.next ((State.ladleWriteEnd_running hstate hact hfind 0).trans (if_pos rfl))
  case timeout =>
    have hend := State.ladleWriteEnd_running hstate hact hfind 3
    rw [if_neg (by decide), if_neg (by simp)] at hend
    refine congrArg Host.Outcome.next ?_
    rw [hact]
    exact (if_neg (by simp [hrd])).trans hend
  case inject =>
    have hinit' : (s.recvMsg (.inject c line data time)).bit VAT_CORE_STAT.CC_INIT (vatOf c) (idxOf c) = false := hinit
    have hline' : ((s.recvMsg (.inject c line data time)).core c).findLine line = none := hline
    refine congrArg Host.Outcome.next ?_
    simp only [hinit', hline', hinst]
    rfl
  case flush =>
    subst ht
    refine congrArg Host.Outcome.next ((if_neg (by simp [hlive])).trans ?_)
    simp only [hstg]
    rfl
  case flushed =>
    refine congrArg Host.Outcome.next ?_
    simp [hstate, hact]
  case resume => exact congrArg Host.Outcome.next (if_pos ⟨hlive, hstate⟩)

/-- Settles O28: each way of submission ends in `ladleSubmit`. -/
theorem ladleSubmission : Obligations.LadleSubmission := by
  refine ⟨fun c r s t code seq h hfx hrs2 hsign hsub => ?insn, fun v l data s hlive hstg => ?start,
    fun v l w data s hlive h0 h7 hlen hdisc => ?word, fun v l data privileged s t seq hacc htakes hsub => ?commit⟩
  case insn =>
    refine exec_ready rfl h (by simp [lowest_cons_eq_none, hfx, hrs2, -BitVec.getLsbD_eq_getElem]) ((State.signed_of_room hsign _).trans ?_)
    dsimp only
    rw [hsub]
  case start =>
    refine congrArg Host.Outcome.next ((if_neg (by simp [hlive])).trans ?_)
    simp only [hstg]
    rfl
  case word =>
    refine congrArg Host.Outcome.next ((if_neg (by simp [hlive, h0, h7])).trans ?_)
    exact if_pos (by simp [State.stgTakes, hlen, hdisc])
  case commit =>
    refine congrArg Host.Outcome.next ((if_neg (by simp [hacc])).trans ((if_neg (by simp [htakes])).trans ?_))
    simp only [hsub]
    rfl

end Sys2Proof.Machine
end

section
/-! The reset of a vat, the routers, the T-net and the firmware broadcast (07 R222 to R257). -/

namespace Sys2Proof.Machine

open Sys2Proof

set_option Elab.async false

/-- No error is injected at a router whose vat has no armed injection. -/
theorem State.hdrInj_unarmed {s : State} {v : VatId} (h : s.bit VAT_ECC_INJ.ARM v = false) (cnet : Bool) (px py : Nat)
    (err : HdrErr) : s.hdrInj cnet v px py err = (err, s) := by
  simp [State.hdrInj, h]

/-- Settles O29: every clause takes its branch of the unit's command; no slot of an empty router matches a partial. -/
theorem vatResetAndNetworks : Obligations.VatResetAndNetworks := by
  refine ⟨fun v s hlive => ?reset, fun v s hres => ?complete, fun v px py hdr msg d s harm hbad hdir hcred => ?packet,
    fun pool inst vc s hused => ?credit, fun v px py src p s hmerge hcred => ?through,
    fun v px py src p s hmerge hhold hmal hfull hslots => ?slot, fun v px py k x s hslot hmark htime => ?expiry,
    fun v px py k x p s hslot hmark hp hcred => ?forward, fun off vats line s hoff => ?broadcast,
    fun v bits i msg s hop hcred => ?tnet, fun v i data s => rfl⟩
  case reset => exact congrArg Host.Outcome.next (if_neg (by simp [hlive]))
  case complete => exact congrArg Host.Outcome.next (if_neg (by simp [hres]))
  case packet =>
    have hcred' : ¬ credDepth 0 ≤ s.credUsed 0 (routerLoc v px py + d * 2 ^ 13) (bvBits hdr 30 2) := Nat.not_le.2 hcred
    change execRouterPacket _ _ _ _ _ _ _ _ _ = _
    rw [execRouterPacket, State.hdrInj_unarmed harm]
    refine congrArg Host.Outcome.next ?_
    simp only [hbad, hdir]
    exact if_neg (by simpa using hcred')
  case credit => exact congrArg Host.Outcome.next (if_neg (Nat.pos_iff_ne_zero.1 hused))
  case through =>
    refine congrArg Host.Outcome.next ((if_pos (Or.inl (by simp [hmerge]))).trans (if_pos hcred))
  case slot =>
    refine congrArg Host.Outcome.next ?_
    dsimp only
    rw [hmal]
    refine (if_neg (by simp [hmerge, hhold, hfull])).trans ?_
    have hfree : (List.range 8).find? (fun i => (s.slot (routerLoc v px py) i).isNone) = some 0 := by
      simp [List.range_succ, hslots]
    rw [List.find?_eq_none.2, hfree]
    · rfl
    · intro k hk
      simp [hslots k (List.mem_range.1 hk)]
  case expiry =>
    refine congrArg Host.Outcome.next ?_
    simp only [hslot]
    exact if_neg (by simp [hmark, htime])
  case forward =>
    subst hp
    refine congrArg Host.Outcome.next ?_
    simp only [hslot]
    exact if_neg (by simp [hmark, hcred])
  case broadcast =>
    have hroom : min 64 (65536 - off.toNat) = 64 := by omega
    change execFirmwareBroadcast _ _ _ _ = _
    simp [execFirmwareBroadcast, hroom]
  case tnet =>
    have hcred' : ¬ credDepth 3 ≤ s.credUsed 3 i.toNat 0 := Nat.not_le.2 hcred
    refine congrArg Host.Outcome.next ((if_neg (by simp [hcred'])).trans ?_)
    exact if_neg (Nat.not_le.2 hop)

end Sys2Proof.Machine
end

section
/-! The speculation units (08 R258 to R296). -/

namespace Sys2Proof.Machine

open Sys2Proof

set_option Elab.async false

/-- The lead unit of vat 0 runs a stream with a token ring: a provisional record stands, and its output queue holds 64. -/
def fullQueueLead : State :=
  let s : State := { State.reset with img := { configured := true, parts := [(0, { vatMask := 1 })] } }
  (((((s.setFld PWR_DOM_STAT.STATE 2 0).setFld VAT_SPEC_CTL.ROLE 1 0).setFld VAT_SPEC_CTL.LEAD 1 0).setFld
    VAT_SPEC_CTL.RING_EN 1 0).setFld VAT_SPEC_STAT.STATE 1 0).setSpec 0
    { outq := List.replicate 64 ({ type := 1, pos := 1 }, true), posted := [(1, 1)] }

/-- `END` waits at a lead unit whose output queue has no place for the record that withdraws (08 R290). -/
theorem exec_specEnd_fullQueueLead : exec (.specEnd 0 0x4) fullQueueLead = .next fullQueueLead :=
  congrArg Host.Outcome.next ((if_neg (by decide)).trans (if_pos (by decide +kernel)))

/-- Refutes O30: the clause of `END` at the lead unit asks for no place in the output queue. In `fullQueueLead` the command
waits, and the stream does not end. -/
theorem not_speculationAndVerdicts : ¬ Obligations.SpeculationAndVerdicts := by
  rintro ⟨-, -, -, hend, -⟩
  have hready : SpecReady fullQueueLead 0 := by unfold SpecReady; decide +kernel
  have hnext := hend 0 0x4 fullQueueLead hready (by decide +kernel) (by decide +kernel) (by decide) (by decide) (by decide)
  have hsame : fullQueueLead.specEnd 0 0 = fullQueueLead :=
    Host.Outcome.next.inj (hnext.symm.trans exec_specEnd_fullQueueLead)
  exact absurd (congrArg (fun s : State => s.specState 0) hsame) (by decide +kernel)

/-- A unit that is ready takes its work. -/
theorem State.specTake_ready {s : State} {v : Nat} (h : SpecReady s v) (act : State → State) : s.specTake v act = act s := by
  obtain ⟨hacc, hspec, hbusy, hsign⟩ := h
  exact (if_neg (by simp [hacc, hspec, hbusy])).trans (State.signed_of_room hsign act)

/-- Settles O31: the unit takes each command at once, and no guard of it holds. -/
theorem speculationControl : Obligations.SpeculationControl := by
  refine ⟨fun v tag s o ho => ?ack, fun v tag s o hrb ho => ?timeout, fun v tag upto ga s t hrb hnext ht => ?readback,
    fun v s t u htodo houts hrb hready hstate hcheck hplen ht hu hring => ?start, fun v s hready hstate => ?stop,
    fun v s t n hacc hspec hsign hstate hn ht => ?clear, fun v data s hlive hspec hstate => ?cons,
    fun v data s hlive hspec hstate => ?config, fun v s hready hstate hq hring => ?drained⟩
  case ack =>
    refine congrArg Host.Outcome.next ?_
    unfold State.specWriteEnd
    simp only [ho]
    rfl
  case timeout =>
    refine congrArg Host.Outcome.next ?_
    unfold State.specWriteEnd
    simp only [hrb, ho]
  case readback =>
    subst ht
    refine congrArg Host.Outcome.next ?_
    unfold State.specReadEnd
    simp only [hrb, hnext]
    rfl
  case start =>
    subst ht
    subst hu
    refine congrArg Host.Outcome.next ((if_neg (by simp [htodo, houts, hrb])).trans ((State.specTake_ready hready _).trans ?_))
    refine (if_neg (by simp [hstate])).trans ((if_neg (by simp [hcheck])).trans ?_)
    simp only [hplen]
    rw [if_pos (show (1 : Nat) < 2 by decide)]
    simp only [hring]
    rfl
  case stop => exact congrArg Host.Outcome.next ((State.specTake_ready hready _).trans (if_pos hstate))
  case clear =>
    subst hn
    subst ht
    refine congrArg Host.Outcome.next ((if_neg ?_).trans (State.signed_of_room hsign _))
    rcases hstate with h | h <;> simp [hacc, hspec, h]
  case cons => exact congrArg Host.Outcome.next ((if_neg (by simp [hlive, hspec])).trans (if_neg (by simp [hstate])))
  case config => exact congrArg Host.Outcome.next ((if_neg (by simp [hlive, hspec])).trans (if_neg (by simp [hstate])))
  case drained =>
    refine congrArg Host.Outcome.next ((if_neg (by simp [hstate, hq, hring])).trans ((State.specTake_ready hready _).trans ?_))
    exact congrArg (fun t : State => t.setFld VAT_SPEC_STAT.STATE 0 v) (if_pos (by simp [hring]))

end Sys2Proof.Machine
end

section
/-! What a count or an event of a vat changes: registers, and the core that the event wakes. -/

namespace Sys2Proof.Machine

open Sys2Proof

set_option Elab.async false

/-- `t` differs from `s` in its registers and cores only. -/
def RegsCores (s t : State) : Prop := t = { s with regs := t.regs, cores := t.cores }

namespace RegsCores

variable {s t u : State}

theorem refl (s : State) : RegsCores s s := rfl

theorem trans (h : RegsCores s t) (h' : RegsCores t u) : RegsCores s u := by
  unfold RegsCores at *
  rw [h']
  conv_lhs => rw [h]

theorem ite {p : Prop} [Decidable p] (ht : RegsCores s t) (hu : RegsCores s u) : RegsCores s (if p then t else u) := by
  split
  · exact ht
  · exact hu

theorem setFld (h : RegsCores s t) (f : Fld) (x i j k : Nat) : RegsCores s (t.setFld f x i j k) := h.trans rfl

theorem updCore (h : RegsCores s t) (c : Nat) (f : CoreSt → CoreSt) : RegsCores s (t.updCore c f) := h.trans rfl

theorem useInj (h : RegsCores s t) (v b : Nat) (f : Fld) : RegsCores s (t.useInj v b f) :=
  ite h (ite ((h.setFld _ _ _ _ _).setFld _ _ _ _ _) ((h.setFld _ _ _ _ _).setFld _ _ _ _ _))

theorem advance (h : RegsCores s t) (c : Nat) : RegsCores s (t.advance c) := (h.useInj _ _ _).trans rfl

theorem setTask (h : RegsCores s t) (v k st w : Nat) : RegsCores s (t.setTask v k st w) := (h.setFld _ _ _ _ _).setFld _ _ _ _ _

theorem resumeTask (h : RegsCores s t) (c : Nat) : RegsCores s (t.resumeTask c) := by
  unfold State.resumeTask
  refine updCore ?_ c _
  split
  · exact h.setTask _ _ _ _
  · exact h

theorem bumpRaw (h : RegsCores s t) (r : Reg) (i j k : Nat) : RegsCores s (t.bumpRaw r i j k).1 := by
  unfold State.bumpRaw
  dsimp only
  split
  · exact (h.setFld _ _ _ _ _).setFld _ _ _ _ _
  · exact h.setFld _ _ _ _ _

theorem setEventLatch (h : RegsCores s t) (c : Nat) : RegsCores s (t.setEventLatch c).1 := by
  unfold State.setEventLatch
  dsimp only
  split
  · exact (((h.bumpRaw _ _ _ _).updCore _ _).resumeTask _).advance _
  · exact h.trans rfl

theorem raiseOne (h : RegsCores s t) (v n : Nat) : RegsCores s (t.raiseOne v n).1 := by
  unfold State.raiseOne
  split
  · exact h
  · dsimp only
    split
    · exact (h.setFld _ _ _ _ _).setEventLatch _
    · exact h.setFld _ _ _ _ _

theorem raiseVat (h : RegsCores s t) (v n : Nat) : RegsCores s (t.raiseVat v n) :=
  ite ((h.raiseOne _ _).raiseOne _ _) (h.raiseOne _ _)

theorem bump (h : RegsCores s t) (r : Reg) (i j k : Nat) : RegsCores s (t.bump r i j k) :=
  ite (ite ((h.bumpRaw _ _ _ _).raiseVat _ _) ((h.bumpRaw _ _ _ _).setFld _ _ _ _ _)) (h.bumpRaw _ _ _ _)

theorem bumpN (h : RegsCores s t) (r : Reg) (n i j k : Nat) : RegsCores s (t.bumpN r n i j k) :=
  ite (ite (((h.setFld _ _ _ _ _).setFld _ _ _ _ _).raiseVat _ _) (((h.setFld _ _ _ _ _).setFld _ _ _ _ _).setFld _ _ _ _ _))
    (h.setFld _ _ _ _ _)

end RegsCores

end Sys2Proof.Machine
end

section
/-! The Cream store (09 R297 to R315). -/

namespace Sys2Proof.Machine

open Sys2Proof

set_option Elab.async false

theorem RegsCores.slice {s t : State} (h : RegsCores s t) (v : Nat) : t.slice v = s.slice v := by
  rw [h]
  rfl

/-- A request to a place that caches or a scratchpad, at its home slice (09 R299). -/
theorem State.atHome_here {s : State} {ga : Dword} {a v : Nat} {p : Place} (htarget : s.target ga = .here a)
    (hfatal : s.fatal = false) (hplace : s.place a = p) (hnone : p ≠ .none) (hreg : ∀ off, p ≠ .reg off)
    (hhome : s.homeOf p a = some v) (src : Agent) (tag : Nat) (op : MemOp) (serve : Nat → Nat → Place → State → State) :
    s.atHome src tag ga op serve = serve v a p s := by
  subst hplace
  unfold State.atHome
  rw [htarget]
  simp only [hfatal]
  cases hp : s.place a <;> simp_all

/-- A read or write of a line of the crock or the cellar, at the slice that takes it (09 R299, R308). -/
theorem exec_sliceRequest_cached {s t : State} {ga : Dword} {a v id : Nat} {p : Place} {src : Agent} {tag : Nat} {op : MemOp}
    {q : SliceReq} (hp : (∃ ch l, p = .crock ch l) ∨ ∃ pos o, p = .cellar pos o) (hop : plainOp op = true)
    (htarget : s.target ga = .here a) (hfatal : s.fatal = false) (hplace : s.place a = p) (hhome : s.homeOf p a = some v)
    (harr : s.sliceArrive v src tag ga op (a / 64) = some (t, id, q)) (err : HdrErr) :
    exec (.sliceRequest src tag ga op err) s = .next (t.cachedAccess v id q err) := by
  change execSliceRequest _ _ _ _ _ _ = _
  rw [execSliceRequest, if_neg (by simp [hop])]
  rcases hp with ⟨ch, l, rfl⟩ | ⟨pos, o, rfl⟩ <;>
  · rw [State.atHome_here htarget hfatal hplace (by simp) (by simp) hhome]
    dsimp only
    rw [harr]

/-- Nothing is injected into a slice that is not armed. -/
theorem State.sliceInj_unarmed {s : State} {v : Nat} (h : s.bit VAT_ECC_INJ.ARM v = false) (err : HdrErr) :
    s.sliceInj v err = (err, s) :=
  if_neg (by simp [h])

/-- What a granted access of a scratchpad does to the state `s` (09 R298): a write puts its bytes, a read gets its line. -/
def State.scratchDone (s : State) (v id a : Nat) (op : MemOp) : State :=
  match writeParts op with
  | some (m, d) => State.sliceReply { s with mem := Memory.write s.mem (a / 64 * 64) m.toNat d.toNat 64 } v id .done
  | none => s.sliceReply v id (.data (s.readBytes a (64 - a % 64)))

/-- A read or write of a scratchpad that its requester may reach, at a slice that is not armed. -/
theorem exec_scratchpadAccess_granted {s t u : State} {ga : Dword} {a v id k off : Nat} {src : Agent} {tag : Nat} {op : MemOp}
    {q : SliceReq} (hop : plainOp op = true) (htarget : s.target ga = .here a) (hfatal : s.fatal = false)
    (hplace : s.place a = .scratch k off) (hhome : s.homeOf (.scratch k off) a = some v)
    (harr : s.sliceArrive v src tag ga op (a / 64) = some (t, id, q)) (hcheck : t.scrCheck src k off = none)
    (hreg : t.crmRegulate v q = (u, true)) (harm : (u.crmCount v q.rt VAT_CRM_PC_SCR).bit VAT_ECC_INJ.ARM v = false) :
    exec (.scratchpadAccess src tag ga op .ok) s = .next ((u.crmCount v q.rt VAT_CRM_PC_SCR).scratchDone v id a op) := by
  change execScratchpadAccess _ _ _ _ _ _ = _
  rw [execScratchpadAccess, if_neg (by simp [hop]), State.atHome_here htarget hfatal hplace (by simp) (by simp) hhome]
  -- The size of a scratchpad is a product of literals: a name for the check keeps the kernel from unfolding it.
  obtain ⟨check, hname⟩ : ∃ check, check = State.scrCheck := ⟨_, rfl⟩
  rw [← hname] at hcheck ⊢
  dsimp only
  rw [harr]
  dsimp only
  rw [hcheck]
  dsimp only
  rw [hreg]
  dsimp only
  rw [if_neg (by simp), State.sliceInj_unarmed harm, State.scratchDone]
  cases writeParts op with
  | none => rfl
  | some md =>
    obtain ⟨m, d⟩ := md
    dsimp only
    rw [ite_self]
    rfl

/-- Putting an entry leaves an entry. -/
theorem smPut_ne_nil {α : Type} (m : List (Nat × α)) (i : Nat) (x : α) : smPut m i x ≠ [] := by
  cases m with
  | nil => exact List.cons_ne_nil _ _
  | cons e m =>
    unfold smPut
    split
    · exact List.cons_ne_nil _ _
    · split <;> exact List.cons_ne_nil _ _

/-- A slice reads back a cache with a line. -/
theorem State.slice_setSlice {s : State} {v : Nat} {x : SliceSt} (h : x.cache ≠ []) : (s.setSlice v x).slice v = x :=
  smGet_smSet_same (fun hx => h (congrArg SliceSt.cache hx)) _ _

/-- An error that the array corrects does not change the slice. -/
theorem State.slice_sliceErr {err : HdrErr} (h : err ≠ .uncorrectable) (s : State) (v : Nat) (part : Option Nat) (ga : Dword)
    (sub u : Nat) : (s.sliceErr v err part ga sub).slice u = s.slice u := by
  cases err with
  | ok => rfl
  | corrected => rfl
  | uncorrectable => exact absurd rfl h

/-- An injection does not change the slice. -/
theorem State.slice_sliceInj (s : State) (v : Nat) (err : HdrErr) (u : Nat) : (s.sliceInj v err).2.slice u = s.slice u := by
  unfold State.sliceInj
  split <;> rfl

/-- The atomic buffer after a look-up that found a line is the one before it. -/
theorem State.atomb_crmLook {s w : State} {v : Nat} {q : SliceReq} {err : HdrErr} {d : Line}
    (h : s.crmLook v q err = (some d, w)) : (w.slice v).atomb = (s.slice v).atomb := by
  unfold State.crmLook at h
  dsimp only at h
  split at h
  · simp at h
  · split at h
    · simp at h
    · next herr =>
      obtain ⟨-, rfl⟩ := Prod.mk.inj h
      have hslice := (State.slice_sliceErr herr (s.sliceInj v err).2 v q.part q.ga 0 v).trans
        (State.slice_sliceInj s v err v)
      rw [← hslice]
      split
      · split
        · rw [State.slice_setSlice (smPut_ne_nil _ _ _)]
        · rfl
      · rfl

/-- The regulator counts and changes its level, which are registers. -/
theorem State.slice_crmRegulate {s u : State} {v : Nat} {q : SliceReq} {ok : Bool} (h : s.crmRegulate v q = (u, ok)) (w : Nat) :
    u.slice w = s.slice w := by
  unfold State.crmRegulate at h
  split at h
  · cases h
    rfl
  · split at h
    · cases h
      rfl
    · dsimp only at h
      split at h
      · cases h
        exact ((RegsCores.refl s).bump _ _ _ _).slice w
      · cases h
        rfl

/-- Settles O32: each access passes its slice's guards; an atomic whose line the slice has found keeps its entry in the atomic
buffer through the look-up. -/
theorem creamStore : Obligations.CreamStore := by
  refine ⟨fun src tag ch l v a id n ga err s t u w q d htarget hfatal hplace hhome harr hop hread hreg hlook => ?hit,
    fun src tag p o v a id n ga err s t u w q htarget hfatal hplace hhome harr hop hread hreg hlook => ?miss,
    fun src tag p o v a id ga m d err s t u q htarget hfatal hplace hhome harr hop hread hreg => ?write,
    fun src tag k off v a id n ga s t u q htarget hfatal hplace hhome harr hcheck hreg harm => ?scrRead,
    fun src tag k off v a id ga m d s t u w q htarget hfatal hplace hhome harr hcheck hreg hw harm => ?scrWrite,
    fun src tag ch l v a id ga fn x e err s t u w q d b htarget hfatal hplace hhome harr hread hreg hlook hatom => ?atomic,
    fun v id d s q n hfind hgrant hop hmask => ?fill,
    fun c ga data rtime a ch l v s t x ht htarget hplace hhome hdecl halloc => ?victim,
    fun v j s hen => ?tick, fun v j data s t hen ht => ?regulator⟩
  case hit =>
    refine (exec_sliceRequest_cached (.inl ⟨_, _, rfl⟩) rfl htarget hfatal hplace hhome harr err).trans ?_
    rw [State.cachedAccess, hread, hreg, hop]
    dsimp only [writeParts]
    rw [hlook]
    rfl
  case miss =>
    refine (exec_sliceRequest_cached (.inr ⟨_, _, rfl⟩) rfl htarget hfatal hplace hhome harr err).trans ?_
    rw [State.cachedAccess, hread, hreg, hop]
    dsimp only [writeParts]
    rw [hlook]
    rfl
  case write =>
    refine (exec_sliceRequest_cached (.inr ⟨_, _, rfl⟩) rfl htarget hfatal hplace hhome harr err).trans ?_
    rw [State.cachedAccess, hread, hreg, hop]
    rfl
  case scrRead =>
    refine (exec_scratchpadAccess_granted rfl htarget hfatal hplace hhome harr hcheck hreg harm).trans ?_
    rfl
  case scrWrite =>
    subst hw
    refine (exec_scratchpadAccess_granted rfl htarget hfatal hplace hhome harr hcheck hreg harm).trans ?_
    rfl
  case atomic =>
    have hbuf : (t.slice v).atom q.line = some b := by
      rw [SliceSt.atom, State.atomb_crmLook hlook, State.crmCount,
        ((RegsCores.refl u).bump _ _ _ _).slice, State.slice_crmRegulate hreg] at hatom
      exact hatom
    change execAtomicRequest _ _ _ _ _ _ _ _ = _
    rw [execAtomicRequest]
    refine congrArg Host.Outcome.next ?_
    obtain ⟨check, hname⟩ : ∃ check, check = State.scrCheck := ⟨_, rfl⟩
    rw [← hname]
    simp only [htarget, hplace]
    rw [State.atHome_here htarget hfatal hplace (by simp) (by simp) hhome]
    dsimp only
    rw [harr]
    dsimp only
    rw [if_neg (by simp [hread, State.atomStuck, hbuf]), hreg]
    dsimp only
    rw [if_neg (by simp), hlook]
    dsimp only
    rw [hatom]
  case fill =>
    refine congrArg Host.Outcome.next ?_
    simp only [hfind, hop]
    have hread : writeParts (.read n) = none := rfl
    rw [if_neg (by simp [hgrant, hread])]
    simp only [hmask]
    rfl
  case victim =>
    subst ht
    refine congrArg Host.Outcome.next ?_
    simp only [htarget, hplace, hhome]
    rw [if_neg (by simp [hdecl]), halloc]
  case tick =>
    exact congrArg Host.Outcome.next (if_pos hen)
  case regulator =>
    subst ht
    refine congrArg Host.Outcome.next ?_
    simp [hen]

end Sys2Proof.Machine
end

section
/-! The crock channels (10 R316 to R343). -/

namespace Sys2Proof.Machine

open Sys2Proof

set_option Elab.async false

/-- A serving channel takes the oldest request to a line (10 R324, R325). -/
theorem State.crkServe_head {s : State} {ch line : Nat} {r : MemReq} (hhead : s.crkHead ch line = some r)
    (hstate : s.crkState ch = 0) {write : Bool} (hwrite : r.write.isSome = write) (serve : MemReq → State → State) :
    s.crkServe ch line write serve = serve r { s with memq := s.memq.erase r } := by
  unfold State.crkServe
  simp only [hhead, hstate]
  exact if_neg (not_not.2 hwrite)

/-- No share line stands in the way: the channel has not failed, and its poison list is empty (12 R375). -/
theorem State.crkShare_clear {s : State} {ch : Nat} (hfailed : s.bit CRK_CH_ECCSTAT.FAILED (ch / 16) (ch % 16) = false)
    (hpoison : (s.crk ch).poison = []) (line : Nat) (part : Option Nat) (q : List MemReq) :
    State.crkShare { s with memq := q } ch line none part = ({ s with memq := q }, false) :=
  if_neg (not_or.2 ⟨Bool.eq_false_iff.1 hfailed, by simp [State.crk, show (smGet {} s.crks ch).poison = [] from hpoison]⟩)

theorem RegsCores.validBit {s t : State} (h : RegsCores s t) (line : Nat) : t.validBit line = s.validBit line := by
  rw [h]
  rfl

/-- A temperature is not hotter than itself. -/
theorem hotter_self (a : Nat) : hotter a a = a := ite_self _

/-- A run that a generator admits (10 R339): it is idle, the mode is a mode, the channel tests, the span fits. -/
theorem tgGo_admitted {busy : Prop} {mode st base len cap : Nat} (hbusy : ¬ busy) (hlo : 1 ≤ mode) (hhi : mode ≤ 6) (hst : st = 4)
    (hlen : 1 ≤ len) (hspan : base + len ≤ cap) :
    ¬ (busy ∨ mode = 0 ∨ mode = 7 ∨ (mode ≠ 6 ∧ st ≠ 4) ∨ st = 1 ∨ st = 2 ∨ st = 3 ∨ len = 0 ∨ cap < base + len) := by
  rintro (h | h)
  · exact hbusy h
  · omega

/-- The same for a generator of a position, which serves or tests (11 R366). -/
theorem celTgGo_admitted {busy : Prop} {mode st base len cap : Nat} (hbusy : ¬ busy) (hlo : 1 ≤ mode) (hhi : mode ≤ 6) (hst : st = 5)
    (hlen : 1 ≤ len) (hspan : base + len ≤ cap) :
    ¬ (busy ∨ mode = 0 ∨ mode = 7 ∨ (mode ≠ 6 ∧ st ≠ 5) ∨ (st ≠ 3 ∧ st ≠ 5) ∨ len = 0 ∨ cap < base + len) := by
  rintro (h | h)
  · exact hbusy h
  · omega

/-- Settles O33: a serving channel whose share line is no obstacle takes the request; the writes of its registers pass their
guards; five equal temperatures have themselves as the highest. -/
theorem crockChannels : Obligations.CrockChannels := by
  refine ⟨fun ch line acts id r s t u info hhead hwrite hid hstate hfailed hpoison hvalid ht hdec => ?read,
    fun ch line errs acts id r s hhead hwrite hid hstate hfailed hpoison hvalid => ?zero,
    fun ch line errs acts r m d s t hhead hwrite hstate hfailed hpoison hvalid hnarrow ht => ?write,
    fun ch s hstate => ?refresh, fun ch x s hcanon => ?temp, fun ch s hstate hdark hbusy => ?idle, fun ch s hstate => ?exit,
    fun ch line errs s t a info hfatal hstate hinuse hhours hline hdpa hvalid hdec => ?scrub,
    fun k data s hlt => ?thr, fun ch data s t hbit hinuse hkept ht hstate => ?test,
    fun ch data s t hbit ht hstate => ?leave,
    fun ch data s t k j r hgo hk hj hbusy ht hr hlo hhi hstate hlen hspan => ?go,
    fun ch data done errs s hbit => ?abort, fun ch errs s r hrun => ?runEnd⟩
  case read =>
    subst ht
    refine congrArg Host.Outcome.next ((State.crkServe_head hhead hstate (by rw [hwrite]; rfl) _).trans ?_)
    dsimp only
    rw [State.crkShare_clear hfailed hpoison]
    dsimp only
    rw [if_neg (by simp), if_neg (by simp [show State.validBit { s with memq := s.memq.erase r } r.line = true from hvalid]), hdec]
    dsimp only
    rw [if_neg (by simp), hid]
    rfl
  case zero =>
    refine congrArg Host.Outcome.next ((State.crkServe_head hhead hstate (by rw [hwrite]; rfl) _).trans ?_)
    dsimp only
    rw [State.crkShare_clear hfailed hpoison]
    dsimp only
    rw [if_neg (by simp), if_pos (by simp [show State.validBit { s with memq := s.memq.erase r } r.line = false from hvalid]), hid]
  case write =>
    subst ht
    refine congrArg Host.Outcome.next ((State.crkServe_head hhead hstate (by rw [hwrite]; rfl) _).trans ?_)
    dsimp only
    rw [hwrite]
    dsimp only
    rw [State.crkShare_clear hfailed hpoison]
    dsimp only
    rw [if_neg (by simp), hnarrow]
    refine (if_neg ?_).trans (if_neg (by simp))
    rw [Bool.not_eq_true', Bool.not_eq_false]
    exact ((RegsCores.refl _).bump _ _ _ _ |>.bumpN _ _ _ _ _).validBit _ |>.trans hvalid
  case refresh => exact congrArg Host.Outcome.next (if_pos hstate)
  case temp =>
    refine ⟨_, rfl, ?_, rfl⟩
    simp only [List.foldl_cons, List.foldl_nil, hotter_self]
    have hsorted {u : State} (hu : u.canon = true) : smSorted u.regs = true := smWf_sorted (canon_iff.1 hu).2.1
    have hlayer := s.canon_setFld hcanon CRK_CH_TEMP.LAYER (List.foldr (fun t a => t + 256 * a) 0
      [x.toNat, x.toNat, x.toNat, x.toNat, x.toNat]) (ch / 16) (ch % 16) 0
    have htemp := State.canon_setFld _ hlayer CRK_CH_STAT.TEMP x.toNat (ch / 16) (ch % 16) 0
    have hrefx (n : Nat) := State.canon_setFld _ htemp CRK_CH_STAT.REFX n (ch / 16) (ch % 16) 0
    have htlvl (n m : Nat) := State.canon_setFld _ (hrefx n) CRK_CH_STAT.TLVL m (ch / 16) (ch % 16) 0
    have htmax (n m max : Nat) := State.canon_setFld _ (htlvl n m) CRK_TEMP.TMAX max (ch / 16) 0 0
    have hne : CRK_CH_STAT.TEMP.reg.addr (ch / 16) (ch % 16) 0 ≠ CRK_TEMP.TMAX.reg.addr (ch / 16) 0 0 := by
      simp only [Reg.addr, CRK_CH_STAT.TEMP, CRK_TEMP.TMAX, CRK_CH_STAT, CRK_TEMP]
      omega
    rw [State.fld_setFld_ne (f := CRK_TEMP.PEAK) (hsorted (htmax _ _ _)) _ hne, State.fld_setFld_ne (hsorted (htlvl _ _)) _ hne,
      State.fld_setFld_other (f := CRK_CH_STAT.TLVL) (g := CRK_CH_STAT.TEMP) (hsorted (hrefx _)) rfl (by decide) (by decide) (by decide),
      State.fld_setFld_other (f := CRK_CH_STAT.REFX) (g := CRK_CH_STAT.TEMP) (hsorted htemp) rfl (by decide) (by decide) (by decide),
      State.fld_setFld_same (hsorted hlayer) _ (by decide)]
    exact Nat.mod_eq_of_lt x.isLt
  case idle => exact congrArg Host.Outcome.next (if_pos ⟨hstate, hdark, by simp [hbusy]⟩)
  case exit => exact congrArg Host.Outcome.next (if_pos hstate)
  case scrub =>
    refine congrArg Host.Outcome.next ((if_neg (by simp [hfatal, hstate, hinuse, hhours])).trans
      ((if_neg (Nat.not_le.2 hline)).trans ?_))
    rw [hdpa]
    dsimp only
    rw [if_neg (by simp [hvalid]), hdec]
    rfl
  case thr => exact congrArg Host.Outcome.next (if_neg (Nat.not_le.2 hlt))
  case test =>
    subst ht
    refine congrArg Host.Outcome.next ((if_pos hbit).trans ((if_neg (by simp [hinuse, hkept])).trans ?_))
    exact if_pos (Or.inl hstate)
  case leave =>
    subst ht
    exact congrArg Host.Outcome.next ((if_neg (Bool.eq_false_iff.1 hbit)).trans (if_pos hstate))
  case go =>
    subst hk
    subst hj
    subst ht
    refine congrArg Host.Outcome.next ((if_neg (by simp [hgo])).trans ((if_neg ?_).trans ?_))
    · subst hr
      exact tgGo_admitted (Bool.eq_false_iff.1 hbusy) hlo hhi hstate hlen hspan
    · subst hr
      rfl
  case abort => exact congrArg Host.Outcome.next (if_pos hbit)
  case runEnd =>
    refine congrArg Host.Outcome.next ?_
    rw [hrun]

/-- Settles O35: the position and its generators pass the guards of each command. -/
theorem cellarTest : Obligations.CellarTest := by
  refine ⟨fun p data s t u hbit huse hkept ht hstate hu => ?test, fun p data s hbit hstate => ?leave, fun p s hstate => ?init,
    fun p c data s t r hgo hbusy ht hr hlo hhi hstate hlen hspan => ?go, fun p c data done errs s hbit => ?abort,
    fun p c errs s r hrun => ?runEnd, fun v a s hlive hseconds harm => ?scrub, fun data s n hn hle => ?head⟩
  case test =>
    subst ht
    subst hu
    refine congrArg Host.Outcome.next ((if_pos hbit).trans ((if_neg (by simp [huse, hkept])).trans ?_))
    exact if_pos hstate
  case leave => exact congrArg Host.Outcome.next ((if_neg (Bool.eq_false_iff.1 hbit)).trans (if_pos hstate))
  case init => exact congrArg Host.Outcome.next (if_pos hstate)
  case go =>
    subst ht
    refine congrArg Host.Outcome.next ((if_neg (by simp [hgo])).trans ((if_neg ?_).trans ?_))
    · subst hr
      exact celTgGo_admitted (Bool.eq_false_iff.1 hbusy) hlo hhi hstate hlen hspan
    · subst hr
      rfl
  case abort => exact congrArg Host.Outcome.next (if_pos hbit)
  case runEnd =>
    refine congrArg Host.Outcome.next ?_
    rw [hrun]
  case scrub =>
    refine congrArg Host.Outcome.next ((if_neg (by simp [hlive, hseconds])).trans ?_)
    dsimp only
    rw [State.sliceInj_unarmed harm]
    rfl
  case head =>
    subst hn
    exact congrArg Host.Outcome.next (if_neg (Nat.not_lt.2 hle))

end Sys2Proof.Machine
end

section
/-! Translation: walks, fault rings, migration, shootdowns (13 R392 to R414). -/

namespace Sys2Proof.Machine

open Sys2Proof

set_option Elab.async false

/-- `t` differs from `s` in the walks, the translations and the cores only. -/
def Drops (s t : State) : Prop := t = { s with walks := t.walks, tlb := t.tlb, micro := t.micro, cores := t.cores }

namespace Drops

variable {s t u : State}

theorem refl (s : State) : Drops s s := rfl

theorem trans (h : Drops s t) (h' : Drops t u) : Drops s u := by
  unfold Drops at *
  rw [h']
  conv_lhs => rw [h]

theorem foldl {α : Type} {f : State → α → State} (hf : ∀ t a, Drops t (f t a)) (h : Drops s t) (l : List α) :
    Drops s (l.foldl f t) :=
  List.foldlRecOn (motive := Drops s) l f h fun _ ht a _ => ht.trans (hf _ a)

theorem updCore (h : Drops s t) (c : Nat) (f : CoreSt → CoreSt) : Drops s (t.updCore c f) := h.trans rfl

theorem updWalk (h : Drops s t) (p : Walk → Bool) (f : Walk → Walk) : Drops s (t.updWalk p f) := h.trans rfl

theorem tlbRemove (h : Drops s t) (v : Nat) (p : TlbEnt → Bool) : Drops s (t.tlbRemove v p) := h.trans rfl

theorem regs (h : Drops s t) : t.regs = s.regs := by rw [h]

theorem mem (h : Drops s t) : t.mem = s.mem := by rw [h]

end Drops

/-- An admitted shootdown (13 R410): `BUSY` is set, walks and translations of the range go, each vat marks its cut. -/
theorem exec_xltShoot {data : Dword} {s : State} (hbusy : s.bit XLT_SHOOT_STAT.BUSY = false) (hscope : bvBits data 54 2 ≠ 3) :
    ∃ t, Drops (s.setFld XLT_SHOOT_STAT.BUSY 1) t ∧ exec (.xltShoot data) s =
      .next { t with shoot := (s.vatsOf (bvBits data 48 6)).map (fun v => (v, t.outstanding v)) } := by
  refine ⟨_, ?_, congrArg Host.Outcome.next (if_neg (by simp [hbusy, hscope]))⟩
  refine Drops.foldl (fun t v => Drops.foldl (fun t k => ?_) ((Drops.refl t).tlbRemove _ _) _) ((Drops.refl _).updWalk _ _) _
  dsimp only
  split
  · exact Drops.refl t
  · exact (Drops.refl t).updCore _ _

/-- Settles O36: a free walker is the first one; every answer takes the branch that its entry names. -/
theorem walks : Obligations.Walks := by
  refine ⟨fun p vpage s test htest hany hfree hen => ?start, fun k d ue s w a hfind hstage hpte => ?level1,
    fun k d ue s t w a hfind hstage hpage => ?level2, fun k s hany => ?timeout,
    fun p vpage s t w big wr ga tgt hfind hstage ht => ?result, fun data s => rfl⟩
  case start =>
    subst htest
    have hwalker : (List.range 16).find? (fun k => !s.walks.any (fun w => w.onWalker k)) = some 0 :=
      List.find?_eq_some_iff_getElem.2 ⟨by simp [hfree 0 (by decide)], 0, by simp⟩
    refine congrArg Host.Outcome.next ((if_neg (by simp [hany])).trans ?_)
    rw [hwalker]
    exact congrArg State.xltWake (if_neg (by simp [hen]))
  case level1 =>
    refine congrArg Host.Outcome.next ?_
    simp only [hfind, hstage, hpte]
  case level2 =>
    refine congrArg Host.Outcome.next ?_
    simp only [hfind, hstage, hpage]
    rfl
  case timeout => exact congrArg Host.Outcome.next (if_pos hany)
  case result =>
    subst ht
    refine congrArg Host.Outcome.next ?_
    generalize hfound : s.walks.find? _ = found
    obtain rfl : found = some w := hfound.symm.trans hfind
    dsimp only
    rw [hstage]

/-- Settles O37: the pointers move within their rings; a shootdown changes what it drops and marks, and `BUSY`. -/
theorem translationUpkeep : Obligations.TranslationUpkeep := by
  refine ⟨fun p s r t hfirst htag hback => ?ack, fun p s r t hfirst htag => ?timeout, fun p data s hle => ?cons,
    fun p data s n hn hlo hhi => ?tail, fun s g gs t frame hmig hq ht hring hframe hmap => ?migrate,
    fun ls s t u g frame hmig ht hpeek hu => ?copied, fun data s hcanon hbusy hscope => ?shoot,
    fun v s e hfind hdone => ?drained, fun s hbusy hshoot => ?complete⟩
  case ack =>
    refine congrArg Host.Outcome.next ?_
    simp only [hfirst, htag]
    exact (if_neg (by simp)).trans (if_neg (by simp [hback]))
  case timeout =>
    refine congrArg Host.Outcome.next ?_
    simp only [hfirst, htag]
    rfl
  case cons => exact congrArg Host.Outcome.next (if_neg (Nat.not_lt.2 hle))
  case tail =>
    subst hn
    exact congrArg Host.Outcome.next (if_neg (not_or.2 ⟨Nat.not_lt.2 hlo, Nat.not_lt.2 hhi⟩))
  case migrate =>
    subst ht
    subst hframe
    refine congrArg Host.Outcome.next ?_
    simp only [hmig, hq]
    exact (if_neg hring).trans (if_neg (Bool.eq_false_iff.1 (congrArg not hmap)))
  case copied =>
    subst ht
    subst hu
    refine congrArg Host.Outcome.next ?_
    simp only [hmig]
    exact if_neg (not_not.2 hpeek)
  case shoot =>
    obtain ⟨t, hdrops, hnext⟩ := exec_xltShoot hbusy hscope
    refine ⟨_, hnext, ?_, hdrops.mem, ?_⟩
    · have hone : t.fld XLT_SHOOT_STAT.BUSY = 1 % 2 ^ XLT_SHOOT_STAT.BUSY.width :=
        (State.fld_of_regs hdrops.regs _ _ _ _).trans
          (State.fld_setFld_same (smWf_sorted (canon_iff.1 hcanon).2.1) _ (by decide) _ _ _ _)
      exact decide_eq_true (hone.trans_ne (by decide))
    · rw [List.map_map]
      exact List.map_id _
  case drained =>
    refine congrArg Host.Outcome.next ?_
    simp only [hfind]
    exact if_neg (Bool.eq_false_iff.1 hdone)
  case complete => exact congrArg Host.Outcome.next (if_pos ⟨hbusy, hshoot⟩)

end Sys2Proof.Machine
end

section
/-! The lanes of a port (14 R415 to R448). -/

namespace Sys2Proof.Machine

open Sys2Proof

set_option Elab.async false

/-- Settles O38: a frame without errors changes the counts, the buffer and the stream of its lane, step by step; the other
clauses take their branch. -/
theorem laneFrames : Obligations.LaneFrames := by
  refine ⟨fun p s hstate => ?idle, fun p s t x m j q acc sw hstate hx hsent hspread hsw ht => ?active,
    fun p j units e s t u hlock hlen hsyms hstuff hlo hhi hchk ht hu hstate hmask => ?receive, fun p j occ s hlock => ?filler,
    fun p j type comp second s hbad => congrArg Host.Outcome.next (if_pos hbad), fun p j hdr s hlock hhdr => ?hunt,
    fun p j hdr s hlock hhdr => ?slip, fun p j hdr s y z hlock hhdr hz hfew hheader => ?header⟩
  case idle =>
    refine congrArg Host.Outcome.next ((if_neg ?_).trans (if_pos hstate))
    omega
  case active =>
    subst hx
    subst hsw
    subst ht
    refine congrArg Host.Outcome.next ((if_pos hstate).trans ((if_neg (by simp [hsent])).trans ?_))
    dsimp only
    rw [hspread]
  case receive =>
    have htake (fill : List (BitVec 257)) : (units ++ fill).take 80 = units := by simp [hlen]
    have hfull : e.occ.val ≠ 16 := Nat.ne_of_lt hhi
    refine congrArg Host.Outcome.next ((if_neg (by simp [hlock])).trans ?_)
    rw [htake]
    extract_lets us full syms count bad sStuff sFull ins sIns x sOcc sFrames fixed sFixed lane code sQueue sChk
    have hcount (c : Nat) : count c = 0 := by simp [count, syms, hsyms]
    have hbad : bad = false := by simp [bad, full, hfull, hcount]
    have hins : ins = false := by simpa [ins] using hlo
    have hfixed : fixed = 0 := by simp [fixed, hcount, List.range_succ]
    have hsIns : sIns = t := by
      rw [ht, ← hstuff]
      exact (if_neg (by simp [hins])).trans (if_neg hfull)
    have hsFixed : sFixed = u := by
      simp only [sFixed, sFrames, sOcc, x, hsIns, hins, hbad, hfixed, full, hfull, hu]
      rfl
    have hsQueue : sQueue = u.setLn p j { u.ln p j with rxq := (u.ln p j).rxq ++ units.map (fun x => (x, false)) } := by
      simp only [sQueue, lane, us, hsFixed, hstate, hmask, hbad]
      rfl
    have hsChk : sChk = sQueue.setFld LNK_LN_PG.CHK_LOCK 0 p j := by simp only [sChk, hchk]
    rw [hsChk, hsQueue]
    exact if_neg (by simp [hbad])
  case filler => exact congrArg Host.Outcome.next (if_neg (by simp [hlock]))
  case hunt =>
    have hok : (hdr = 1 || hdr = 2) = true := by simpa using hhdr
    refine congrArg Host.Outcome.next ((if_pos (by simp [hlock])).trans ((if_neg (by rw [hok]; decide)).trans ?_))
    by_cases hlast : (s.ln p j).hunt < 63
    · exact (if_pos (by omega)).trans (if_pos hlast).symm
    · exact (if_neg (by omega)).trans (if_neg hlast).symm
  case slip =>
    have hok : (hdr = 1 || hdr = 2) = false := by rcases hhdr with rfl | rfl <;> decide
    exact congrArg Host.Outcome.next ((if_pos (by simp [hlock])).trans (if_pos (by rw [hok]; decide)))
  case header =>
    subst hz
    have hok : (hdr = 1 || hdr = 2) = true := by simpa using hhdr
    refine congrArg Host.Outcome.next ((if_neg (by simp [hlock])).trans ?_)
    extract_lets inv locked sInv
    have hinv : inv = (s.ln p j).inv <<< 1 := by
      simp only [inv]
      rw [if_pos hok]
      exact BitVec.or_zero
    have hsInv : sInv = s := if_neg (by rw [hok]; simp)
    rw [hsInv, hinv]
    refine (if_neg (Nat.not_le.2 hfew)).trans ?_
    rw [hheader]
    rfl

end Sys2Proof.Machine
end

section
/-! The bring-up and the low power of a port (14 R431 to R446). -/

namespace Sys2Proof.Machine

open Sys2Proof

set_option Elab.async false

/-- A fold whose steps each leave the state. -/
theorem foldl_of_fixed {α β : Type} {f : β → α → β} {b : β} {l : List α} (h : ∀ a ∈ l, f b a = b) : l.foldl f b = b := by
  induction l with
  | nil => rfl
  | cons a l ih =>
    rw [List.foldl_cons, h a List.mem_cons_self]
    exact ih fun x hx => h x (List.mem_cons_of_mem a hx)

/-- Writing a value does not change another key, in canonical form or not. -/
theorem smGet_smPut_ne {α : Type} {d : α} {m : List (Nat × α)} {i j : Nat} (h : j ≠ i) (x : α) :
    smGet d (smPut m i x) j = smGet d m j := by
  induction m with
  | nil => grind [smPut, smGet]
  | cons e m ih => grind [smPut, smGet]

/-- A field of a register that resets to 0, written with a value that fits and is not 0, leaves every other register alone, in
canonical form or not. -/
theorem State.reg_setFld_ne_of_pos {s : State} {f : Fld} {x i j k : Nat} (hreset : f.reg.reset = 0) (hfit : f.lo + f.width ≤ 64)
    (hpos : 0 < x) (hlt : x < 2 ^ f.width) {r : Reg} {i' j' k' : Nat} (hne : r.addr i' j' k' ≠ f.reg.addr i j k) :
    (s.setFld f x i j k).reg r i' j' k' = s.reg r i' j' k' := by
  have hlisted : putBits (s.reg f.reg i j k) f.lo f.width x ^^^ BitVec.ofNat 64 f.reg.reset ≠ 0 := by
    rw [hreset]
    intro hzero
    have hbits := bvBits_putBits (s.reg f.reg i j k) f.lo f.width x hfit
    rw [show putBits (s.reg f.reg i j k) f.lo f.width x = 0 by simpa using hzero, Nat.mod_eq_of_lt hlt] at hbits
    have hnone : bvBits (0 : Dword) f.lo f.width = 0 := by simp [bvBits, bitsOf]
    omega
  rw [State.reg, State.setFld, State.setReg, smSet, if_neg hlisted, smGet_smPut_ne hne]
  rfl

/-- A count of lost signals is not 0, so that it is listed, and every other register keeps its value. -/
theorem State.lnkInfo_bumpLos (s : State) (p : Nat) : (s.bumpErr LNK_ERR1.LOS p).lnkInfo p = s.lnkInfo p := by
  have hreg : (s.bumpErr LNK_ERR1.LOS p).reg LNK_STAT p = s.reg LNK_STAT p := by
    refine State.reg_setFld_ne_of_pos (f := LNK_ERR1.LOS) (i := p) (j := 0) (k := 0) rfl (by decide) ?_ ?_ ?_
    · exact Nat.lt_min.2 ⟨Nat.succ_pos _, by decide⟩
    · exact (Nat.min_le_right _ _).trans_lt (by decide)
    · simp only [Reg.addr, LNK_ERR1.LOS, LNK_ERR1, LNK_STAT]
      omega
  have hfld (f : Fld) (hf : f.reg = LNK_STAT) : (s.bumpErr LNK_ERR1.LOS p).fld f p = s.fld f p := by
    rw [State.fld, State.fld, hf, hreg]
  rw [State.lnkInfo, State.lnkInfo, State.portState, State.portState, hfld LNK_STAT.STATE rfl, hfld LNK_STAT.LANES rfl]

/-- Settles O39: no lane calibrates, so that `DETECT` changes none; a marker in place ends its lane's training; the rest takes
its branch. -/
theorem laneBringUp : Obligations.LaneBringUp := by
  refine ⟨fun g s t ht => ?lost, fun g s t ht hon => ?present, fun g s => rfl, fun p s hstate hon href hloaded hfault => ?start,
    fun p s => rfl, fun p j trim s t hcal ht => ?calDone, fun p s hcal hstate => ?calGo, fun p lanes s hstate hlanes hcal => ?detect,
    fun p j payload sent inverted s t u hstate hlane hb0 hb1 hb3 hsent ht hu => ?marker, fun p s hstate hdone => ?trained,
    fun p s hcases => ?failed, fun p j rec s hstate hcap hcapn => ?capx, fun p j s hstate => congrArg Host.Outcome.next (if_pos hstate),
    fun p boundary s t hstate hlanes ht => ?loss⟩
  case lost =>
    subst ht
    rfl
  case present =>
    subst ht
    exact congrArg Host.Outcome.next (if_pos hon)
  case start =>
    refine congrArg Host.Outcome.next ((if_neg (by simp [hstate, hon, href])).trans ?_)
    exact congrArg (fun t : State => t.portCal p) (if_pos ⟨hloaded, by simp [hfault]⟩)
  case calDone =>
    subst ht
    exact congrArg Host.Outcome.next (if_neg (by simp [hcal]))
  case calGo => exact congrArg Host.Outcome.next ((if_neg (Bool.eq_false_iff.1 hcal)).trans (if_pos hstate))
  case detect =>
    refine congrArg Host.Outcome.next ((if_neg (not_or.2 ⟨not_not.2 hstate, hlanes⟩)).trans ?_)
    dsimp only
    rw [foldl_of_fixed fun j hj => if_neg (by simp [hcal j (List.mem_range.1 hj)])]
  case marker =>
    have hsum : bvBits payload 0 8 + bvBits payload 8 8 = 255 := by omega
    refine congrArg Host.Outcome.next ((if_neg ?_).trans ((if_neg (not_not.2 hb0)).trans ?_))
    · exact not_or.2 ⟨not_not.2 hstate, not_or.2 ⟨by simp [hlane], not_not.2 hsum⟩⟩
    · extract_lets sPol lane ready sReady sDone
      have hready : ready = true := (congrArg (lane.ready || ·) (decide_eq_true hb3)).trans (Bool.or_true _)
      have hu' : sDone = u := by
        simp only [sDone, sReady, lane, hready, sPol, hu, ht]
      rw [if_pos ⟨hready, hsent⟩, hu']
  case trained =>
    refine congrArg Host.Outcome.next ?_
    simp only [hstate]
    exact if_neg hdone
  case failed =>
    refine congrArg Host.Outcome.next ?_
    rcases hcases with hstate | ⟨hstate, hdone⟩ | ⟨hstate, hlocked⟩
    · simp only [hstate]
    · simp only [hstate]
      exact if_pos hdone
    · simp only [hstate]
      exact if_pos hlocked
  case capx =>
    refine congrArg Host.Outcome.next ((if_neg (not_not.2 hstate)).trans ?_)
    dsimp only
    simp [hcap, hcapn]
  case loss =>
    subst ht
    rw [State.lnkInfo_bumpLos]
    have hlane (j : Nat) (hj : j ∈ (List.range 8).filter (fun j => (s.fld LNK_STAT.LANES p).testBit j)) :=
      hlanes j (List.mem_range.1 (List.mem_filter.1 hj).1) (List.mem_filter.1 hj).2
    have hlost : ((List.range 8).filter (fun j => (s.fld LNK_STAT.LANES p).testBit j)).all
        (fun j => !s.bit LNK_LN_STAT.FRAME_LOCK p j) = true :=
      List.all_eq_true.2 fun j hj => by rw [(hlane j hj).2]; rfl
    have hentered : ((List.range 8).filter (fun j => (s.fld LNK_STAT.LANES p).testBit j)).any
        (fun j => (s.ln p j).enter.isSome) = false :=
      List.any_eq_false.2 fun j hj => by rw [(hlane j hj).1]; decide
    refine congrArg Host.Outcome.next ((if_neg (by rw [hlost]; decide)).trans ((if_pos ⟨hstate, by rw [hentered]; rfl⟩).trans ?_))
    exact if_neg (by simp)

/-- The `ENTER` on the last lane of a port that is not narrowing (14 R439): the end that has not sent its own sends it, shallow
when it holds traffic. -/
theorem State.enterBlock_last {s : State} {p j : Nat} {shallow : Bool} (hstate : s.portState p = 6)
    (hmask : (s.port p).rxMask.getLsbD j = true) (hagreed : (s.port p).agreed = none)
    (hall : ∀ i < 8, (s.port p).rxMask.getLsbD i = true →
      ((s.setLn p j { s.ln p j with enter := some shallow }).ln p i).enter.isSome = true) :
    s.enterBlock p j shallow =
      if (s.port p).sent.isSome then (s.setLn p j { s.ln p j with enter := some shallow }).lowPower p
      else
        let own := ((s.port p).replay ≠ [] || (s.port p).pkts ≠ [] || (s.port p).txq ≠ []) || shallow
        (((s.setLn p j { s.ln p j with enter := some shallow }).setPort p { s.port p with sent := some own }).laneBlock p
          (if own then 2 else 3) (s.port p).txMask).lowPower p := by
  have hentered : (List.range 8).all (fun i => !(s.port p).rxMask.getLsbD i ||
      ((s.setLn p j { s.ln p j with enter := some shallow }).ln p i).enter.isSome) = true :=
    List.all_eq_true.2 fun i hi => by
      cases hi' : (s.port p).rxMask.getLsbD i with
      | false => rfl
      | true => exact hall i (List.mem_range.1 hi) hi'
  unfold State.enterBlock
  refine (if_neg (not_not.2 hstate)).trans ((if_neg (by simp [hmask, hagreed])).trans ?_)
  exact if_neg (by rw [hentered]; decide)

/-- Settles O40: the last `ENTER` of a port sends this end's own; the other requests pass their guards. -/
theorem laneLowPower : Obligations.LaneLowPower := by
  refine ⟨fun p j s t hstate hmask hagreed ht hall => ?shallow, fun p j s t hstate hmask hagreed ht hall => ?deep,
    fun p s hstate hsent => ⟨?reqShallow, ?reqDeep⟩, fun p s t hstate ht => ⟨?reqWake, ?wake⟩,
    fun p s hstate => congrArg Host.Outcome.next (if_pos hstate), fun p loop s t ht => ?loop,
    fun p j data s t ht hgo heye hok hthree hlo hhi => ?scan, fun p j data smp err n s t ht habort heye hle => ?abort,
    fun p j err n s heye => ?scanned⟩
  case shallow =>
    subst ht
    refine congrArg Host.Outcome.next ((State.enterBlock_last hstate hmask hagreed hall).trans ?_)
    rw [Bool.or_true]
    rfl
  case deep =>
    subst ht
    refine congrArg Host.Outcome.next ((State.enterBlock_last hstate hmask hagreed hall).trans ?_)
    rw [Bool.or_false]
  case reqShallow => exact congrArg Host.Outcome.next (if_neg (by simp [hstate, hsent]))
  case reqDeep => exact congrArg Host.Outcome.next (if_neg (by simp [hstate, hsent]))
  case reqWake =>
    subst ht
    exact congrArg Host.Outcome.next (if_pos hstate)
  case wake =>
    subst ht
    exact congrArg Host.Outcome.next ((if_neg (by omega)).trans (if_pos hstate))
  case loop =>
    subst ht
    rfl
  case scan =>
    subst ht
    refine congrArg Host.Outcome.next ((if_neg (by simpa using hgo)).trans (if_neg ?_))
    rintro (h | h | h | h | h)
    · exact absurd (heye ▸ h) (by simp)
    · exact absurd (hok ▸ h) (by simp)
    · exact hthree h
    · exact absurd h (Nat.not_lt.2 hlo)
    · exact absurd h (Nat.not_lt.2 hhi)
  case abort =>
    subst ht
    refine congrArg Host.Outcome.next ((if_pos habort).trans ?_)
    unfold State.eyeAbort
    have heye' : ((s.eyeCtl p j data).ln p j).eye = some n := heye
    simp only [heye', Nat.min_eq_left hle]
    rfl
  case scanned =>
    refine congrArg Host.Outcome.next ?_
    simp only [heye]

end Sys2Proof.Machine
end

section
/-! The data and control units of a port, its width, hold and retrain (15 R449 to R463). -/

namespace Sys2Proof.Machine
open Sys2Proof
set_option Elab.async false

/-- In `ACTIVE` a control unit that meets its command's condition is taken and acted on (15 R454). -/
theorem State.onControl_taken {s : State} {p : Nat} {u : BitVec 257} {is : BitVec 257 → Bool} (act : State → State)
    (hnext : s.nextUnit p = some (u, false)) (hactive : s.portState p = 6) (hcontrol : u.getLsbD 256 = true)
    (his : is u = true) : s.onControl p is act = act (s.takeUnit p) := by
  rw [State.onControl, hnext]
  exact if_pos ⟨hactive, hcontrol, his⟩

/-- What 15 R460 asks of a mask that an end proposes. -/
theorem State.maskOk_of_subset {s : State} {p : Nat} {m : BitVec 8} (hne : m ≠ 0) (hsub : m &&& (s.port p).txMask = m)
    (hwidth : s.fld LNK_FAB_CTL.MIN_W p ≤ laneCount m) : s.maskOk p m = true := by
  simp only [State.maskOk, Bool.and_eq_true, decide_eq_true_eq]
  exact ⟨⟨hne, hsub⟩, hwidth⟩

/-- Settles O41. A unit at the front of the port's stream meets its command's condition, so that the command takes the unit
and its clause of 15 R454 to R463 follows from what the port then holds. -/
theorem linkUnits : Obligations.LinkUnits := by
  refine ⟨fun p bits s t x us k n hnext hactive ht hx hkeep hseq hus hk hvc hheld hn hlen => ?part,
    fun p bits s t x us k n hnext hactive ht hx hkeep hseq hus hk hvc hheld hn hlen => ?whole,
    fun p seq u s t x d hnext hactive hctl hkind ht hx hsent hd hpos hle => ?ack,
    fun p seq u s t x d hnext hactive hctl hkind ht hx hsent hd hle => ?nack,
    fun p seq u s t hnext hactive hctl hkind ht hnear => ?replay,
    fun p pool count u s t hnext hactive hctl hkind ht hpool => ?credit,
    fun p u s hnext hactive hctl hkind => ?idle,
    fun p bits u s hnext hactive hctl hbits hkind => ?reserved,
    fun p s t hactive hreplay ht => ?timeout,
    fun p mask u s t hnext hactive hctl hkind hmask ht hagreed hok hprop => ?wreq,
    fun p mask u s t hnext hactive hctl hkind hmask ht hprop => ?wack,
    fun p mask u s t hnext hactive hctl hkind ht hagreed => ?wsw,
    fun p mask s hactive hprop => ?resend,
    fun p mask s hactive hprop hagreed hne hsub hwidth => ?wmask,
    fun p s hheld hhold => ?timer,
    fun p s hheld => congrArg Host.Outcome.next (if_pos hheld),
    fun p s => rfl,
    fun p s hactive => congrArg Host.Outcome.next (if_pos hactive)⟩
  case part =>
    subst ht hx hus hk hn
    change execLinkDataUnitReceive _ _ _ _ = _
    rw [execLinkDataUnitReceive, hnext]
    refine congrArg Host.Outcome.next ((if_neg (by simp [hactive])).trans ?_)
    refine (if_neg (by simp [hkeep])).trans ((if_neg Bool.false_ne_true).trans ((if_neg (not_not.2 hseq)).trans ?_))
    refine (if_neg fun h => absurd h.2 (Nat.not_le.2 hheld)).trans ?_
    simp only [if_pos hvc, if_neg hlen]
  case whole =>
    subst ht hx hus hk hn
    change execLinkDataUnitReceive _ _ _ _ = _
    rw [execLinkDataUnitReceive, hnext]
    refine congrArg Host.Outcome.next ((if_neg (by simp [hactive])).trans ?_)
    refine (if_neg (by simp [hkeep])).trans ((if_neg Bool.false_ne_true).trans ((if_neg (not_not.2 hseq)).trans ?_))
    refine (if_neg fun h => absurd h.2 (Nat.not_le.2 hheld)).trans ?_
    simp only [if_pos hvc, if_pos hlen]
  case ack =>
    subst ht hx hd
    refine congrArg Host.Outcome.next ((State.onControl_taken _ hnext hactive hctl hkind).trans ?_)
    exact (if_neg (Bool.eq_false_iff.1 hsent)).trans (if_neg (by omega))
  case nack =>
    subst ht hx hd
    refine congrArg Host.Outcome.next ((State.onControl_taken _ hnext hactive hctl hkind).trans ?_)
    exact (if_neg (Bool.eq_false_iff.1 hsent)).trans (if_neg (Nat.not_lt.2 hle))
  case replay =>
    subst ht
    exact congrArg Host.Outcome.next ((State.onControl_taken _ hnext hactive hctl hkind).trans (if_pos hnear))
  case credit =>
    subst ht
    exact congrArg Host.Outcome.next ((State.onControl_taken _ hnext hactive hctl hkind).trans (if_neg (Nat.not_le.2 hpool)))
  case idle =>
    exact congrArg Host.Outcome.next (State.onControl_taken _ hnext hactive hctl (decide_eq_true hkind))
  case reserved =>
    exact congrArg Host.Outcome.next (State.onControl_taken _ hnext hactive hctl (by simpa [hbits] using hkind))
  case timeout =>
    subst ht
    exact congrArg Host.Outcome.next (if_neg (not_or.2 ⟨not_not.2 hactive, hreplay⟩))
  case wreq =>
    subst ht
    refine congrArg Host.Outcome.next ((State.onControl_taken _ hnext hactive hctl (by simp [hkind, hmask])).trans ?_)
    dsimp only
    rw [hagreed]
    refine (if_neg (by simp [hok])).trans (if_neg fun h => ?_)
    rcases hprop with hnone | hsome
    · simp [hnone] at h
    · simp [hsome] at h
  case wack =>
    subst ht
    refine congrArg Host.Outcome.next ((State.onControl_taken _ hnext hactive hctl (by simp [hkind, hmask])).trans ?_)
    exact if_pos hprop
  case wsw =>
    subst ht
    refine congrArg Host.Outcome.next ((State.onControl_taken _ hnext hactive hctl (decide_eq_true hkind)).trans ?_)
    dsimp only
    rw [hagreed]
  case resend =>
    change execWreqResendTimeout _ _ = _
    rw [execWreqResendTimeout, hprop]
    exact congrArg Host.Outcome.next (if_pos hactive)
  case wmask =>
    have hok := State.maskOk_of_subset hne hsub hwidth
    exact congrArg Host.Outcome.next (if_neg (by simp [hactive, hprop, hagreed, hok]))
  case timer => exact congrArg Host.Outcome.next (if_pos ⟨hheld, hhold⟩)

end Sys2Proof.Machine
end

section
/-! Packets that a link delivers, requests of other devices, routes (15 R453, R463 to R480). -/

namespace Sys2Proof.Machine
open Sys2Proof
set_option Elab.async false

/-- A route's link bits are among the bits that a route entry keeps. -/
theorem routeWord_masked (data : Dword) : data &&& 0x1FFFFFFFFFFFF &&& 0xFFFFFFFFFFFF = data &&& 0xFFFFFFFFFFFF := by
  rw [BitVec.and_assoc]
  rfl

/-- A request of a partition or of a device as a whole, while the fabric serves requests, reaches the check of its lines
(15 R471). -/
theorem exec_remoteRequest_checked {src : BitVec 14} {txn : BitVec 16} {q : Nat} {k : Pkt} {s t : State}
    (hfind : s.remq.find? (fun e => e.2.src = src.toNat) = some (q, k)) (htxn : k.txn = txn.toNat)
    (ht : t = { s with remq := s.remq.erase (q, k) }) (hfatal : t.fatal = false) (hpart : k.spart ≤ 64)
    (hreload : t.reloading = none) (htype : k.type ≠ 9) :
    exec (.remoteRequest src txn) s = .next (
      if !k.lines.all (fun l => t.remAdmit k.spart l.1) then (t.lnkRecord 0x39 q (k.src + k.spart * 2 ^ 14)).respondErr k 2
      else if k.type = 3 ∧ 9 < k.aop then t.respondErr k 3
      else t.remServe k) := by
  subst ht
  change execRemoteRequest _ _ _ = _
  rw [execRemoteRequest, hfind]
  refine congrArg Host.Outcome.next ((if_neg (not_not.2 htxn)).trans ?_)
  refine (if_neg (Bool.eq_false_iff.1 hfatal)).trans ((if_neg (Nat.not_lt.2 hpart)).trans ?_)
  refine (if_neg fun h => ?_).trans (if_neg htype)
  rw [hreload] at h
  exact absurd h.1 Bool.false_ne_true

/-- Settles O42. A delivered packet, a request and a slot are found as the hypotheses say, and the branch of 15 R463 to R474
that they leave is the clause; a route's masks are nested. -/
theorem fabricPackets : Obligations.FabricPackets := by
  refine ⟨fun p vc g n q x k s t hg hx hn hfind ht huse husable hform => ?receive,
    fun src txn q k s t hfind htxn ht hfatal hpart hreload htype hadmit => ?serve,
    fun src txn q k s t hfind htxn ht hfatal hpart hreload htype hadmit => ?deny,
    fun txn e a tag s hfind hsrc => ?timeout,
    fun dev data s => ?route⟩
  case receive =>
    subst hg hx hn ht
    change execFabricPacketReceive _ _ _ = _
    simp only [execFabricPacketReceive]
    rw [hfind]
    refine congrArg Host.Outcome.next ((if_neg huse).trans ?_)
    rw [if_pos husable, hform]
    exact if_neg Bool.false_ne_true
  case serve =>
    rw [exec_remoteRequest_checked hfind htxn ht hfatal hpart hreload (by omega)]
    exact congrArg Host.Outcome.next ((if_neg (by simp [hadmit])).trans (if_neg (by omega)))
  case deny =>
    rw [exec_remoteRequest_checked hfind htxn ht hfatal hpart hreload (by omega)]
    exact congrArg Host.Outcome.next (if_pos (congrArg not hadmit))
  case timeout =>
    change execLinkRequestSlotTimeout _ _ = _
    simp only [execLinkRequestSlotTimeout, hfind, hsrc]
  case route =>
    change Host.Outcome.next _ = _
    rw [routeWord_masked]

end Sys2Proof.Machine
end

section
/-! Face sites: packets of a guest, control beats of a slice, the states of a site (16 R485 to R500, 18 R543). -/

namespace Sys2Proof.Machine
open Sys2Proof
set_option Elab.async false

/-! ### Requests of a guest (16 R490 to R492) -/

/-- A request whose every line has the right to go to its home is served (16 R492). -/
theorem State.faceGo_admitted {s : State} {n sl : Nat} {h : BitVec 128} {ls : List (Dword × MemOp)} {write : Bool}
    (reg : Nat → State → State) (hgo : ∀ l ∈ ls, s.faceWay n l.1 write = .go) :
    s.faceGo n sl h ls write reg = s.faceServe n sl h ls := by
  have hways : ls.map (fun l => s.faceWay n l.1 write) = List.replicate ls.length .go := by
    rw [List.map_congr_left hgo, List.map_const']
  have hother : ∀ w, w ≠ FaceWay.go → ¬ (List.replicate ls.length FaceWay.go).contains w = true := fun w hw h =>
    hw (List.eq_of_mem_replicate (List.contains_iff_mem.1 h))
  have hall : (List.replicate ls.length FaceWay.go).all (fun w => w = .go) = true :=
    List.all_eq_true.2 fun w hw => decide_eq_true (List.eq_of_mem_replicate hw)
  rw [State.faceGo, hways]
  refine (if_neg (hother _ (by decide))).trans ((if_neg (hother _ (by decide))).trans ((if_neg (hother _ (by decide))).trans ?_))
  split
  case h_1 off hreg => exact absurd (List.eq_of_mem_replicate (hreg ▸ List.mem_singleton_self _)) (by simp)
  case h_2 => exact if_pos hall

/-- Settles O43. A packet in sequence within its credit is accepted; a request that is taken and admitted is served by
`faceGo_admitted`; a reply that leaves lines open keeps its request, the last one answers it. -/
theorem faceRequests : Obligations.FaceRequests := by
  refine ⟨fun n sl beats s t y vc hactive htrained ht hstill hy hkeep hok hseq hvc hroom0 hroom2 => ?receive,
    fun n sl k h ls s t htake hh hord hls hgo => ?read,
    fun n sl k h ls s t htake hh hls hgo => ?write,
    fun n sl k h ls s t htake hh hls hgo => ?masked,
    fun n sl k h s t htake hh hgo => ?atomic,
    fun n sl k ks x s t hstate hqueue ht hx hpart hsame => ?doorbell,
    fun n tag d s t e ht hfind hlast => ?last,
    fun n tag s t e ht hfind hmore => ?more⟩
  case receive =>
    subst ht hy hvc
    refine congrArg Host.Outcome.next ((if_neg (not_not.2 hactive)).trans ((if_neg (by omega)).trans ?_))
    refine (if_neg (by simp [State.faceShort, hstill, hkeep])).trans ((if_neg (by simp [hok])).trans ?_)
    refine (if_neg (not_not.2 hseq)).trans (if_neg ?_)
    rw [List.length_map]
    rintro (⟨h0, hfull⟩ | ⟨h2, hfull⟩)
    · exact absurd hfull (Nat.not_lt.2 (hroom0 h0))
    · exact absurd hfull (Nat.not_lt.2 (hroom2 h2))
  case read =>
    subst hh hls
    change execFaceRead _ _ _ = _
    rw [execFaceRead, htake]
    refine congrArg Host.Outcome.next ((if_neg ?_).trans (State.faceGo_admitted _ hgo))
    rintro ⟨hordered, hopen⟩
    rw [hord hordered] at hopen
    exact absurd hopen Bool.false_ne_true
  case write =>
    subst hh hls
    change execFaceWrite _ _ _ = _
    rw [execFaceWrite, htake]
    exact congrArg Host.Outcome.next (State.faceGo_admitted _ hgo)
  case masked =>
    subst hh hls
    change execFaceWriteMasked _ _ _ = _
    rw [execFaceWriteMasked, htake]
    exact congrArg Host.Outcome.next (State.faceGo_admitted _ hgo)
  case atomic =>
    subst hh
    change execFaceAtomic _ _ _ = _
    rw [execFaceAtomic, htake]
    exact congrArg Host.Outcome.next (State.faceGo_admitted _ (List.forall_mem_singleton.2 hgo))
  case doorbell =>
    subst ht hx
    change execFaceDoorbell _ _ _ = _
    simp only [execFaceDoorbell, hqueue]
    exact congrArg Host.Outcome.next ((if_neg (by omega)).trans (if_pos ⟨hpart, hsame⟩))
  case last =>
    subst ht
    change execFaceReplyReturn _ _ _ _ = _
    simp only [execFaceReplyReturn, hfind]
    refine congrArg Host.Outcome.next ((if_neg (by simp [hlast])).trans ?_)
    simp [hlast]
  case more =>
    subst ht
    change execFaceReplyReturn _ _ _ _ = _
    simp only [execFaceReplyReturn, hfind]
    refine congrArg Host.Outcome.next ((if_pos hmore).trans ?_)
    simp

/-! ### Control beats (16 R486, R487, R495) -/

/-- A control beat on a trained slice of a site that carries packets or is held acts on the state that counts it. -/
theorem State.faceRun_trained {s : State} {n sl : Nat} (act : State → State) (hstate : s.siteState n = 4 ∨ s.siteState n = 5)
    (htrained : s.fld FACE_CAP.TRAINED n / 2 ^ sl % 2 = 1) (hstill : (s.bump FACE_PC_RXB n).siteState n ≠ 3) :
    s.faceRun n sl act = act (s.bump FACE_PC_RXB n) :=
  (if_pos ⟨.inr hstate, htrained⟩).trans (if_neg hstill)

/-- Settles O44. A control beat reaches a trained slice, whose numbers decide what the beat does (16 R486, R495). -/
theorem faceControl : Obligations.FaceControl := by
  refine ⟨fun n sl seq s t y hstate htrained ht hstill hy hseq hin => ?ack,
    fun n sl seq s t y hstate htrained ht hstill hy hseq hin => ?nack,
    fun n sl seq s t y hstate htrained ht hstill hy hnear => ?replay,
    fun n sl count s t hstate htrained ht hstill => ?credit,
    fun n sl depth s t u hstate htrained ht hstill hdepth hu => ?cap,
    fun n sl ctype s hstate htrained hreserved => ?reserved,
    fun n sl s hstate hreplay => congrArg Host.Outcome.next (if_pos ⟨hstate, hreplay⟩),
    fun n s hon => congrArg Host.Outcome.next (if_neg hon),
    fun n sl s hstate htrained => ?trained,
    fun n sl k ks s hactive hresp hroom => ?stall⟩
  case ack =>
    subst ht hy
    refine congrArg Host.Outcome.next ((State.faceRun_trained _ hstate htrained hstill).trans ?_)
    refine (if_neg fun h => ?_).trans (if_neg (Nat.not_lt.2 hin))
    rcases hseq with hbehind | hnext
    · exact absurd h.1 (Bool.eq_false_iff.1 hbehind)
    · exact h.2 hnext
  case nack =>
    subst ht hy
    refine congrArg Host.Outcome.next ((State.faceRun_trained _ hstate htrained hstill).trans ?_)
    exact (if_neg (Bool.eq_false_iff.1 hseq)).trans (if_neg (Nat.not_lt.2 hin))
  case replay =>
    subst ht hy
    exact congrArg Host.Outcome.next ((State.faceRun_trained _ hstate htrained hstill).trans (if_pos hnear))
  case credit =>
    subst ht
    exact congrArg Host.Outcome.next ((State.faceRun_trained _ hstate htrained hstill).trans (if_pos rfl))
  case cap =>
    subst ht hu
    refine congrArg Host.Outcome.next ((if_pos ⟨.inl hstate, htrained⟩).trans (if_neg ?_))
    simp only [hstill]
    simp
    omega
  case reserved =>
    exact congrArg Host.Outcome.next ((if_pos hreserved).trans (if_pos ⟨hstate, htrained⟩))
  case trained => exact congrArg Host.Outcome.next (if_neg (by omega))
  case stall =>
    change execFaceStallTimeout _ _ _ = _
    simp only [execFaceStallTimeout, hresp]
    exact congrArg Host.Outcome.next (if_pos ⟨hactive, hroom⟩)

/-! ### States of a site (16 R494, R496) -/

/-- Settles O45. The state of the site that a clause names picks the transition of 16 R494 and 18 R543. -/
theorem faceStates : Obligations.FaceStates := by
  refine ⟨fun n s t hoff hocc hdom ht => ?start,
    fun n s hon => congrArg Host.Outcome.next (if_neg hon),
    fun n s hactive => congrArg Host.Outcome.next (if_neg (not_not.2 hactive)),
    fun n s hheld => congrArg Host.Outcome.next (if_neg (not_not.2 hheld)),
    fun n good s t hocc ht => ?rise,
    fun n s t hocc ht => ?fall,
    fun n s hpower => congrArg Host.Outcome.next (if_pos hpower),
    fun n s hreset => congrArg Host.Outcome.next (if_pos hreset),
    fun n s t htrain ht => ?train,
    fun n s hocc => ⟨?alarm, ?deassert⟩,
    fun n amps s hon => ⟨congrArg Host.Outcome.next (if_neg hon), congrArg Host.Outcome.next (if_neg hon),
      congrArg Host.Outcome.next (if_neg hon)⟩⟩
  case start =>
    subst ht
    exact congrArg Host.Outcome.next (if_neg (by simp [hoff, hocc, hdom]))
  case rise =>
    subst ht
    exact congrArg Host.Outcome.next (if_neg (by simp [hocc]))
  case fall =>
    subst ht
    exact congrArg Host.Outcome.next (if_neg (by simp [hocc]))
  case train =>
    subst ht
    refine congrArg Host.Outcome.next ((if_neg (not_not.2 htrain)).trans ?_)
    simp only [Nat.add_lt_add_iff_right (k := 1) (m := 3)]
  case alarm => exact congrArg Host.Outcome.next (if_neg (by simp [hocc]))
  case deassert => exact congrArg Host.Outcome.next (if_neg (by simp [hocc]))

end Sys2Proof.Machine
end

section
/-! Command rings, the commands of a ring, and the host's link (16 R502 to R524, 20 R606, 21 R631, 03 R94). -/

namespace Sys2Proof.Machine
open Sys2Proof
set_option Elab.async false

/-! ### Staging, commit, completion ring (16 R506 to R511) -/

/-- The last word of an item whose seven others are staged commits it (16 R506). -/
theorem State.ringW7_staged {s : State} {r : Nat} {who : Option Nat} {data : Dword} (hkeep : s.bit CMD_STAT.DISCARD r = false)
    (hlen : (s.ring r).stg.length = 7) : s.ringW7 r who data = s.ringCommit r who ((s.ring r).stg ++ [data]) :=
  if_neg (by simp [hkeep, hlen])

/-- An item with a reserved opcode is malformed, which comes before every other outcome (16 R507). -/
theorem State.commitStatus_reserved {s : State} {r : Nat} {who : Option Nat} {ws : List Dword}
    (hop : bvBits (ws.getD 0 0) 0 8 = 0 ∨ 9 < bvBits (ws.getD 0 0) 0 8) : s.commitStatus r who ws = 3 := by
  refine if_pos ?_
  simp only [itemMalformed, Bool.or_eq_true, decide_eq_true_eq]
  exact .inl (.inl (.inl (.inl hop)))

/-- Nothing waits for the management core, so a flush ends only what the ring itself holds (16 R511). -/
theorem State.ringFlush_unstaged {s : State} {r : Nat} (hstg : (s.ring r).stg = []) (hqueue : s.mcQueue = []) :
    s.ringFlush r = ((s.ring r).items.map (fun i => (i.handle, bvBits (i.words.getD 0 0) 0 8))).foldl
      (fun s e => s.ringDone e.1 e.2 1 0) (s.setRing r { s.ring r with items := [] }) := by
  have hsame : { s with mcQueue := [] } = s := by rw [← hqueue]
  simp only [State.ringFlush, if_pos hstg, hqueue, List.filter_nil, List.filterMap_nil, List.nil_append]
  rw [hsame]

/-- The end of a read-back writes the pointer that it covers (16 R509). -/
theorem State.ringBacked_waiting {s : State} {r n : Nat} {t : Option Nat} (hrb : (s.ring r).rb = some (t, n)) :
    s.ringBacked r = (fun (u : State) => ((u.ringPut r (u.fld CQ_BASE.OFFSET r * 4096) 4 n).setFld CQ_PROD.PROD n r).ringBack r)
      (s.setRing r { s.ring r with rb := none }) := by
  simp only [State.ringBacked, hrb]

/-- Settles O46. Each write meets the staging area, the pointers or the enable bit as its clause says (16 R506 to R511). -/
theorem ringStaging : Obligations.RingStaging := by
  refine ⟨fun r data s hstg => ?first,
    fun r i data s hkeep hlen => ?word,
    fun r who data h ws s t hkeep hlen hws hstatus hh ht => ?commit,
    fun r who data op s hkeep hlen hop hreserved => ?opcode,
    fun r t n s u hrb hu => ?readback,
    fun r data s hle => congrArg Host.Outcome.next (if_neg (Nat.not_lt.2 hle)),
    fun r s hstg hitems hqueue => ?flushNone,
    fun r i s t hstg hitems hqueue ht => ?flushOne,
    fun r data s t u hoff hlow hhigh ht hon hstarted hu => ?enable,
    fun r data s hen hoff => ?disable⟩
  case first =>
    change execCmdW0Write _ _ _ = _
    simp only [execCmdW0Write, if_pos hstg]
  case word => exact congrArg Host.Outcome.next (if_neg (by simp [hkeep, hlen]))
  case commit =>
    subst hws hh ht
    refine congrArg Host.Outcome.next ((State.ringW7_staged hkeep hlen).trans ?_)
    simp only [State.ringCommit, hstatus]
    exact if_neg (not_not.2 rfl)
  case opcode =>
    subst hop
    refine congrArg Host.Outcome.next ((if_pos hreserved).trans ((State.ringW7_staged hkeep hlen).trans ?_))
    have hhead : ((s.ring r).stg ++ [data]).getD 0 0 = (s.ring r).stg.getD 0 0 :=
      List.getD_append _ _ _ _ (by omega)
    have hstatus : s.commitStatus r (who.map (fun n => n.val)) ((s.ring r).stg ++ [data]) = 3 :=
      State.commitStatus_reserved (by rw [hhead]; exact hreserved)
    simp only [State.ringCommit, hstatus]
    exact if_pos (by decide)
  case readback =>
    subst hu
    change execCqRecordReadback _ _ = _
    simp only [execCqRecordReadback, hrb]
    exact congrArg Host.Outcome.next (State.ringBacked_waiting hrb)
  case flushNone =>
    refine congrArg Host.Outcome.next ((State.ringFlush_unstaged hstg hqueue).trans ?_)
    rw [hitems]
    rfl
  case flushOne =>
    subst ht
    refine congrArg Host.Outcome.next ((State.ringFlush_unstaged hstg hqueue).trans ?_)
    rw [hitems]
    rfl
  case enable =>
    subst ht hu
    change execRingEnableWrite _ _ _ = _
    simp only [execRingEnableWrite]
    rw [if_pos (show (!s.bit RING_CTL.EN r) = true ∧ _ from ⟨congrArg not hoff, hlow, hhigh⟩)]
    simp [-BitVec.getLsbD_eq_getElem, hoff, hon, hstarted]
  case disable =>
    change execRingEnableWrite _ _ _ = _
    simp only [execRingEnableWrite]
    rw [if_neg (show ¬ ((!s.bit RING_CTL.EN r) = true ∧ _) from fun h => by simp [hen] at h)]
    simp [-BitVec.getLsbD_eq_getElem, hoff]

/-! ### The commands of a ring (16 R508, R514) -/

/-- With no operation running or waiting, one that the management core accepts starts at once (03 R94). -/
theorem State.mcAccept_idle {s : State} (o : McOp) (hrun : s.mcRun = none) (hqueue : s.mcQueue = []) :
    s.mcAccept o = s.mcStart o := by
  rw [State.mcAccept]
  exact if_neg (by simp [hrun, hqueue])

/-- Behind an operation that runs or waits, an accepted one waits (03 R94). -/
theorem State.mcAccept_busy {s : State} (o : McOp) (hbusy : s.mcRun.isSome = true ∨ s.mcQueue ≠ []) :
    s.mcAccept o = { s with mcQueue := s.mcQueue ++ [o] } := if_pos hbusy

/-- Settles O47. The item at the ring's front is taken by its opcode; it then runs, or waits for the management core, as the
hypotheses of its clause decide (16 R508). -/
theorem ringCommands : Obligations.RingCommands := by
  refine ⟨fun r i s t htake => ?nop,
    fun r img i s t htake hrun hqueue => ?load,
    fun r img i s t htake hbusy => ?loadWaits,
    fun r i s t htake hrun hqueue hcrock hcount hheld => ?zeroise,
    fun r copies i s t u n failed hmigq hmig htake hgo => ?migrate,
    fun r crk cel i d k j idle s t u w htake hcrock hd hk hj hidle hu hw => ?test,
    fun r i s t htake hrun hqueue htwin => ?sync,
    fun r i s t htake halign hplaces => ?query,
    fun r i k s t htake hfind => ?tag,
    fun r i s t htake hdead => ?drop,
    fun img bad s hrun => ?next,
    fun img b bad h len s t hrun hend => ?imageNext,
    fun p s hreload => ?cancel⟩
  case nop =>
    change execNop _ _ = _
    simp only [execNop, htake]
  case load =>
    change execImageLoad _ _ _ = _
    simp only [execImageLoad, htake, State.mcAccept_idle _ hrun hqueue]
    rfl
  case loadWaits =>
    change execImageLoad _ _ _ = _
    simp only [execImageLoad, htake, State.mcAccept_busy _ hbusy]
  case zeroise =>
    change execZeroise _ _ = _
    simp only [execZeroise, htake, State.mcAccept_idle _ hrun hqueue]
    refine congrArg Host.Outcome.next ((if_pos ?_).trans ?_)
    · refine List.all_eq_true.2 fun k hk => ?_
      have hheld' := hheld k (List.mem_range.1 hk)
      rw [← hcrock] at hheld'
      exact hheld'
    · refine congrArg (State.ringDone · i.handle 3 0 0) ((if_neg ?_).trans (if_neg (Bool.eq_false_iff.1 hcrock)))
      exact Nat.ne_of_gt hcount
  case migrate =>
    change execMigrate _ _ _ = _
    simp only [execMigrate, htake, hgo]
    exact congrArg Host.Outcome.next (if_neg (by simp [hmigq, hmig]))
  case test =>
    have hchan : (⟨bvBits (i.w 1) 8 8 % 128, Nat.mod_lt _ (by decide)⟩ : ChanId) = d :=
      Fin.ext ((congrArg (· % 128) hd.symm).trans (Nat.mod_eq_of_lt d.isLt))
    subst hk hj hidle hu hw
    change execTest _ _ _ _ = _
    rw [execTest, htake]
    refine congrArg Host.Outcome.next ((if_neg (Bool.eq_false_iff.1 hcrock)).trans ?_)
    rw [hchan]
  case sync =>
    change execTwinSync _ _ = _
    simp only [execTwinSync, htake]
    exact congrArg Host.Outcome.next ((if_neg (by simp [hrun, hqueue])).trans (if_neg (by omega)))
  case query =>
    change execKeepQuery _ _ = _
    simp only [execKeepQuery, htake]
    refine congrArg Host.Outcome.next (if_neg ?_)
    rintro (hmissing | hodd)
    · obtain ⟨e, he, hnone⟩ := List.mem_map.1 (List.contains_iff_mem.1 hmissing)
      exact hplaces e (List.mem_range.1 he) hnone
    · exact hodd halign
  case tag =>
    change execKeepTag _ _ = _
    simp only [execKeepTag, htake, hfind]
  case drop =>
    change execKeepDrop _ _ = _
    simp only [execKeepDrop, htake]
    refine congrArg Host.Outcome.next (if_neg fun hlive => ?_)
    obtain ⟨k, hk, hactive⟩ := Option.any_eq_true _ _ |>.1 hlive
    rcases hdead k hk with hidle | hlost
    · simp [hidle] at hactive
    · simp [hlost] at hactive
  case next =>
    change execMcQueueNext _ _ _ = _
    simp only [execMcQueueNext, hrun]
  case imageNext =>
    change execMcQueueNext _ _ _ = _
    simp only [execMcQueueNext, hrun, hend]
  case cancel =>
    change execReloadCancelTimeout _ = _
    simp only [execReloadCancelTimeout, hreload, ne_eq, ite_not]

/-! ### The host's link (16 R502, R515, R517, R519) -/

/-- Settles O48. The link's events reset the interface or set its state; a tag finds its outstanding read or none
(16 R502 to R519). -/
theorem hostEvents : Obligations.HostEvents := by
  refine ⟨fun s => rfl,
    fun width speed flit s hwidth hlow hhigh hflit hdom => ?up,
    fun n p s t hpart ht => ?flr,
    fun s => rfl,
    fun tag d h s hfind => ?data,
    fun tag c s hfind => ?unexpected,
    fun tag h s t hfind ht => ?timeout,
    fun fn s t hdom ht => ?config⟩
  case up =>
    refine congrArg Host.Outcome.next (if_neg ?_)
    rintro (hbad | hzero | hover | ⟨hsix, hnoflit⟩ | hdark)
    · simp [hwidth] at hbad
    · omega
    · omega
    · simp [hflit hsix] at hnoflit
    · simp [hdom] at hdark
  case flr =>
    subst ht
    change execFlrVf _ _ = _
    simp only [execFlrVf, hpart]
  case data =>
    change execHostCompletion tag (.data d) s = _
    simp only [execHostCompletion, hfind]
  case unexpected =>
    change execHostCompletion _ _ _ = _
    simp only [execHostCompletion, hfind]
  case timeout =>
    subst ht
    change execHostCompletionTimeout _ _ = _
    simp only [execHostCompletionTimeout, hfind]
  case config =>
    subst ht
    exact congrArg Host.Outcome.next (if_neg (by simp [hdom]))

end Sys2Proof.Machine
end

section
/-! Twin pairs: records, tests, notices, synchronisation (20 R598 to R612). -/

namespace Sys2Proof.Machine
open Sys2Proof
set_option Elab.async false

/-- A record whose key is new takes the next free entry of the delay ring (20 R599). -/
theorem State.twinArrive_new {s : State} {own : Bool} {r : BitVec 124} {err : HdrErr} {agree : Bool} {i : Nat}
    (hnew : s.twinFind (recKey r) = none) (hfree : s.twinFree = some i) :
    s.twinArrive own r err agree =
      some (State.setTwinEnt { s with twinNext := (i + 1) % 4096 } i (some ⟨own, r⟩), false) := by
  simp only [State.twinArrive, hnew, hfree]

/-- The partner's record, read without error and equal to this device's own, frees the entry (20 R600). -/
theorem State.twinArrive_match {s : State} {r : BitVec 124} {i : Nat} {e : TwinEnt}
    (hfind : s.twinFind (recKey r) = some (i, e)) (hown : e.own = true) (hword : e.word = r) :
    s.twinArrive false r .ok true = some ((s.setTwinEnt i none).bump TWIN_PC_MATCH, false) := by
  simp only [State.twinArrive, hfind, hown, State.twinCompare, hword]
  simp

/-- An injected test advances the bit that the next one flips (20 R601). -/
theorem State.twinTest_running {s : State} (good : Bool) (hon : s.twinState ≠ 0) :
    s.twinTest good = (fun (t : State) => if good then t.bump TWIN_PC_TEST else t.twinCmpFault (1 + s.twinBit * 2))
      { s with twinBit := (s.twinBit + 1) % 123 } := if_neg hon

/-- Settles O49. A record finds its key in the delay ring or a free entry; tests, notices and the steps of a synchronisation
follow the pair's state (20 R598 to R612). -/
theorem twinPairs : Obligations.TwinPairs := by
  refine ⟨fun v st err agree w ws i r s t u hrecs hon hr hnew hfree ht hu hmore => ?own,
    fun r err agree p i rest s t hin hon hnew hfree ht => ?partner,
    fun r p i e rest s t hin hon hfind hown hword ht => ?matched,
    fun e x s hent hon => ?unmatched,
    fun good s t hon ht => ?test,
    fun s hstate => congrArg Host.Outcome.next (if_pos hstate),
    fun s hlost hstate => ?lost,
    fun code peer p rest s t hnotes ht hlow hhigh => ?notice,
    fun h a b s hstate hrun => ?pairTimeout,
    fun addr p k rest s t u hwr haddr hstate ht hdown hwrite => ?write,
    fun x s hsync hgood hleft hwr hown hready => ?copied⟩
  case own =>
    subst hr ht hu
    change execTwinOwnRecord _ _ _ _ _ = _
    simp only [execTwinOwnRecord, hrecs]
    refine congrArg Host.Outcome.next ((if_neg (by simp [hon])).trans ?_)
    rw [State.twinArrive_new hnew hfree]
    simp only [if_neg hmore]
  case partner =>
    subst ht
    change execTwinPartnerRecord _ _ _ _ = _
    simp only [execTwinPartnerRecord, hin]
    refine congrArg Host.Outcome.next ((if_neg (not_not.2 rfl)).trans ((if_neg (by simp [hon])).trans ?_))
    rw [State.twinArrive_new hnew hfree]
    rfl
  case matched =>
    subst ht
    change execTwinPartnerRecord _ _ _ _ = _
    simp only [execTwinPartnerRecord, hin]
    refine congrArg Host.Outcome.next ((if_neg (not_not.2 rfl)).trans ((if_neg (by simp [hon])).trans ?_))
    rw [State.twinArrive_match hfind hown hword]
    rfl
  case unmatched =>
    change execTwinMatchTimeout _ _ = _
    simp only [execTwinMatchTimeout, hent]
    exact congrArg Host.Outcome.next (if_neg (by simp [hon]))
  case test =>
    subst ht
    exact ⟨congrArg Host.Outcome.next (State.twinTest_running good hon),
      congrArg Host.Outcome.next (State.twinTest_running good hon)⟩
  case lost =>
    refine congrArg Host.Outcome.next ((if_neg (not_not.2 hlost)).trans ((if_neg (by omega)).trans (if_neg ?_)))
    omega
  case notice =>
    subst ht
    change execTwinNotice _ _ _ = _
    simp only [execTwinNotice, hnotes]
    refine congrArg Host.Outcome.next ((if_neg (not_not.2 rfl)).trans ?_)
    have hcode : code = 1 ∨ code = 2 ∨ code = 3 ∨ code = 4 ∨ code = 5 ∨ code = 6 := by bv_omega
    rcases hcode with rfl | rfl | rfl | rfl | rfl | rfl <;> rfl
  case pairTimeout =>
    refine congrArg Host.Outcome.next ((if_neg hstate).trans ?_)
    simp only [State.syncEnd, hrun]
  case write =>
    subst ht
    change execTwinSyncWrite _ _ = _
    simp only [execTwinSyncWrite, hwr]
    refine congrArg Host.Outcome.next ((if_neg (by simp [haddr, hstate])).trans ?_)
    rw [if_neg (Bool.eq_false_iff.1 hdown), hwrite]
  case copied =>
    change execTwinSyncCopyDone _ = _
    simp only [execTwinSyncCopyDone, hsync]
    refine congrArg Host.Outcome.next ((if_neg (Bool.eq_false_iff.1 hgood)).trans (if_neg ?_))
    rintro (h | h | h | ⟨hsink, hcopy, hpeer⟩)
    · exact h hleft
    · exact h hwr
    · simp [hown] at h
    · rcases hready with h | h | h
      · simp [h] at hsink
      · simp [h] at hcopy
      · simp [h] at hpeer

end Sys2Proof.Machine
end

section
/-! The Rind's commands and tests (21 R617 to R635), and audits of the ledger (02 R55, R60 to R66). -/

namespace Sys2Proof.Machine
open Sys2Proof
set_option Elab.async false

/-! ### The Rind -/

/-- A ready Rind runs a block at once (21 R629). -/
theorem State.rindTake_ready {s : State} (blk : Option (List Byte)) (hready : RindReady s) :
    s.rindTake blk = State.rindRun { s with rindWait := false } blk := by
  obtain ⟨hwait, -, hrun, hqueue⟩ := hready
  exact (if_pos hwait).trans (if_neg (by simp [hrun, hqueue]))

/-- A block that passes every check of 21 R626 and whose command changes the owner's records has its effect; then the nonce
is fresh and the status 0. -/
theorem exec_rindCode_passed {s t u : State} {b : List Byte} {code : Nat} (hcode : blkCode b = code) (hready : RindReady s)
    (ht : t = { s with rindWait := false }) (hcheck : t.blkCheck (some b) = (8, 0)) (hne : code ≠ 8)
    (heffect : t.rindEffect b = (u, 0)) : s.rindCode code b = u.freshNonce.rindDone 0 := by
  subst hcode ht
  refine (if_pos rfl).trans ((State.rindTake_ready _ hready).trans ((if_neg hready.2.1).trans ?_))
  simp only [Option.getD_some, hcheck, heffect, if_true]
  exact congrArg (State.rindDone · 0) (if_pos ⟨by decide, hne⟩)

/-- The first `ENROLL` claims the device; a later one finds it claimed (21 R624). -/
theorem State.claim_idem (t : State) : (if t.mram.claimed then t else { t with mram := { t.mram with claimed := true } }) =
    { t with mram := { t.mram with claimed := true } } := by
  split
  case isTrue hclaimed => rw [← hclaimed]
  case isFalse => rfl

/-- A block whose code is reserved does not have the form of a command (21 R624). -/
theorem blkForm_of_reserved {b : List Byte} (hcode : blkCode b = 0 ∨ 9 ≤ blkCode b) : blkForm b = false := by
  have hpay : payOk b = false := by
    simp only [payOk]
    generalize blkCode b = code at hcode
    rcases hcode with rfl | hhigh
    · rfl
    · obtain ⟨k, rfl⟩ := Nat.exists_eq_add_of_le' hhigh
      rfl
  simp [blkForm, hpay]

/-- Settles O50. A block that passes its check has the effect of its code (`exec_rindCode_passed`; `ATTEST` renews no nonce), a
reserved code or an unreadable block fails a step of 21 R626, and a failed test makes the device fatal. -/
theorem rindCommands : Obligations.RindCommands := by
  refine ⟨fun b s t hcode hready ht hcheck => ?enroll,
    fun b s t hcode hready ht hcheck => ?revoke,
    fun b s t hcode hready ht hcheck => ?minseq,
    fun b fw s t hcode hready ht hcheck hfw => ?update,
    fun b s t hcode hready ht hcheck => ?fwsvn,
    fun b s t hcode hready ht hcheck => ?unlock,
    fun b s t hcode hready ht hcheck => ?decommission,
    fun b s t u r hcode hready ht hcheck hr hwrite => ?attest,
    fun s t hready ht => ?unread,
    fun b s t hready ht hcode hreads hlen hlow hhigh => ?reserved,
    fun row s t hidle ht => ?selftest,
    fun s => ⟨congrArg Host.Outcome.next (if_neg (by simp)), congrArg Host.Outcome.next (if_pos (.inl rfl))⟩,
    fun s t hstate ht => ?entropy,
    fun s hdue => congrArg Host.Outcome.next (if_pos hdue)⟩
  case enroll =>
    refine congrArg Host.Outcome.next (exec_rindCode_passed hcode hready ht hcheck (by decide) ?_)
    simp only [State.rindEffect, hcode, State.claim_idem]
  case revoke =>
    refine congrArg Host.Outcome.next (exec_rindCode_passed hcode hready ht hcheck (by decide) ?_)
    simp only [State.rindEffect, hcode]
  case minseq =>
    refine congrArg Host.Outcome.next (exec_rindCode_passed hcode hready ht hcheck (by decide) ?_)
    simp only [State.rindEffect, hcode]
  case update =>
    subst hfw
    refine congrArg Host.Outcome.next (exec_rindCode_passed hcode hready ht hcheck (by decide) ?_)
    simp only [State.rindEffect, hcode]
    split <;> rfl
  case fwsvn =>
    refine congrArg Host.Outcome.next (exec_rindCode_passed hcode hready ht hcheck (by decide) ?_)
    simp only [State.rindEffect, hcode]
  case unlock =>
    refine congrArg Host.Outcome.next (exec_rindCode_passed hcode hready ht hcheck (by decide) ?_)
    simp only [State.rindEffect, hcode]
  case decommission =>
    refine congrArg Host.Outcome.next (exec_rindCode_passed hcode hready ht hcheck (by decide) ?_)
    simp only [State.rindEffect, hcode]
  case attest =>
    subst ht hr
    refine congrArg Host.Outcome.next ((if_pos hcode).trans ((State.rindTake_ready _ hready).trans ((if_neg hready.2.1).trans ?_)))
    simp only [Option.getD_some, hcheck, State.rindEffect, hcode, hwrite]
    rfl
  case unread =>
    subst ht
    refine congrArg Host.Outcome.next ((State.rindTake_ready _ hready).trans ((if_neg hready.2.1).trans ?_))
    rfl
  case reserved =>
    subst ht
    refine congrArg Host.Outcome.next ((if_neg (by omega)).trans ((State.rindTake_ready _ hready).trans
      ((if_neg hready.2.1).trans ?_)))
    have hcheck : State.blkCheck { s with rindWait := false } (some b) = (2, 1) := by
      refine (if_neg ?_).trans (if_pos (congrArg not (blkForm_of_reserved hcode)))
      rw [← hlen, hreads]
      simp
      omega
    simp only [hcheck]
    rfl
  case selftest =>
    subst ht
    refine congrArg Host.Outcome.next ((if_pos ⟨hidle, rfl⟩).trans (if_neg ?_))
    omega
  case entropy =>
    subst ht
    refine congrArg Host.Outcome.next ((if_neg ?_).trans (if_neg ?_))
    · simp
      omega
    · omega

/-! ### Audits of the ledger -/

/-- Settles O51. An audit that runs takes reports of supplied instances, and its comparison finds the first that differs or
none (02 R63 to R66). -/
theorem ledgerAudits : Obligations.LedgerAudits := by
  refine ⟨fun s hdom haudit => ?start,
    fun pool inst diff a s haudit hinst hpower => ?pass,
    fun a s t haudit htest hzero hbump => ?agrees,
    fun a k d s t haudit htest hfind hbump => ?differs,
    fun data s t hgo ht hfree hpool => ?test,
    fun dst tag res s t hlate ht => ?late⟩
  case start => exact congrArg Host.Outcome.next (if_neg (by simp [hdom, haudit]))
  case pass =>
    change execLedgerMarkerPass _ _ _ _ = _
    rw [execLedgerMarkerPass, haudit]
    exact congrArg Host.Outcome.next (if_pos ⟨hinst, hpower⟩)
  case agrees =>
    have hnone : (a.reports.filter (fun e => !s.excluded.contains e.1 && !s.rebased.contains e.1)).find? (fun e => e.2 ≠ 0) = none :=
      List.find?_eq_none.2 fun e he => by simp [hzero e (List.mem_of_mem_filter he)]
    change execLedgerCompare _ = _
    simp only [execLedgerCompare, haudit, hnone, htest, hbump]
    rfl
  case differs =>
    change execLedgerCompare _ = _
    simp only [execLedgerCompare, haudit, hfind, htest, hbump]
    rfl
  case test =>
    subst ht
    exact congrArg Host.Outcome.next ((if_neg (by simp [-BitVec.getLsbD_eq_getElem, hgo])).trans (if_neg (by simp [hfree, hpool])))
  case late =>
    subst ht
    exact congrArg Host.Outcome.next (if_neg (Bool.eq_false_iff.1 hlate))

end Sys2Proof.Machine
end

section
/-! Doorbells, events and the interrupt controller (17 R521 to R538); loops, sensors, domains, supplies and starts of power
(18 R539 to R564, 19 R565 to R593, 22 R646 to R650). -/

namespace Sys2Proof.Machine
open Sys2Proof
set_option Elab.async false

/-! ### Events and interrupts -/

/-- Settles O52. A vat out of reset takes its doorbells and events; the interrupt controller's commands apply their change to
the sources they name (17 R521 to R538). -/
theorem eventsAndInterrupts : Obligations.EventsAndInterrupts := by
  refine ⟨fun v src s t hlive ht => ?doorbell,
    fun v data s hlive => congrArg Host.Outcome.next (if_neg (by simp [hlive])),
    fun v src s hlive hsrc => congrArg Host.Outcome.next (if_pos ⟨hlive, hsrc⟩),
    fun n s hchange => congrArg Host.Outcome.next (if_neg hchange),
    fun t n s u hsees hu => ?claim,
    fun t n s u hsees hu => ?fastClaim,
    fun t fast data n s hn hserved howner hclass => ?complete,
    fun fast data ns s hns => ?resample,
    fun fast w data s => ?mask,
    fun n data s hn => congrArg Host.Outcome.next (if_neg (Nat.not_le.2 hn)),
    fun t fast s u x auto htimer hdeliver => ?coalesce,
    fun n s hserved howner => congrArg Host.Outcome.next (if_pos ⟨hserved, howner⟩)⟩
  case doorbell =>
    subst ht
    exact congrArg Host.Outcome.next ((if_neg (by simp [State.vatOn_of_vatLive hlive])).trans (if_neg (by simp [hlive])))
  case claim =>
    rw [hu]
    change execDicClaim _ _ _ _ = _
    rw [execDicClaim, if_pos hsees]
    rfl
  case fastClaim =>
    rw [hu]
    change execDicClaim _ _ _ _ = _
    rw [execDicClaim, if_pos hsees]
    rfl
  case complete =>
    subst hn
    exact congrArg Host.Outcome.next (if_pos ⟨hserved, howner, hclass⟩)
  case resample =>
    subst hns
    rfl
  case mask => rfl
  case coalesce =>
    refine congrArg Host.Outcome.next ((if_neg (by simp [htimer])).trans ?_)
    rw [hdeliver]

/-! ### Loops, caps and sensors -/

/-- Settles O53. Each measurement falls into the case that its clause names, which moves the caps or the registers of
18 R543 to R564. -/
theorem powerLoops : Obligations.PowerLoops := by
  refine ⟨fun v b s a want x hw code hon ha hwant hcap hx hfloor hheld => ?loop,
    fun bodra guest gloss s t u cap ht hcap hu => ?governor,
    fun s hlow hover => congrArg Host.Outcome.next (if_pos ⟨hlow, hover⟩),
    fun v c s hdie hhot => ?die,
    fun v amps s hon hover => congrArg Host.Outcome.next ((if_neg (not_not.2 hon)).trans (if_pos hover)),
    fun n temp s t hmesh hgood hcool ht hstill => ?sensor,
    fun v data s hfloor hle hcap => ?voltage,
    fun data s => rfl,
    fun n data s t hlow hhigh ht => ?guest⟩
  case loop =>
    subst ha hwant hx
    change execVatVoltageLoop _ _ _ = _
    simp only [execVatVoltageLoop, ← hcap]
    refine congrArg Host.Outcome.next ((if_neg (not_not.2 hon)).trans ?_)
    rw [if_neg (Nat.not_lt.2 hfloor), if_neg (fun h => absurd h.1 (Nat.not_lt.2 hheld)), if_neg (Nat.not_lt.2 hheld)]
  case governor =>
    subst ht hcap hu
    change execPowerGovernor _ _ _ _ = _
    simp only [execPowerGovernor, decide_eq_true_eq]
    rfl
  case die =>
    change execDieCapStep _ _ = _
    simp only [execDieCapStep, hdie]
    exact congrArg Host.Outcome.next (if_neg (Int.not_lt.2 hhot))
  case sensor =>
    subst ht
    change execSensorSample _ _ _ = _
    refine congrArg Host.Outcome.next ((if_neg (Bool.eq_false_iff.1 hstill)).trans ?_)
    rw [if_neg (Nat.not_lt.2 hmesh)]
    exact if_neg (Int.not_le.2 hcool)
  case voltage =>
    refine congrArg Host.Outcome.next (if_neg ?_)
    simp only [vMin, vMax]
    omega
  case guest =>
    subst ht
    exact congrArg Host.Outcome.next (if_neg (by omega))

/-! ### Domains -/

/-- Settles O54. The state of a domain decides what becomes of a request, of the end of a transition and of a fault; a warning
and a trip complete what was accepted and switch the device off (18 R540 to R559, 16 R516). -/
theorem powerDomains : Obligations.PowerDomains := by
  refine ⟨fun d s hramp hdrain hok => ?on,
    fun d s hramp hdrain hok => ?off,
    fun d s hbusy => ⟨congrArg Host.Outcome.next (if_pos hbusy), congrArg Host.Outcome.next (if_pos hbusy)⟩,
    fun d s t hramp ht => ?ramped,
    fun d s hdrain hdone => ?drained,
    fun d data s t ht => ?shadow,
    fun d s hskew => congrArg Host.Outcome.next (if_neg hskew),
    fun v why s => rfl,
    fun k why s t ht => ?crock,
    fun d why s t hlow hhigh hon ht => ?fault,
    fun noCrk noCel s t u hok ht hu => ?warning,
    fun src temp mram s t u hok htrip hsrc hhot ht hu => ?trip⟩
  case on => exact congrArg Host.Outcome.next ((if_neg (not_or.2 ⟨hramp, hdrain⟩)).trans (if_pos hok))
  case off => exact congrArg Host.Outcome.next ((if_neg (not_or.2 ⟨hramp, hdrain⟩)).trans (if_pos hok))
  case ramped =>
    subst ht
    exact congrArg Host.Outcome.next (if_neg (not_not.2 hramp))
  case drained => exact congrArg Host.Outcome.next ((if_neg (not_not.2 hdrain)).trans (if_neg (by simp [hdone])))
  case shadow =>
    subst ht
    rfl
  case crock =>
    subst ht
    rfl
  case fault =>
    subst ht
    refine congrArg Host.Outcome.next ((if_neg (by omega)).trans ((if_neg (by omega)).trans ?_))
    rw [if_neg (Nat.not_lt.2 hlow), if_neg (by omega)]
  case warning =>
    subst ht hu
    exact congrArg Host.Outcome.next (if_neg (by simp [hok]))
  case trip =>
    subst ht hu
    refine congrArg Host.Outcome.next (if_neg ?_)
    rintro (h | h | h | h)
    · simp [hok] at h
    · simp [htrip] at h
    · simp [hsrc] at h
    · omega

/-! ### Supplies and starts -/

/-- With the supplies good and no trip, a reset completes the accepted writes, switches off and makes a start due
(19 R565). -/
theorem State.deviceReset_powered {s : State} (cause : Nat) (hok : s.sup.pwrOk = true) (htrip : s.sup.tripped = false) :
    s.deviceReset cause = (fun (t : State) => { t with sup := { t.sup with due := some cause } })
      (s.finishWrites.powerDown s.finishWrites.sup.lost) :=
  if_neg (by simp [hok, htrip])

/-- A core test starts in a vat that is supplied and runs none (19 R593). -/
theorem State.testGo_free {s : State} {v : Nat} (hon : s.domState v = 2 ∨ s.domState v = 3)
    (hfree : s.bit VAT_TEST_STAT.BUSY v = false) : s.testGo v = s.setFld VAT_TEST_STAT.BUSY 1 v :=
  if_pos ⟨hon, congrArg not hfree⟩

/-- Settles O55. Supplies, resets and starts act where the hypotheses say that the device is supplied and not tripped
(19 R565 to R593, 22 R647 to R650). -/
theorem supplyAndStart : Obligations.SupplyAndStart := by
  refine ⟨fun s haux => ?aux,
    fun s t ht => ?loss,
    fun vret noCel s haux hok => congrArg Host.Outcome.next (if_neg (by simp [haux, hok])),
    fun s t hok htrip ht => ⟨fun hdue => ?pin, fun data hdata => ?boot, fun hrun => ?watchdog⟩,
    fun s hok hlost => ⟨_, congrArg Host.Outcome.next (if_neg (by simp [hok, hlost]))⟩,
    fun r c s hdue hok htrip => ?start,
    fun v s hon hfree => ⟨congrArg Host.Outcome.next (State.testGo_free hon hfree),
      congrArg Host.Outcome.next (State.testGo_free hon hfree)⟩,
    fun v fails s f hbusy hf => ?testEnd,
    fun s t hrun ht => ?topology⟩
  case aux => exact congrArg Host.Outcome.next (if_neg (Bool.eq_false_iff.1 haux))
  case loss =>
    subst ht
    rfl
  case pin =>
    subst ht
    exact congrArg Host.Outcome.next ((if_neg (by simp [hdue])).trans (State.deviceReset_powered 2 hok htrip))
  case boot =>
    subst ht
    exact congrArg Host.Outcome.next ((if_pos hdata).trans (State.deviceReset_powered 3 hok htrip))
  case watchdog =>
    subst ht
    exact congrArg Host.Outcome.next ((if_pos hrun).trans (State.deviceReset_powered 4 hok htrip))
  case start =>
    change execDeviceStart _ _ = _
    rw [execDeviceStart, hdue]
    exact congrArg Host.Outcome.next (if_neg (by simp [hok, htrip]))
  case testEnd =>
    subst hf
    exact congrArg Host.Outcome.next (if_neg (by simp [hbusy]))
  case topology =>
    subst ht
    exact congrArg Host.Outcome.next (if_neg (by simp [hrun]))

end Sys2Proof.Machine
end

section
/-! Sideband targets, the IEEE 1149.1 port, and accesses to register space (22 R653 to R656, 00 R12 to R16). -/

namespace Sys2Proof.Machine
open Sys2Proof
set_option Elab.async false

/-- With the auxiliary supply an instruction of the port that is permitted selects its path (22 R656). -/
theorem State.jtagInsn_permitted {s : State} {permitted : Bool} (p : JtagPath) (haux : s.sup.aux = true)
    (hok : permitted = true) : s.jtagInsn permitted p = s.jtagTo p := by
  subst hok
  exact if_neg (by simp [haux])

/-- Settles O56. With the auxiliary supply a sideband access finds its register or none, and an instruction of the port
selects its path (22 R654, R656). -/
theorem sidebandAndJtag : Obligations.SidebandAndJtag := by
  refine ⟨fun off size r s haux hfind hon hsize hreg => ?read,
    fun off size s haux hfind => ?readNone,
    fun off data s haux hoff => congrArg Host.Outcome.next ((if_neg (by simp [haux])).trans (if_pos hoff)),
    fun off data s haux hoff => congrArg Host.Outcome.next ((if_neg (by simp [haux])).trans (if_neg hoff)),
    fun s haux => congrArg Host.Outcome.next (State.jtagInsn_permitted _ haux rfl),
    fun s haux => ⟨(Config.freeDword s.free).setWidth 32, ?sample, fun n => ?face, fun hstate => ?extest,
      fun hdebug => ⟨?wrap, ?ijtag, ?debug⟩⟩,
    fun code s haux hlow hgap h10 h20 h21 => ?bypass⟩
  case read =>
    refine congrArg Host.Outcome.next ((if_neg (by simp [haux])).trans ?_)
    rw [hfind]
    refine (if_neg (by simp [hon])).trans ((if_neg (not_not.2 hsize)).trans ?_)
    simp only [hreg, decide_false]
    rfl
  case readNone =>
    refine congrArg Host.Outcome.next ((if_neg (by simp [haux])).trans ?_)
    rw [hfind]
  case sample => exact congrArg Host.Outcome.next (State.jtagInsn_permitted _ haux rfl)
  case face => exact congrArg Host.Outcome.next (State.jtagInsn_permitted _ haux rfl)
  case extest =>
    exact congrArg Host.Outcome.next (State.jtagInsn_permitted (.boundary true) haux (by simpa using hstate))
  case wrap => exact congrArg Host.Outcome.next (State.jtagInsn_permitted .wrapper haux hdebug)
  case ijtag => exact congrArg Host.Outcome.next (State.jtagInsn_permitted .network haux hdebug)
  case debug => exact congrArg Host.Outcome.next (State.jtagInsn_permitted .debug haux hdebug)
  case bypass =>
    exact congrArg Host.Outcome.next ((if_neg (by omega)).trans (State.jtagInsn_permitted .bypass haux rfl))

/-! ### Accesses to register space -/

/-- A write of an offset of register space is judged by `regStore` (00 R12). -/
theorem exec_registerWrite_stored {src : Agent} {tag off size : Nat} {ga data : Dword} {s t : State} {x : Reply}
    (hoff : regOffset ga = some off) (hstore : s.regStore src off size data = some (t, x)) :
    exec (.registerWrite src tag ga size data) s =
      .next ((t.recvMsg (.req src tag ga (.regWrite size data))).regAnswer src tag true x) := by
  simp only [exec_registerWrite, execRegisterWrite, hoff, hstore]

/-- A read of an offset of register space is judged by `regLoad` (00 R12). -/
theorem exec_registerRead_loaded {src : Agent} {tag off size : Nat} {ga : Dword} {s t : State} {x : Reply}
    (hoff : regOffset ga = some off) (hload : s.regLoad src off size = some (t, x)) :
    exec (.readClearRegisterRead src tag ga size) s =
      .next ((t.recvMsg (.req src tag ga (.regRead size))).regAnswer src tag false x) := by
  simp only [exec_readClearRegisterRead, execReadClearRegisterRead, hoff, hload]

/-- A write that finds its register, powered, shown and not withheld, acts on it (00 R13). -/
theorem State.regStore_at {s : State} {src : Agent} {off size : Nat} {data : Dword} {r : RegAt}
    (hmay : s.regMay src off true = true) (hhit : s.regHit off size = .at r) (hdark : s.regDark (regAlias off) = false)
    (hhidden : s.regHidden src (regAlias off) = false) (hheld : s.regHeld (regAlias off) = false) :
    s.regStore src off size data =
      (s.regDo src r (if size = 4 then BitVec.ofNat 64 (bvBits data 0 32) else data)).map (fun s => (s, .done)) := by
  refine (if_neg (by simp [hmay])).trans ?_
  rw [hhit]
  exact (if_neg (by simp [hdark, hhidden])).trans (if_neg (by simp [hheld]))

/-- A read that finds its register so returns what the register shows (00 R13). -/
theorem State.regLoad_at {s : State} {src : Agent} {off size : Nat} {r : RegAt}
    (hmay : s.regMay src off false = true) (hhit : s.regHit off size = .at r) (hdark : s.regDark (regAlias off) = false)
    (hhidden : s.regHidden src (regAlias off) = false) (hheld : s.regHeld (regAlias off) = false) :
    s.regLoad src off size = some ((s.regLook r).2, .word (s.regLook r).1) := by
  refine (if_neg (by simp [hmay])).trans ?_
  rw [hhit]
  exact (if_neg (by simp [hdark, hhidden])).trans (if_neg (by simp [hheld]))

/-- A register with no view of its own, other than a claim address, is read as it is stored and then cleared. -/
theorem State.regLook_stored {s : State} {r : RegAt} (hview : rdTable.find? (fun e => e.1 = r.reg) = none)
    (hclaim : r.reg ≠ DIC_CLAIM) (hfclaim : r.reg ≠ DIC_FCLAIM) :
    s.regLook r = (s.reg r.reg r.i r.j r.k, s.regClear r) := by
  refine (if_neg (not_or.2 ⟨hclaim, hfclaim⟩)).trans ?_
  rw [State.regSee, hview]

/-- Settles O57. An access is judged by `regStore` or `regLoad`: by the requester's right, by what its offset finds, and then
by the register's own action or its fields (00 R12 to R16). -/
theorem registerAccess : Obligations.RegisterAccess := by
  refine ⟨fun src tag off size ga data r s hoff hmay hhit hdark hhidden hheld hplain => ?plain,
    fun src tag off size ga data r f s t hoff hmay hhit hdark hhidden hheld hact hdo => ?acting,
    fun src tag off size ga r s hoff hmay hhit hdark hhidden hheld hview hclaim hfclaim => ?read,
    fun src tag off size ga data s hoff => ⟨fun hno => ?writeDenied, fun hno => ?readDenied⟩,
    fun src tag off size ga data s hoff hempty => ⟨fun hmay => ?writeEmpty, fun hmay => ?readEmpty⟩,
    fun off size s t u x hdom hlink hbar ht hload => ?barRead,
    fun off size data s t u x hdom hlink hbar ht hstore => ?barWrite⟩
  case plain =>
    refine exec_registerWrite_stored hoff ((State.regStore_at hmay hhit hdark hhidden hheld).trans ?_)
    rw [State.regDo, hplain]
    rfl
  case acting =>
    refine exec_registerWrite_stored hoff ((State.regStore_at hmay hhit hdark hhidden hheld).trans ?_)
    rw [State.regDo, hact]
    exact congrArg (Option.map _) hdo
  case read =>
    refine exec_registerRead_loaded hoff ((State.regLoad_at hmay hhit hdark hhidden hheld).trans ?_)
    rw [State.regLook_stored hview hclaim hfclaim]
  case writeDenied => exact exec_registerWrite_stored hoff (if_pos (congrArg not hno))
  case readDenied => exact exec_registerRead_loaded hoff (if_pos (congrArg not hno))
  case writeEmpty =>
    refine exec_registerWrite_stored hoff ((if_neg (by simp [hmay])).trans ?_)
    rw [hempty]
  case readEmpty =>
    refine exec_registerRead_loaded hoff ((if_neg (by simp [hmay])).trans ?_)
    rw [hempty]
  case barRead =>
    subst ht
    refine congrArg Host.Outcome.next ((if_neg (by simp [hdom, hlink])).trans ?_)
    have hto : (s.bump HOST_PC_RXREQ).barTo 0 .bar0 off false = .reg .host off := if_pos hbar
    simp only [State.hostReq, Fin.val_zero, hto, State.barRead, hload]
  case barWrite =>
    subst ht
    refine congrArg Host.Outcome.next ((if_neg (by simp [hdom, hlink])).trans ?_)
    have hto : (s.bump HOST_PC_RXREQ).barTo 0 .bar0 off true = .reg .host off := if_pos hbar
    simp only [State.hostReq, Fin.val_zero, hto, State.barWrite, hstore]
    rfl

end Sys2Proof.Machine
end
